-- ==== Sys2Proof/Word.lean ====
section
/-! DEFINITION. The word types of the ZN-1024 and their plainest arithmetic: bytes, 64-bit words, vector words,
sign extension and bit fields (00_scope.md, Notation). -/

namespace Sys2Proof

/-- A 64-bit doubleword: a general register, a chip CSR, a core system register. -/
abbrev Word := BitVec 64
/-- A byte of memory. -/
abbrev Byte := BitVec 8
/-- A 128-bit vector register (R286). -/
abbrev VWord := BitVec 128
/-- A 512-bit line, byte i in bits [8i+7:8i] (R146). -/
abbrev Line := BitVec 512

/-- 1 when the condition holds, else 0: what a comparison writes to a register. -/
def b2w (b : Bool) : Word := if b then 1 else 0

/-- One bit for a condition. -/
def b2b (b : Bool) : BitVec 1 := if b then 1 else 0

/-- Sign extension of an immediate to a register. -/
abbrev sext {w : Nat} (x : BitVec w) : Word := x.signExtend 64
/-- Zero extension of an immediate to a register. -/
abbrev zext {w : Nat} (x : BitVec w) : Word := x.zeroExtend 64

/-- Bits [hi:lo] of a word as a number (00_scope.md, Notation). -/
def bitsN (x : Word) (hi lo : Nat) : Nat := (x.toNat / 2 ^ lo) % 2 ^ (hi + 1 - lo)

/-- Bit n of a word. -/
abbrev bitB (x : Word) (n : Nat) : Bool := x.getLsbD n

/-- A mask of bits [hi:lo]. -/
def maskW (hi lo : Nat) : Word := BitVec.ofNat 64 ((2 ^ (hi + 1 - lo) - 1) * 2 ^ lo)

/-- A word with bits [hi:lo] replaced by the low bits of v. -/
def putW (x : Word) (hi lo : Nat) (v : Nat) : Word :=
  (x &&& ~~~ maskW hi lo) ||| (BitVec.ofNat 64 (v * 2 ^ lo) &&& maskW hi lo)

/-- A word with bit n set to a condition. -/
def putB (x : Word) (n : Nat) (b : Bool) : Word := putW x n n (if b then 1 else 0)

/-- Truncating natural division rounded up. -/
def ceilDiv' (a b : Nat) : Nat := (a + b - 1) / b

/-- The natural minimum that a saturating counter of w bits keeps. -/
def satN (w n : Nat) : Nat := min n (2 ^ w - 1)

end Sys2Proof
end

