-- ==== Sys2Proof/Syntax.lean ====
section
/-! DEFINITION. The commands of the block: one constructor per row of the table of operations and events, with the
operands the row's rules name. A command that the outside world answers (a device, a sensor, the DRAM, the fuses)
carries that answer as an operand. -/

namespace Sys2Proof

/-- A logical core number 0..1023 (R15). -/
abbrev CoreId := Fin 1024
/-- A general register g0..g31 (R169). -/
abbrev Reg := Fin 32
/-- A vector register v0..v31 (R286). -/
abbrev VReg := Fin 32
/-- A mask register m0..m7 (R286). -/
abbrev MReg := Fin 8
/-- A tile 0..543 (R13). -/
abbrev TileId := Fin 544
/-- A home function, or a near channel, 0..11 (Table 1.5). -/
abbrev HomeId := Fin 12
/-- A port 0..63 (Table 1.5). -/
abbrev PortId := Fin 64
/-- An I/O die: 0 west, 1 east (Table 1.5). -/
abbrev IoDie := Fin 2
/-- A router index 36 * y + x (05_mesh.md). -/
abbrev RouterId := Fin 576
/-- A data-engine instance 0..255 (Table 12.7). -/
abbrev InstId := Fin 256
/-- A line of system memory, a[47:6] (R116). -/
abbrev LineNo := BitVec 42
/-- A 2 MiB frame of system memory, a[47:21]. -/
abbrev FrameNo := BitVec 27

/-- Who makes a register access (R472): its level, its guest flag, service mode, whether it is the DSE, and its mesh
coordinates as the REJECT log records them (Table 18.2). -/
structure Requester where
  pl : Nat
  v : Bool
  svc : Bool
  dse : Bool
  router : Nat
  agent : Nat
  deriving DecidableEq, Repr

/-- A register access that arrives at a CSR block (R24): address, size in bytes, the value of a write (a 4-byte write
carries its 4 bytes in bits [31:0]) and the requester. -/
structure CsrReq where
  pa : Nat
  size : Nat
  value : Word
  req : Requester
  deriving DecidableEq, Repr

/-- An agent of the mesh: the index of its router and its agent number (Table 5.1). -/
structure Agt where
  router : Nat
  agent : Nat
  deriving DecidableEq, Repr

/-- Packet opcodes (Table 5.3). -/
inductive Op where
  | RdS | RdX | Upg | RdZ | RdNC | WrF | WrP | FAtom | Flush | Clean | PutS | PutE | PutM
  | HRd | HWrF | HWrP | HAtom | HPut
  | SeRd | SeWr | MsiWr | PRd | PWrF | PWrP | PAtom
  | SnpS | SnpX | Inv
  | Data | Grant | Cmp | WbGo | WbStale | WbAck | WbData | PutCancel | SnpRsp | SnpData | InvAck
  | BCAST | BACK | RWRITE | RWACK | MARK_ACK
  | Mark (cls : Fin 5)
  | unlisted (code : Nat)
  deriving DecidableEq, Repr

/-- The classes of the mesh (R149): three request levels, snoop, response, maintenance. -/
inductive Cls where
  | req0 | req1 | req2 | snoop | resp | maint
  deriving DecidableEq, Repr

/-- A packet (Tables 5.2 and 5.3). `addr` is the physical address of a request or snoop (its byte address, of which
the header carries [51:6] and the data field the offset), or the argument of a maintenance packet. `ifetch` marks an
RdS of an instruction fetch (Table 4.3). `side` is the observation sideband (R380). -/
structure Pkt where
  op : Op
  src : Agt
  dst : Agt
  txid : Nat
  addr : Nat
  epoch : Bool := false
  leg : Bool := false
  poison : Bool := false
  repoch : Bool := false
  ifetch : Bool := false
  status : Nat := 0
  grant : Nat := 0
  dirty : Bool := false
  detail : Nat := 0
  data : Line := 0
  mask : Nat := 0
  side : BitVec 160 := 0
  deriving DecidableEq, Repr

/-- What happens to a flit's check bits on a link (R148). -/
inductive FlitEnv where
  | clean | corrected | dataError | headerError | sideError
  deriving DecidableEq, Repr

/-- An agent that takes a translation invalidation broadcast (R250): a physical core or an I/O translation unit. -/
inductive InvAgent where
  | core (p : Fin 1088) | iot (d : IoDie)
  deriving DecidableEq, Repr

/-- What an instruction fetch met (R180, R205): a translation fault of the fetch at the pc, the response of the memory
system (a status of Table 5.4), or poisoned data. -/
inductive FetchEnv where
  | translate | status (code : Nat) | poison
  deriving DecidableEq, Repr

/-- A Sorrel command descriptor as read from its slot (Table 2.9): words 0 and 1, and the slot's address. -/
structure SorCmd where
  w0 : Word
  w1 : Word
  slot : Nat
  deriving DecidableEq, Repr

/-- A command that the DSE runs: the transport that its GO came by (0 mailbox, 1 SMBus, 2 UART) and whether VPP_FUSE is
in range (R457). What it says stands in that transport's buffer. -/
structure DseMsg where
  via : Fin 3
  vpp : Bool
  deriving DecidableEq, Repr
/-- How a near channel trains (R78, R80): the density of its devices (0: 8 Gbit, 1: 16 Gbit), its ranks, and the ranks that
pass every step. -/
structure ChanEnv where
  density : Nat
  ranks : Nat
  pass : List Nat
  deriving DecidableEq, Repr
/-- Bits of a DRAM burst, as beat 0..7 and bit 0..79 (R78). -/
abbrev Flips := List (Fin 8 × Fin 80)
/-- The errors that a DRAM read meets: bits that have turned in the cells, which stay turned until the line is written,
and bits that arrive turned over a failed device or the channel. -/
structure DramErr where
  cells : Flips
  link : Flips
  deriving DecidableEq, Repr
/-- What a DRAM read meets: in the channel's own copy, and in the mirror copy of the assurance profile (R107). -/
structure DramEnv where
  own : DramErr
  mirror : DramErr
  deriving DecidableEq, Repr
/-- What a copier pass met (R56, Table 2.12): the errors of lines of a near source, and the lines of a far source whose read
returned poison or an error. -/
structure CopyEnv where
  near : List (Fin 32768 × DramEnv)
  bad : List Nat
  deriving DecidableEq, Repr
/-- How a port's link trains (R308, R313): whether it reaches a width and a speed, these, the good lanes, whether the
device is a CXL type 3 device, and its capacity in bytes. -/
structure TrainEnv where
  ok : Bool
  speed : Nat
  width : Nat
  lanes : BitVec 8
  type3 : Bool
  capacity : Nat
  deriving DecidableEq, Repr
/-- A CXL.mem response (R314, R315): whether its data carries poison, and the bytes of the block's stored CHIVE image that the
device has changed, by offset (R45). -/
structure CxlEnv where
  poison : Bool
  patch : List (Nat × Byte)
  deriving DecidableEq, Repr
/-- Completion status of a PCI Express completion: successful, Unsupported Request, Request Retry Status, Completer
Abort. -/
inductive CplStatus where
  | sc | ur | rrs | ca
  deriving DecidableEq, Repr
/-- A PCI Express completion: its status and whether it is poisoned (EP = 1). -/
structure CplEnv where
  status : CplStatus
  ep : Bool
  deriving DecidableEq, Repr
/-- What a device asks of memory (R319): a read, a memory write, or an AtomicOp with its operation (0 FetchAdd, 1 Swap,
2 CAS), its operand, its compare value, and whether it is 128 bits wide. -/
inductive InKind where
  | read | write | atomic (op : Fin 3) (operand compare : Word) (wide : Bool)
  deriving DecidableEq, Repr
/-- A request from a device (R319): its port, requester ID, tag, address and length, the bytes of a write (none where the
byte enable is 0), the EP bit, whether a PASID or TLP prefix is present, and the AT field. Its ordering attributes only
permit less order than this model keeps. -/
structure Inbound where
  port : PortId
  rid : BitVec 16
  tag : BitVec 14
  kind : InKind
  addr : Word
  len : Nat
  bytes : List (Option Byte)
  ep : Bool
  pfx : Bool
  atf : BitVec 2
  deriving DecidableEq, Repr
/-- A data-engine unit: COMP 0..3, DECOMP 4..11, CHIVE 12..15, MOVE 16 and 17 (Table 12.1). -/
abbrev UnitId := Fin 18
/-- Whom an arming broadcast of Keystone reaches (R386): one block's island, or every one. -/
inductive KeyAgent where
  | block (b : Fin 580) | all
  deriving DecidableEq, Repr
/-- A Toll requester (Table 14.3): the vector unit of a physical core (position 0 for a pair), a unit of a data engine,
a home function's migrations, a port's speed raise. -/
inductive TollWho where
  | vector (p : Fin 1088) | unit (d : IoDie) (u : UnitId) | mig (h : HomeId) | speed (p : PortId)
  deriving DecidableEq, Repr
/-- A fault report (Table 16.1): unit, index, location, severity (0 CE, 1 UE, 2 STOP, 3 TIMEOUT), detail and ctime. -/
structure FaultRep where
  unit : Nat
  index : Nat
  loc : Nat
  sev : Nat
  detail : Nat
  time : Nat
  deriving DecidableEq, Repr

/-- The commands of the block: first the rows of instructions, which words spell (decodeWord), then the others; each in the order
of the table. -/
inductive Instr where
  /-- ADDI (R176). -/
  | addi (c : CoreId) (rd ra : Reg) (imm : BitVec 17)
  /-- ANDI (R176). -/
  | andi (c : CoreId) (rd ra : Reg) (imm : BitVec 17)
  /-- ORI (R176). -/
  | ori (c : CoreId) (rd ra : Reg) (imm : BitVec 17)
  /-- XORI (R176). -/
  | xori (c : CoreId) (rd ra : Reg) (imm : BitVec 17)
  /-- SLTI (R176). -/
  | slti (c : CoreId) (rd ra : Reg) (imm : BitVec 17)
  /-- SLTIU (R176). -/
  | sltiu (c : CoreId) (rd ra : Reg) (imm : BitVec 17)
  /-- SLLI (R176). -/
  | slli (c : CoreId) (rd ra : Reg) (sh : BitVec 6)
  /-- SRLI (R176). -/
  | srli (c : CoreId) (rd ra : Reg) (sh : BitVec 6)
  /-- SRAI (R176). -/
  | srai (c : CoreId) (rd ra : Reg) (sh : BitVec 6)
  /-- RORI (R176). -/
  | rori (c : CoreId) (rd ra : Reg) (sh : BitVec 6)
  /-- SLLIW (R176). -/
  | slliw (c : CoreId) (rd ra : Reg) (sh : BitVec 6)
  /-- SRLIW (R176). -/
  | srliw (c : CoreId) (rd ra : Reg) (sh : BitVec 6)
  /-- SRAIW (R176). -/
  | sraiw (c : CoreId) (rd ra : Reg) (sh : BitVec 6)
  /-- LI (R177). -/
  | li (c : CoreId) (rd : Reg) (imm : BitVec 22)
  /-- LSI (R177). -/
  | lsi (c : CoreId) (rd : Reg) (imm : BitVec 22)
  /-- PCOFF (R177). -/
  | pcoff (c : CoreId) (rd : Reg) (imm : BitVec 22)
  /-- ADD (R176). -/
  | add (c : CoreId) (rd ra rb : Reg)
  /-- SUB (R176). -/
  | sub (c : CoreId) (rd ra rb : Reg)
  /-- ADDW (R176). -/
  | addw (c : CoreId) (rd ra rb : Reg)
  /-- SUBW (R176). -/
  | subw (c : CoreId) (rd ra rb : Reg)
  /-- AND (R176). -/
  | and (c : CoreId) (rd ra rb : Reg)
  /-- OR (R176). -/
  | or (c : CoreId) (rd ra rb : Reg)
  /-- XOR (R176). -/
  | xor (c : CoreId) (rd ra rb : Reg)
  /-- ANDN (R176). -/
  | andn (c : CoreId) (rd ra rb : Reg)
  /-- ORN (R176). -/
  | orn (c : CoreId) (rd ra rb : Reg)
  /-- XNOR (R176). -/
  | xnor (c : CoreId) (rd ra rb : Reg)
  /-- SLL (R176). -/
  | sll (c : CoreId) (rd ra rb : Reg)
  /-- SRL (R176). -/
  | srl (c : CoreId) (rd ra rb : Reg)
  /-- SRA (R176). -/
  | sra (c : CoreId) (rd ra rb : Reg)
  /-- ROR (R176). -/
  | ror (c : CoreId) (rd ra rb : Reg)
  /-- SLLW (R176). -/
  | sllw (c : CoreId) (rd ra rb : Reg)
  /-- SRLW (R176). -/
  | srlw (c : CoreId) (rd ra rb : Reg)
  /-- SRAW (R176). -/
  | sraw (c : CoreId) (rd ra rb : Reg)
  /-- SLT (R176). -/
  | slt (c : CoreId) (rd ra rb : Reg)
  /-- SLTU (R176). -/
  | sltu (c : CoreId) (rd ra rb : Reg)
  /-- MIN (R176). -/
  | min (c : CoreId) (rd ra rb : Reg)
  /-- MAX (R176). -/
  | max (c : CoreId) (rd ra rb : Reg)
  /-- MINU (R176). -/
  | minu (c : CoreId) (rd ra rb : Reg)
  /-- MAXU (R176). -/
  | maxu (c : CoreId) (rd ra rb : Reg)
  /-- SELZ (R176). -/
  | selz (c : CoreId) (rd ra rb : Reg)
  /-- SELNZ (R176). -/
  | selnz (c : CoreId) (rd ra rb : Reg)
  /-- CLZ (R176). -/
  | clz (c : CoreId) (rd ra : Reg)
  /-- CTZ (R176). -/
  | ctz (c : CoreId) (rd ra : Reg)
  /-- POPC (R176). -/
  | popc (c : CoreId) (rd ra : Reg)
  /-- BSWAP (R176). -/
  | bswap (c : CoreId) (rd ra : Reg)
  /-- SEXTB (R176). -/
  | sextb (c : CoreId) (rd ra : Reg)
  /-- SEXTH (R176). -/
  | sexth (c : CoreId) (rd ra : Reg)
  /-- SEXTW (R176). -/
  | sextw (c : CoreId) (rd ra : Reg)
  /-- ZEXTW (R176). -/
  | zextw (c : CoreId) (rd ra : Reg)
  /-- MUL (R176). -/
  | mul (c : CoreId) (rd ra rb : Reg)
  /-- MULH (R176). -/
  | mulh (c : CoreId) (rd ra rb : Reg)
  /-- MULHU (R176). -/
  | mulhu (c : CoreId) (rd ra rb : Reg)
  /-- MULHSU (R176). -/
  | mulhsu (c : CoreId) (rd ra rb : Reg)
  /-- MULW (R176). -/
  | mulw (c : CoreId) (rd ra rb : Reg)
  /-- DIV (R178). -/
  | div (c : CoreId) (rd ra rb : Reg)
  /-- DIVU (R178). -/
  | divu (c : CoreId) (rd ra rb : Reg)
  /-- REM (R178). -/
  | rem (c : CoreId) (rd ra rb : Reg)
  /-- REMU (R178). -/
  | remu (c : CoreId) (rd ra rb : Reg)
  /-- DIVW (R178). -/
  | divw (c : CoreId) (rd ra rb : Reg)
  /-- DIVUW (R178). -/
  | divuw (c : CoreId) (rd ra rb : Reg)
  /-- REMW (R178). -/
  | remw (c : CoreId) (rd ra rb : Reg)
  /-- REMUW (R178). -/
  | remuw (c : CoreId) (rd ra rb : Reg)
  /-- BEQ (R173). -/
  | beq (c : CoreId) (ra rb : Reg) (off : BitVec 12)
  /-- BNE (R173). -/
  | bne (c : CoreId) (ra rb : Reg) (off : BitVec 12)
  /-- BLT (R173). -/
  | blt (c : CoreId) (ra rb : Reg) (off : BitVec 12)
  /-- BGE (R173). -/
  | bge (c : CoreId) (ra rb : Reg) (off : BitVec 12)
  /-- BLTU (R173). -/
  | bltu (c : CoreId) (ra rb : Reg) (off : BitVec 12)
  /-- BGEU (R173). -/
  | bgeu (c : CoreId) (ra rb : Reg) (off : BitVec 12)
  /-- J (R179). -/
  | j (c : CoreId) (off : BitVec 27)
  /-- JAL (R179). -/
  | jal (c : CoreId) (off : BitVec 27)
  /-- JALR (R179). -/
  | jalr (c : CoreId) (rd ra : Reg) (imm : BitVec 17)
  /-- LB (R182). -/
  | lb (c : CoreId) (rd ra : Reg) (imm : BitVec 17)
  /-- LBU (R182). -/
  | lbu (c : CoreId) (rd ra : Reg) (imm : BitVec 17)
  /-- LH (R182). -/
  | lh (c : CoreId) (rd ra : Reg) (imm : BitVec 17)
  /-- LHU (R182). -/
  | lhu (c : CoreId) (rd ra : Reg) (imm : BitVec 17)
  /-- LW (R182). -/
  | lw (c : CoreId) (rd ra : Reg) (imm : BitVec 17)
  /-- LWU (R182). -/
  | lwu (c : CoreId) (rd ra : Reg) (imm : BitVec 17)
  /-- LD (R182). -/
  | ld (c : CoreId) (rd ra : Reg) (imm : BitVec 17)
  /-- SB (R182). -/
  | sb (c : CoreId) (rs ra : Reg) (imm : BitVec 17)
  /-- SH (R182). -/
  | sh (c : CoreId) (rs ra : Reg) (imm : BitVec 17)
  /-- SW (R182). -/
  | sw (c : CoreId) (rs ra : Reg) (imm : BitVec 17)
  /-- SD (R182). -/
  | sd (c : CoreId) (rs ra : Reg) (imm : BitVec 17)
  /-- LDAQ (R188). -/
  | ldaq (c : CoreId) (rd ra : Reg) (sz : BitVec 2)
  /-- STRL (R188). -/
  | strl (c : CoreId) (ra rb : Reg) (sz : BitVec 2)
  /-- LL (R190). -/
  | ll (c : CoreId) (rd ra : Reg) (sz : BitVec 2) (aq : Bool)
  /-- SC (R190). -/
  | sc (c : CoreId) (rd ra rb : Reg) (sz : BitVec 2) (rl : Bool)
  /-- AADD (R189). -/
  | aadd (c : CoreId) (rd ra rb : Reg) (sz : BitVec 2) (aq rl : Bool)
  /-- ASWAP (R189). -/
  | aswap (c : CoreId) (rd ra rb : Reg) (sz : BitVec 2) (aq rl : Bool)
  /-- ACAS (R189). -/
  | acas (c : CoreId) (rd ra rb : Reg) (sz : BitVec 2) (aq rl : Bool)
  /-- AMIN (R189). -/
  | amin (c : CoreId) (rd ra rb : Reg) (sz : BitVec 2) (aq rl : Bool)
  /-- AMAX (R189). -/
  | amax (c : CoreId) (rd ra rb : Reg) (sz : BitVec 2) (aq rl : Bool)
  /-- AMINU (R189). -/
  | aminu (c : CoreId) (rd ra rb : Reg) (sz : BitVec 2) (aq rl : Bool)
  /-- AMAXU (R189). -/
  | amaxu (c : CoreId) (rd ra rb : Reg) (sz : BitVec 2) (aq rl : Bool)
  /-- FADD (R193). -/
  | fadd (c : CoreId) (rd ra rb : Reg) (p : Bool) (rm : BitVec 3)
  /-- FSUB (R193). -/
  | fsub (c : CoreId) (rd ra rb : Reg) (p : Bool) (rm : BitVec 3)
  /-- FMUL (R193). -/
  | fmul (c : CoreId) (rd ra rb : Reg) (p : Bool) (rm : BitVec 3)
  /-- FDIV (R193). -/
  | fdiv (c : CoreId) (rd ra rb : Reg) (p : Bool) (rm : BitVec 3)
  /-- FSQRT (R193). -/
  | fsqrt (c : CoreId) (rd ra : Reg) (p : Bool) (rm : BitVec 3)
  /-- FMIN (R193). -/
  | fmin (c : CoreId) (rd ra rb : Reg) (p : Bool)
  /-- FMAX (R193). -/
  | fmax (c : CoreId) (rd ra rb : Reg) (p : Bool)
  /-- FMADD (R193). -/
  | fmadd (c : CoreId) (rd ra rb : Reg) (p : Bool) (rm : BitVec 3)
  /-- FMSUB (R193). -/
  | fmsub (c : CoreId) (rd ra rb : Reg) (p : Bool) (rm : BitVec 3)
  /-- FNMADD (R193). -/
  | fnmadd (c : CoreId) (rd ra rb : Reg) (p : Bool) (rm : BitVec 3)
  /-- FEQ (R193). -/
  | feq (c : CoreId) (rd ra rb : Reg) (p : Bool)
  /-- FLT (R193). -/
  | flt (c : CoreId) (rd ra rb : Reg) (p : Bool)
  /-- FLE (R193). -/
  | fle (c : CoreId) (rd ra rb : Reg) (p : Bool)
  /-- FKIND (R193). -/
  | fkind (c : CoreId) (rd ra : Reg) (p : Bool)
  /-- FTOI (R195). -/
  | ftoi (c : CoreId) (rd ra : Reg) (p : Bool) (rm : BitVec 3)
  /-- FTOU (R195). -/
  | ftou (c : CoreId) (rd ra : Reg) (p : Bool) (rm : BitVec 3)
  /-- ITOF (R193). -/
  | itof (c : CoreId) (rd ra : Reg) (p : Bool) (rm : BitVec 3)
  /-- UTOF (R193). -/
  | utof (c : CoreId) (rd ra : Reg) (p : Bool) (rm : BitVec 3)
  /-- FNARROW (R193). -/
  | fnarrow (c : CoreId) (rd ra : Reg) (rm : BitVec 3)
  /-- FWIDEN (R193). -/
  | fwiden (c : CoreId) (rd ra : Reg)
  /-- FCPYS (R193). -/
  | fcpys (c : CoreId) (rd ra rb : Reg) (p : Bool)
  /-- FCPYSN (R193). -/
  | fcpysn (c : CoreId) (rd ra rb : Reg) (p : Bool)
  /-- FCPYSX (R193). -/
  | fcpysx (c : CoreId) (rd ra rb : Reg) (p : Bool)
  /-- FRCSR (R193). -/
  | frcsr (c : CoreId) (rd : Reg)
  /-- FWCSR (R193). -/
  | fwcsr (c : CoreId) (rd ra : Reg)
  /-- FENCE (R138). -/
  | fence (c : CoreId)
  /-- FENCE_R (R138). -/
  | fenceR (c : CoreId)
  /-- FENCE_W (R138). -/
  | fenceW (c : CoreId)
  /-- CFLUSH (R192). -/
  | cflush (c : CoreId) (ra : Reg)
  /-- CCLEAN (R192). -/
  | cclean (c : CoreId) (ra : Reg)
  /-- CZERO (R192). -/
  | czero (c : CoreId) (ra : Reg)
  /-- SBAR (R279). -/
  | sbar (c : CoreId)
  /-- PFLUSH (R279). -/
  | pflush (c : CoreId)
  /-- RDCTIME (R191). -/
  | rdctime (c : CoreId) (rd : Reg)
  /-- PAUSE (R191). -/
  | pause (c : CoreId)
  /-- MFSR (R196). -/
  | mfsr (c : CoreId) (rd : Reg) (sr : BitVec 12)
  /-- MTSR (R204). -/
  | mtsr (c : CoreId) (ra : Reg) (sr : BitVec 12)
  /-- MSSET (R204). -/
  | msset (c : CoreId) (rd ra : Reg) (sr : BitVec 12)
  /-- MSCLR (R204). -/
  | msclr (c : CoreId) (rd ra : Reg) (sr : BitVec 12)
  /-- TRET (R208). -/
  | tret (c : CoreId)
  /-- WFI (R196). -/
  | wfi (c : CoreId)
  /-- SYSCALL (R207). -/
  | syscall (c : CoreId) (code : BitVec 12)
  /-- HCALL (R207). -/
  | hcall (c : CoreId) (code : BitVec 12)
  /-- PCALL (R207). -/
  | pcall (c : CoreId) (code : BitVec 12)
  /-- BREAK (R207). -/
  | breakI (c : CoreId) (code : BitVec 12)
  /-- TLBWR (R235). -/
  | tlbwr (c : CoreId) (rd ra : Reg) (sr : BitVec 12)
  /-- TLBRD (R237). -/
  | tlbrd (c : CoreId) (rd ra : Reg) (sr : BitVec 12)
  /-- TLBPRB (R237). -/
  | tlbprb (c : CoreId) (rd ra : Reg) (sr : BitVec 12)
  /-- TLBINV (R248). -/
  | tlbinv (c : CoreId) (rd ra : Reg) (sr : BitVec 12)
  /-- TLBSYNC (R251). -/
  | tlbsync (c : CoreId) (sr : BitVec 12)
  /-- S2WR (R246). -/
  | s2wr (c : CoreId) (rd ra : Reg) (sr : BitVec 12)
  /-- S2INV (R246). -/
  | s2inv (c : CoreId) (rd ra : Reg) (sr : BitVec 12)
  /-- VADD (R291). -/
  | vadd (c : CoreId) (vd va vb : VReg) (m : MReg) (w : BitVec 2) (z : Bool)
  /-- VSUB (R291). -/
  | vsub (c : CoreId) (vd va vb : VReg) (m : MReg) (w : BitVec 2) (z : Bool)
  /-- VMUL (R291). -/
  | vmul (c : CoreId) (vd va vb : VReg) (m : MReg) (w : BitVec 2) (z : Bool)
  /-- VMIN (R291). -/
  | vmin (c : CoreId) (vd va vb : VReg) (m : MReg) (w : BitVec 2) (z : Bool)
  /-- VMAX (R291). -/
  | vmax (c : CoreId) (vd va vb : VReg) (m : MReg) (w : BitVec 2) (z : Bool)
  /-- VMINU (R291). -/
  | vminu (c : CoreId) (vd va vb : VReg) (m : MReg) (w : BitVec 2) (z : Bool)
  /-- VMAXU (R291). -/
  | vmaxu (c : CoreId) (vd va vb : VReg) (m : MReg) (w : BitVec 2) (z : Bool)
  /-- VAND (R291). -/
  | vand (c : CoreId) (vd va vb : VReg) (m : MReg) (w : BitVec 2) (z : Bool)
  /-- VOR (R291). -/
  | vor (c : CoreId) (vd va vb : VReg) (m : MReg) (w : BitVec 2) (z : Bool)
  /-- VXOR (R291). -/
  | vxor (c : CoreId) (vd va vb : VReg) (m : MReg) (w : BitVec 2) (z : Bool)
  /-- VANDN (R291). -/
  | vandn (c : CoreId) (vd va vb : VReg) (m : MReg) (w : BitVec 2) (z : Bool)
  /-- VSLL (R291). -/
  | vsll (c : CoreId) (vd va vb : VReg) (m : MReg) (w : BitVec 2) (z : Bool)
  /-- VSRL (R291). -/
  | vsrl (c : CoreId) (vd va vb : VReg) (m : MReg) (w : BitVec 2) (z : Bool)
  /-- VSRA (R291). -/
  | vsra (c : CoreId) (vd va vb : VReg) (m : MReg) (w : BitVec 2) (z : Bool)
  /-- VABSDU (R291). -/
  | vabsdu (c : CoreId) (vd va vb : VReg) (m : MReg) (w : BitVec 2) (z : Bool)
  /-- VCMPEQ (R291). -/
  | vcmpeq (c : CoreId) (md : MReg) (va vb : VReg) (m : MReg) (w : BitVec 2) (z : Bool)
  /-- VCMPNE (R291). -/
  | vcmpne (c : CoreId) (md : MReg) (va vb : VReg) (m : MReg) (w : BitVec 2) (z : Bool)
  /-- VCMPLT (R291). -/
  | vcmplt (c : CoreId) (md : MReg) (va vb : VReg) (m : MReg) (w : BitVec 2) (z : Bool)
  /-- VCMPLTU (R291). -/
  | vcmpltu (c : CoreId) (md : MReg) (va vb : VReg) (m : MReg) (w : BitVec 2) (z : Bool)
  /-- VCMPLE (R291). -/
  | vcmple (c : CoreId) (md : MReg) (va vb : VReg) (m : MReg) (w : BitVec 2) (z : Bool)
  /-- VCMPLEU (R291). -/
  | vcmpleu (c : CoreId) (md : MReg) (va vb : VReg) (m : MReg) (w : BitVec 2) (z : Bool)
  /-- VSEL (R291). -/
  | vsel (c : CoreId) (vd va vb : VReg) (m : MReg) (w : BitVec 2)
  /-- VSHUF (R291). -/
  | vshuf (c : CoreId) (vd va vb : VReg) (m : MReg) (z : Bool)
  /-- VZIPL (R291). -/
  | vzipl (c : CoreId) (vd va vb : VReg) (m : MReg) (w : BitVec 2) (z : Bool)
  /-- VZIPH (R291). -/
  | vziph (c : CoreId) (vd va vb : VReg) (m : MReg) (w : BitVec 2) (z : Bool)
  /-- VUZPE (R291). -/
  | vuzpe (c : CoreId) (vd va vb : VReg) (m : MReg) (w : BitVec 2) (z : Bool)
  /-- VUZPO (R291). -/
  | vuzpo (c : CoreId) (vd va vb : VReg) (m : MReg) (w : BitVec 2) (z : Bool)
  /-- VCOMPRESS (R291). -/
  | vcompress (c : CoreId) (vd va : VReg) (m : MReg) (w : BitVec 2)
  /-- VWMUL_L (R292). -/
  | vwmulL (c : CoreId) (vd va vb : VReg) (m : MReg) (w : BitVec 2) (z : Bool)
  /-- VWMUL_H (R292). -/
  | vwmulH (c : CoreId) (vd va vb : VReg) (m : MReg) (w : BitVec 2) (z : Bool)
  /-- VWMULU_L (R292). -/
  | vwmuluL (c : CoreId) (vd va vb : VReg) (m : MReg) (w : BitVec 2) (z : Bool)
  /-- VWMULU_H (R292). -/
  | vwmuluH (c : CoreId) (vd va vb : VReg) (m : MReg) (w : BitVec 2) (z : Bool)
  /-- VWMACC_L (R292). -/
  | vwmaccL (c : CoreId) (vd va vb : VReg) (m : MReg) (w : BitVec 2) (z : Bool)
  /-- VWMACC_H (R292). -/
  | vwmaccH (c : CoreId) (vd va vb : VReg) (m : MReg) (w : BitVec 2) (z : Bool)
  /-- VWMACCU_L (R292). -/
  | vwmaccuL (c : CoreId) (vd va vb : VReg) (m : MReg) (w : BitVec 2) (z : Bool)
  /-- VWMACCU_H (R292). -/
  | vwmaccuH (c : CoreId) (vd va vb : VReg) (m : MReg) (w : BitVec 2) (z : Bool)
  /-- VDOT (R293). -/
  | vdot (c : CoreId) (vd va vb : VReg) (m : MReg) (w : BitVec 2) (z : Bool)
  /-- VDOTU (R293). -/
  | vdotu (c : CoreId) (vd va vb : VReg) (m : MReg) (w : BitVec 2) (z : Bool)
  /-- VDOTSU (R293). -/
  | vdotsu (c : CoreId) (vd va vb : VReg) (m : MReg) (w : BitVec 2) (z : Bool)
  /-- VFADD (R294). -/
  | vfadd (c : CoreId) (vd va vb : VReg) (m : MReg) (w : BitVec 2) (z : Bool)
  /-- VFSUB (R294). -/
  | vfsub (c : CoreId) (vd va vb : VReg) (m : MReg) (w : BitVec 2) (z : Bool)
  /-- VFMUL (R294). -/
  | vfmul (c : CoreId) (vd va vb : VReg) (m : MReg) (w : BitVec 2) (z : Bool)
  /-- VFMADD (R294). -/
  | vfmadd (c : CoreId) (vd va vb : VReg) (m : MReg) (w : BitVec 2) (z : Bool)
  /-- VFMIN (R294). -/
  | vfmin (c : CoreId) (vd va vb : VReg) (m : MReg) (w : BitVec 2) (z : Bool)
  /-- VFMAX (R294). -/
  | vfmax (c : CoreId) (vd va vb : VReg) (m : MReg) (w : BitVec 2) (z : Bool)
  /-- VFCMPEQ (R294). -/
  | vfcmpeq (c : CoreId) (md : MReg) (va vb : VReg) (m : MReg) (w : BitVec 2) (z : Bool)
  /-- VFCMPLT (R294). -/
  | vfcmplt (c : CoreId) (md : MReg) (va vb : VReg) (m : MReg) (w : BitVec 2) (z : Bool)
  /-- VFCMPLE (R294). -/
  | vfcmple (c : CoreId) (md : MReg) (va vb : VReg) (m : MReg) (w : BitVec 2) (z : Bool)
  /-- VITOF (R294). -/
  | vitof (c : CoreId) (vd va : VReg) (m : MReg) (w : BitVec 2) (z : Bool)
  /-- VFTOI (R294). -/
  | vftoi (c : CoreId) (vd va : VReg) (m : MReg) (w : BitVec 2) (z : Bool)
  /-- VMAND (R291). -/
  | vmand (c : CoreId) (md ma mb : MReg)
  /-- VMOR (R291). -/
  | vmor (c : CoreId) (md ma mb : MReg)
  /-- VMXOR (R291). -/
  | vmxor (c : CoreId) (md ma mb : MReg)
  /-- VMANDN (R291). -/
  | vmandn (c : CoreId) (md ma mb : MReg)
  /-- VSATADD (R296). -/
  | vsatadd (c : CoreId) (vd va vb : VReg) (m : MReg) (e32 : Bool) (z : Bool)
  /-- VFRMUL (R296). -/
  | vfrmul (c : CoreId) (vd va vb : VReg) (m : MReg) (e32 : Bool) (z : Bool)
  /-- VSATSUB (R296). -/
  | vsatsub (c : CoreId) (vd va vb : VReg) (m : MReg) (e32 : Bool) (z : Bool)
  /-- VFRMULR (R296). -/
  | vfrmulr (c : CoreId) (vd va vb : VReg) (m : MReg) (e32 : Bool) (z : Bool)
  /-- VLD (R297). -/
  | vld (c : CoreId) (vd : VReg) (ra : Reg) (m : MReg) (w : BitVec 2) (z : Bool)
  /-- VST (R297). -/
  | vst (c : CoreId) (vs : VReg) (ra : Reg) (m : MReg) (w : BitVec 2)
  /-- VLDFF (R302). -/
  | vldff (c : CoreId) (vd : VReg) (ra : Reg) (m : MReg) (w : BitVec 2) (z : Bool)
  /-- VLDS (R297). -/
  | vlds (c : CoreId) (vd : VReg) (ra rb : Reg) (m : MReg) (w : BitVec 2) (z : Bool)
  /-- VSTS (R297). -/
  | vsts (c : CoreId) (vs : VReg) (ra rb : Reg) (m : MReg) (w : BitVec 2)
  /-- VGATHER (R301). -/
  | vgather (c : CoreId) (vd : VReg) (ra : Reg) (vb : VReg) (k : BitVec 2) (m : MReg) (w : BitVec 2) (z : Bool)
  /-- VSCATTER (R298). -/
  | vscatter (c : CoreId) (vs : VReg) (ra : Reg) (vb : VReg) (k : BitVec 2) (m : MReg) (w : BitVec 2)
  /-- VGATHERFF (R302). -/
  | vgatherff (c : CoreId) (vd : VReg) (ra : Reg) (vb : VReg) (k : BitVec 2) (m : MReg) (w : BitVec 2) (z : Bool)
  /-- VBCAST (R291). -/
  | vbcast (c : CoreId) (vd : VReg) (ra : Reg) (m : MReg) (w : BitVec 2) (z : Bool)
  /-- VINS (R291). -/
  | vins (c : CoreId) (vd : VReg) (ra rb : Reg) (w : BitVec 2)
  /-- VMVGV (R291). -/
  | vmvgv (c : CoreId) (rd : Reg) (va : VReg) (rb : Reg) (w : BitVec 2)
  /-- VMMV (R291). -/
  | vmmv (c : CoreId) (md : MReg) (ra : Reg)
  /-- VMRD (R291). -/
  | vmrd (c : CoreId) (rd : Reg) (ms : MReg)
  /-- VMCNT (R303). -/
  | vmcnt (c : CoreId) (md : MReg) (ra : Reg) (w : BitVec 2)
  /-- VMPOPC (R291). -/
  | vmpopc (c : CoreId) (rd : Reg) (ms : MReg) (w : BitVec 2)
  /-- VMFFM (R291). -/
  | vmffm (c : CoreId) (md : MReg)
  /-- VRSUM (R295). -/
  | vrsum (c : CoreId) (rd : Reg) (va : VReg) (m : MReg) (w : BitVec 2)
  /-- VRMIN (R295). -/
  | vrmin (c : CoreId) (rd : Reg) (va : VReg) (m : MReg) (w : BitVec 2)
  /-- VRMAX (R295). -/
  | vrmax (c : CoreId) (rd : Reg) (va : VReg) (m : MReg) (w : BitVec 2)
  /-- VRMINU (R295). -/
  | vrminu (c : CoreId) (rd : Reg) (va : VReg) (m : MReg) (w : BitVec 2)
  /-- VRMAXU (R295). -/
  | vrmaxu (c : CoreId) (rd : Reg) (va : VReg) (m : MReg) (w : BitVec 2)
  /-- VRAND (R295). -/
  | vrand (c : CoreId) (rd : Reg) (va : VReg) (m : MReg) (w : BitVec 2)
  /-- VROR (R295). -/
  | vror (c : CoreId) (rd : Reg) (va : VReg) (m : MReg) (w : BitVec 2)
  /-- VRXOR (R295). -/
  | vrxor (c : CoreId) (rd : Reg) (va : VReg) (m : MReg) (w : BitVec 2)
  /-- REGISTER_WRITE (R6). -/
  | registerWrite (a : CsrReq)
  /-- REJECT_CLEAR (R473). -/
  | rejectClear (a : CsrReq)
  /-- SHADOW_READ (R385). -/
  | shadowRead (a : CsrReq)
  /-- RESERVED_ACCESS (R23). -/
  | reservedAccess (a : CsrReq) (write : Bool)
  /-- COLD_RESET (R28). -/
  | coldReset (powerOn : Bool)
  /-- WARM_RST_N (R29). -/
  | warmRstN
  /-- DSE_WARM (R29). -/
  | dseWarm (value : Word) (q : Requester)
  /-- WARM_RESET (R29). -/
  | warmReset (m : DseMsg)
  /-- CORE_RESET (R477). -/
  | coreReset (t : TileId) (p : Fin 2) (q : Requester)
  /-- CORE_RESTART (R30). -/
  | coreRestart (c : CoreId)
  /-- STAGE_1 (R408). -/
  | stage1 (west : Bool) (east : Bool)
  /-- STAGE_2 (R414). -/
  | stage2
  /-- STAGE_3 (R408). -/
  | stage3 (selftest : List Nat) (faults : List FaultRep)
  /-- STAGE_4 (R416). -/
  | stage4
  /-- STAGE_5 (R80). -/
  | stage5 (chans : List ChanEnv) (ports : List TrainEnv)
  /-- STAGE_6 (R35). -/
  | stage6 (caps : List Nat)
  /-- STAGE_7 (R418). -/
  | stage7
  /-- STAGE_8 (R15). -/
  | stage8
  /-- STAGE_9 (R408). -/
  | stage9 (vpp : Bool)
  /-- EPOCH_BOUNDARY (R47). -/
  | epochBoundary
  /-- SCAN_VISIT (R50). -/
  | scanVisit (h : HomeId)
  /-- REMAP_CACHE_FILL (R38). -/
  | remapCacheFill (h : HomeId) (f : FrameNo) (ok : Bool)
  /-- MIGRATION_START (R56). -/
  | migrationStart (h : HomeId)
  /-- COPY_PASS_END (R56). -/
  | copyPassEnd (f : FrameNo) (e : CopyEnv)
  /-- SWITCH_COMPLETE (R58). -/
  | switchComplete (f : FrameNo)
  /-- SWITCH_ABORT (R58). -/
  | switchAbort (f : FrameNo)
  /-- DRAIN_END (R59). -/
  | drainEnd (f : FrameNo)
  /-- SOR_CMD_TAIL (R53). -/
  | sorCmdTail (h : HomeId) (value : Word) (q : Requester)
  /-- SOR_CMD_BASE (R54). -/
  | sorCmdBase (h : HomeId) (value : Word) (q : Requester)
  /-- SOR_CMD_SIZE (R54). -/
  | sorCmdSize (h : HomeId) (value : Word) (q : Requester)
  /-- SOR_CMD_SLOT_READ (R54). -/
  | sorCmdSlotRead (h : HomeId)
  /-- MIGRATE (R55). -/
  | migrate (h : HomeId) (d : SorCmd)
  /-- PIN (R55). -/
  | pin (h : HomeId) (d : SorCmd)
  /-- UNPIN (R55). -/
  | unpin (h : HomeId) (d : SorCmd)
  /-- WEIGHT (R55). -/
  | weight (h : HomeId) (d : SorCmd)
  /-- QUERY (R55). -/
  | query (h : HomeId) (d : SorCmd)
  /-- BREACH (R69). -/
  | breach
  /-- ELR_RECORD_WRITE (R66). -/
  | elrRecordWrite (status : BitVec 8)
  /-- SOR_ELR_HEAD (R66). -/
  | sorElrHead (value : Word) (q : Requester)
  /-- SOR_ELR_BASE (R66). -/
  | sorElrBase (value : Word) (q : Requester)
  /-- SOR_ELR_SIZE (R66). -/
  | sorElrSize (value : Word) (q : Requester)
  /-- SOR_ELR_RETURN (R68). -/
  | sorElrReturn (value : Word) (q : Requester)
  /-- LAND (R70). -/
  | land (h : HomeId) (i : Nat)
  /-- REVOKE_DEADLINE (R70). -/
  | revokeDeadline
  /-- LANDED_MOVE_BACK (R71). -/
  | landedMoveBack (h : HomeId)
  /-- PORT_EVACUATION (R76). -/
  | portEvacuation (value : Word) (q : Requester)
  /-- CHANNEL_EVACUATION (R77). -/
  | channelEvacuation (value : Word) (q : Requester)
  /-- RECENTRE (R81). -/
  | recentre (ch : HomeId) (rank : Fin 4)
  /-- REFRESH (R82). -/
  | refresh (ch : HomeId) (rank : Fin 4) (burst : Bool)
  /-- DRAM_THERMAL_EVENT (R82). -/
  | dramThermalEvent (ch : HomeId) (degC : Nat)
  /-- NMC_REGION_WRITE (R84). -/
  | nmcRegionWrite (ch : HomeId) (r : Fin 16) (value : Word) (q : Requester)
  /-- CONVERSION_LINE (R85). -/
  | conversionLine (ch : HomeId) (e : DramEnv)
  /-- NEAR_READ_DONE (R86). -/
  | nearReadDone (ch : HomeId) (cf line : Nat) (e : DramEnv)
  /-- MERGE_FORCE (R92). -/
  | mergeForce (ch : HomeId) (i : Fin 32) (e : DramEnv)
  /-- SCRUB_READ (R93). -/
  | scrubRead (ch : HomeId) (e : DramEnv)
  /-- BUCKET_LEAK (R95). -/
  | bucketLeak (ch : HomeId) (b : Fin 21)
  /-- NMC_SPARE_START (R102). -/
  | nmcSpareStart (ch : HomeId) (value : Word) (q : Requester)
  /-- ROW_SPARE_DONE (R102). -/
  | rowSpareDone (ch : HomeId) (ok : Bool) (lines : List (Fin 128 × DramEnv))
  /-- RESILVER_DONE (R109). -/
  | resilverDone (ch : HomeId)
  /-- PREFETCH (R119). -/
  | prefetch (c : CoreId) (pa : BitVec 52)
  /-- L2_EVICTION (R125). -/
  | l2Eviction (c : CoreId) (line : LineNo)
  /-- SLICE_EVICTION (R125). -/
  | sliceEviction (t : TileId) (line : LineNo)
  /-- LOCK (R129). -/
  | lock (t : TileId) (value : Word) (q : Requester)
  /-- UNLOCK (R129). -/
  | unlock (t : TileId) (value : Word) (q : Requester)
  /-- UNLOCK_ALL (R129). -/
  | unlockAll (t : TileId) (value : Word) (q : Requester)
  /-- L2_DISABLE (R132). -/
  | l2Disable (t : TileId) (p : Fin 2) (value : Word) (q : Requester)
  /-- L2_WAY_DISABLE (R132). -/
  | l2WayDisable (t : TileId) (p : Fin 2) (value : Word) (q : Requester)
  /-- L3_DISABLE (R134). -/
  | l3Disable (t : TileId) (value : Word) (q : Requester)
  /-- L3_WAY_DISABLE (R132). -/
  | l3WayDisable (t : TileId) (value : Word) (q : Requester)
  /-- CACHE_DRAIN_DONE (R132). -/
  | cacheDrainDone (t : TileId) (which : Fin 3)
  /-- LL_HOLD_EXPIRE (R142). -/
  | llHoldExpire (c : CoreId)
  /-- PACKET_AT_ROUTER (R154). -/
  | packetAtRouter (r : RouterId) (p : Pkt) (e : FlitEnv)
  /-- RDS (R122). -/
  | rds (p : Pkt)
  /-- RDX (R122). -/
  | rdx (p : Pkt)
  /-- UPG (R122). -/
  | upg (p : Pkt)
  /-- RDZ (R128). -/
  | rdz (p : Pkt)
  /-- RDNC (R122). -/
  | rdnc (p : Pkt)
  /-- WRF (R122). -/
  | wrf (p : Pkt)
  /-- WRP (R122). -/
  | wrp (p : Pkt)
  /-- FATOM (R126). -/
  | fatom (p : Pkt)
  /-- FLUSH (R128). -/
  | flush (p : Pkt)
  /-- CLEAN (R128). -/
  | clean (p : Pkt)
  /-- PUTS (R125). -/
  | puts (p : Pkt)
  /-- PUTE (R125). -/
  | pute (p : Pkt)
  /-- PUTM (R125). -/
  | putm (p : Pkt)
  /-- HRD (R61). -/
  | hrd (p : Pkt)
  /-- HWRF (R62). -/
  | hwrf (p : Pkt)
  /-- HWRP (R91). -/
  | hwrp (p : Pkt)
  /-- HATOM (R126). -/
  | hatom (p : Pkt)
  /-- HPUT (R125). -/
  | hput (p : Pkt)
  /-- SERD (R139). -/
  | serd (p : Pkt) (q : Requester)
  /-- SEWR (R139). -/
  | sewr (p : Pkt) (q : Requester)
  /-- MSIWR (R220). -/
  | msiwr (p : Pkt)
  /-- PRD (R314). -/
  | prd (p : Pkt)
  /-- PWRF (R314). -/
  | pwrf (p : Pkt)
  /-- PWRP (R314). -/
  | pwrp (p : Pkt)
  /-- PATOM (R314). -/
  | patom (p : Pkt)
  /-- SNPS (R124). -/
  | snps (p : Pkt)
  /-- SNPX (R124). -/
  | snpx (p : Pkt)
  /-- INV (R124). -/
  | inv (p : Pkt)
  /-- DATA (R144). -/
  | data (p : Pkt)
  /-- GRANT (R144). -/
  | grant (p : Pkt)
  /-- CMP (R144). -/
  | cmp (p : Pkt)
  /-- WBGO (R125). -/
  | wbgo (p : Pkt)
  /-- WBSTALE (R125). -/
  | wbstale (p : Pkt)
  /-- WBACK (R125). -/
  | wback (p : Pkt)
  /-- WBDATA (R125). -/
  | wbdata (p : Pkt)
  /-- PUTCANCEL (R125). -/
  | putcancel (p : Pkt)
  /-- SNPRSP (R442). -/
  | snprsp (p : Pkt)
  /-- SNPDATA (R122). -/
  | snpdata (p : Pkt)
  /-- INVACK (R121). -/
  | invack (p : Pkt)
  /-- BACK (R162). -/
  | back (p : Pkt)
  /-- RWRITE (R164). -/
  | rwrite (p : Pkt)
  /-- RWACK (R164). -/
  | rwack (p : Pkt)
  /-- MARK (R164). -/
  | mark (p : Pkt)
  /-- MARK_ACK (R164). -/
  | markAck (p : Pkt)
  /-- ARM (R164). -/
  | arm
  /-- COMMIT (R164). -/
  | commit
  /-- RELEASE (R165). -/
  | release
  /-- COUNT_QUERY (R164). -/
  | countQuery (id : Nat)
  /-- SWEEP (R442). -/
  | sweep
  /-- L3_REDIR_REWRITE (R117). -/
  | l3RedirRewrite (i : Fin 16) (fromS toS : TileId) (valid : Bool)
  /-- HOMEMAP_REWRITE (R77). -/
  | homemapRewrite (h : HomeId) (ch : HomeId)
  /-- LCMAP_REWRITE (R221). -/
  | lcmapRewrite (n : CoreId) (phys : Fin 1088) (st : Fin 4)
  /-- TLB_INVALIDATION_BCAST (R250). -/
  | tlbInvalidationBcast (id : Nat) (a : InvAgent)
  /-- ROUTER_OUT_OF_SERVICE (R165). -/
  | routerOutOfService (r : RouterId)
  /-- MESH_FENCE (R167). -/
  | meshFence (r : RouterId) (a : Fin 8)
  /-- MESH_PROXY_SET (R167). -/
  | meshProxySet (r : RouterId) (a : Fin 8)
  /-- MESH_PROXY_CLEAR (R168). -/
  | meshProxyClear (r : RouterId) (a : Fin 8)
  /-- MESH_FENCE_CLEAR (R168). -/
  | meshFenceClear (r : RouterId) (a : Fin 8)
  /-- STORE_PERFORM (R274). -/
  | storePerform (c : CoreId) (i : Nat)
  /-- INTERRUPT_TAKEN (R219). -/
  | interruptTaken (c : CoreId)
  /-- ERR_STORE (R212). -/
  | errStore (c : CoreId) (pa : BitVec 52) (status : BitVec 8)
  /-- ERR_CORE (R436). -/
  | errCore (c : CoreId)
  /-- TIMER_CMP_WRITE (R224). -/
  | timerCmpWrite (c : CoreId) (ra : Reg)
  /-- TIMER_FIRE (R224). -/
  | timerFire (c : CoreId)
  /-- TIMER_CLAIM (R223). -/
  | timerClaim (c : CoreId) (ra : Reg)
  /-- TIMER_RELEASE (R223). -/
  | timerRelease (c : CoreId) (ra : Reg)
  /-- INT_EOI (R219). -/
  | intEoi (c : CoreId) (ra : Reg)
  /-- WALK_FILL (R239). -/
  | walkFill (c : CoreId) (ra : Reg)
  /-- INBOUND_REQUEST (R319). -/
  | inboundRequest (r : Inbound)
  /-- IO_WALK_DONE (R257). -/
  | ioWalkDone (d : IoDie) (i : Nat)
  /-- IOT_CTXINV (R255). -/
  | iotCtxinv (d : IoDie) (value : Word) (q : Requester)
  /-- STORE_WAIT_CLEAR (R276). -/
  | storeWaitClear (c : CoreId)
  /-- LOCKSTEP_MISMATCH (R282). -/
  | lockstepMismatch (c : CoreId) (pc : Word)
  /-- PORT_DIVERGENCE (R283). -/
  | portDivergence (c : CoreId) (pc : Word)
  /-- VPWR_HOLD_EXPIRE (R305). -/
  | vpwrHoldExpire (c : CoreId)
  /-- TILE_VPWR_WRITE (R305). -/
  | tileVpwrWrite (t : TileId) (p : Fin 2) (value : Word) (q : Requester)
  /-- LINK_TRAINED (R308). -/
  | linkTrained (p : PortId) (e : TrainEnv)
  /-- LINK_DOWN (R312). -/
  | linkDown (p : PortId)
  /-- CXL_RESPONSE (R314). -/
  | cxlResponse (p : PortId) (tag : BitVec 12) (e : CxlEnv)
  /-- MEM_TIMEOUT (R316). -/
  | memTimeout (p : PortId) (tag : BitVec 12)
  /-- COMPLETION_RECEIVED (R338). -/
  | completionReceived (p : PortId) (tag : Nat) (e : CplEnv)
  /-- CPL_TIMEOUT (R321). -/
  | cplTimeout (p : PortId) (tag : Nat)
  /-- RRS_EXHAUSTED (R320). -/
  | rrsExhausted (p : PortId) (tag : Nat)
  /-- CONFIG_REQUEST (R322). -/
  | configRequest (p : Pkt) (q : Requester)
  /-- PEER_WINDOW_WRITE (R332). -/
  | peerWindowWrite (p : PortId) (w : Fin 8) (value : Word) (q : Requester)
  /-- DPC_TRIGGER (R337). -/
  | dpcTrigger (p : PortId) (fatal : Bool)
  /-- DPC_CLEAR (R337). -/
  | dpcClear (p : PortId)
  /-- SLOT_POWER_ON (R334). -/
  | slotPowerOn (p : PortId)
  /-- PERST_DEASSERT (R334). -/
  | perstDeassert (p : PortId)
  /-- SLOT_POWER_OFF (R334). -/
  | slotPowerOff (p : PortId)
  /-- PRESENCE_CHANGE (R461). -/
  | presenceChange (p : PortId) (present : Bool)
  /-- HOTPLUG_FRAME (R462). -/
  | hotplugFrame (d : IoDie) (inputs : List (BitVec 3))
  /-- TRANSITION_SLOT_GRANT (R398). -/
  | transitionSlotGrant (p : PortId)
  /-- BUS_MASTER_ENABLE_CLEAR (R328). -/
  | busMasterEnableClear (d : IoDie)
  /-- BUS_MASTER_ENABLE_SET (R329). -/
  | busMasterEnableSet (d : IoDie)
  /-- INITIATE_FUNCTION_LEVEL_RESET (R328). -/
  | initiateFunctionLevelReset (d : IoDie)
  /-- D3HOT_ENTRY (R328). -/
  | d3hotEntry (d : IoDie)
  /-- D3HOT_TO_D0 (R328). -/
  | d3hotToD0 (d : IoDie)
  /-- FUNCTION_RESET_SQUASH (R330). -/
  | functionResetSquash (d : IoDie)
  /-- FUNCTION_RESET_DONE (R328). -/
  | functionResetDone (d : IoDie)
  /-- DB_SQ_TAIL (R348). -/
  | dbSqTail (d : IoDie) (n : InstId) (value : Word) (q : Requester)
  /-- DESCRIPTOR_READ (R348). -/
  | descriptorRead (d : IoDie) (n : InstId)
  /-- DESCRIPTOR_RETRY (R348). -/
  | descriptorRetry (d : IoDie) (n : InstId)
  /-- DISPATCH (R368). -/
  | dispatch (d : IoDie) (u : UnitId)
  /-- COPY (R351). -/
  | copy (d : IoDie) (u : UnitId)
  /-- FILL (R351). -/
  | fill (d : IoDie) (u : UnitId)
  /-- COMPARE (R351). -/
  | compare (d : IoDie) (u : UnitId)
  /-- COMPRESS (R353). -/
  | compress (d : IoDie) (u : UnitId)
  /-- DECOMPRESS (R353). -/
  | decompress (d : IoDie) (u : UnitId)
  /-- BLOCK_BOUNDARY (R368). -/
  | blockBoundary (d : IoDie) (u : UnitId)
  /-- JOB_END (R349). -/
  | jobEnd (d : IoDie) (u : UnitId)
  /-- DB_CQ_HEAD (R349). -/
  | dbCqHead (d : IoDie) (n : InstId) (value : Word) (q : Requester)
  /-- ROUND_START (R368). -/
  | roundStart (d : IoDie)
  /-- UNIT_IDLE (R340). -/
  | unitIdle (d : IoDie) (u : UnitId)
  /-- CREATE (R367). -/
  | create (d : IoDie) (n : InstId)
  /-- DESTROY (R369). -/
  | destroy (d : IoDie) (n : InstId)
  /-- SET_SHARE (R369). -/
  | setShare (d : IoDie) (n : InstId)
  /-- RESET_DRAIN (R369). -/
  | resetDrain (d : IoDie) (n : InstId)
  /-- RESET_SQUASH (R369). -/
  | resetSquash (d : IoDie) (n : InstId)
  /-- FREEZE (R370). -/
  | freeze (d : IoDie) (n : InstId)
  /-- UNFREEZE (R370). -/
  | unfreeze (d : IoDie) (n : InstId)
  /-- SAVE (R371). -/
  | save (d : IoDie) (n : InstId)
  /-- RESTORE (R371). -/
  | restore (d : IoDie) (n : InstId)
  /-- MBX_QUERY (R368). -/
  | mbxQuery (d : IoDie) (n : InstId)
  /-- SAMPLE_RECORD_WRITE (R377). -/
  | sampleRecordWrite (c : CoreId) (status : BitVec 8)
  /-- SAMP_TCLAIM (R379). -/
  | sampTclaim (c : CoreId) (ra : Reg)
  /-- SAMP_TRELEASE (R379). -/
  | sampTrelease (c : CoreId) (ra : Reg)
  /-- SAMP_BASE (R377). -/
  | sampBase (c : CoreId) (ra : Reg)
  /-- SAMP_HEAD (R377). -/
  | sampHead (c : CoreId) (ra : Reg)
  /-- KEY_SNAP (R386). -/
  | keySnap (value : Word) (q : Requester)
  /-- KEY_FREEZE (R386). -/
  | keyFreeze (value : Word) (q : Requester)
  /-- KEY_THAW (R386). -/
  | keyThaw (value : Word) (q : Requester)
  /-- KEY_CANCEL (R386). -/
  | keyCancel (value : Word) (q : Requester)
  /-- KEY_ARM_BCAST (R386). -/
  | keyArmBcast (b : KeyAgent)
  /-- KEYSTONE_TICK (R386). -/
  | keystoneTick
  /-- KEYSTONE_DONE (R386). -/
  | keystoneDone (timedOut : Bool)
  /-- TIME_DISTRIBUTION (R390). -/
  | timeDistribution (ticks : Nat)
  /-- TOLL_REQUEST (R393). -/
  | tollRequest (r : TollWho)
  /-- TOLL_GRANT (R393). -/
  | tollGrant (k : Fin 10)
  /-- LEASE_EXPIRE (R393). -/
  | leaseExpire (k : Fin 10) (i : Nat)
  /-- TOLL_RETURN (R393). -/
  | tollReturn (k : Fin 10) (i : Nat)
  /-- DVFS_REQUEST (R395). -/
  | dvfsRequest (t : TileId) (value : Word) (q : Requester)
  /-- DVFS_CHANGE_DONE (R389). -/
  | dvfsChangeDone (t : TileId)
  /-- POWER_ESTIMATE (R391). -/
  | powerEstimate (k : Fin 10) (est : Nat)
  /-- PMBUS_READ (R458). -/
  | pmbusRead (corr : List Nat)
  /-- EXCURSION_BUCKET_EMPTY (R396). -/
  | excursionBucketEmpty
  /-- SENSOR_SAMPLE (R399). -/
  | sensorSample (i : Fin 576) (raw : Nat)
  /-- HOT_EXIT (R400). -/
  | hotExit (k : Fin 10)
  /-- DOMAIN_DOWN (R402). -/
  | domainDown (value : Word) (q : Requester)
  /-- DOMAIN_UP (R403). -/
  | domainUp (value : Word) (q : Requester) (e : ChanEnv) (ok : Bool)
  /-- DOMAIN_DRAIN_TIMEOUT (R403). -/
  | domainDrainTimeout
  /-- HEARTBEAT (R406). -/
  | heartbeat
  /-- TAKEOVER (R406). -/
  | takeover
  /-- DSE_RELEASE (R411). -/
  | dseRelease (value : Word) (q : Requester)
  /-- NEWNONCE (R423). -/
  | newnonce (smbus : Bool)
  /-- NONCE_EXPIRE (R423). -/
  | nonceExpire (smbus : Bool)
  /-- ENROLL_KEY (R421). -/
  | enrollKey (m : DseMsg)
  /-- REVOKE_KEY (R421). -/
  | revokeKey (m : DseMsg)
  /-- FW_UPDATE (R410). -/
  | fwUpdate (m : DseMsg)
  /-- SETTINGS_UPDATE (R424). -/
  | settingsUpdate (m : DseMsg)
  /-- PORT_ADD (R336). -/
  | portAdd (m : DseMsg) (e : TrainEnv)
  /-- PORT_REMOVE (R336). -/
  | portRemove (m : DseMsg)
  /-- SPARE_CORE (R437). -/
  | spareCore (m : DseMsg)
  /-- QUOTE (R426). -/
  | quote (m : DseMsg)
  /-- READBACK (R429). -/
  | readback (m : DseMsg)
  /-- LEDGER_READ (R428). -/
  | ledgerRead (m : DseMsg)
  /-- CERT_READ (R426). -/
  | certRead (m : DseMsg)
  /-- SET_LIFECYCLE (R425). -/
  | setLifecycle (m : DseMsg)
  /-- DEBUG_UNLOCK (R424). -/
  | debugUnlock (m : DseMsg)
  /-- SMBUS_BLOCK_WRITE (R422). -/
  | smbusBlockWrite (bytes : List Byte)
  /-- SMBUS_RESPONSE_READ (R422). -/
  | smbusResponseRead
  /-- SMBUS_CONTROL (R422). -/
  | smbusControl (wr : Option (BitVec 16))
  /-- SMBUS_NONCE_READ (R422). -/
  | smbusNonceRead
  /-- SENSOR_READ (R422). -/
  | sensorRead (code : BitVec 8) (sel : Option (BitVec 16))
  /-- LEDGER_PROGRAM (R428). -/
  | ledgerProgram
  /-- SPI_TCLAIM (R413). -/
  | spiTclaim (value : Word) (q : Requester)
  /-- SPI_TRELEASE (R413). -/
  | spiTrelease (value : Word) (q : Requester)
  /-- CAT_ERR_WATCHDOG (R458). -/
  | catErrWatchdog
  /-- FAULT_REPORT (R430). -/
  | faultReport (r : FaultRep)
  /-- SELFTEST_END (R431). -/
  | selftestEnd (i : Nat) (fail : Bool) (fail1 : Bool)
  /-- CORE_SPARE (R437). -/
  | coreSpare (c : CoreId)
  /-- WAY_RETIRE (R440). -/
  | wayRetire (t : TileId) (which : Fin 3) (way : Fin 16)
  /-- SLICE_DISABLE (R134). -/
  | sliceDisable (t : TileId)
  /-- ROW_SPARE (R102). -/
  | rowSpare (ch : HomeId) (value : Word)
  /-- REGION_CONVERT (R443). -/
  | regionConvert (ch : HomeId)
  /-- ROUTE_AROUND (R441). -/
  | routeAround (r : RouterId)
  /-- LANE_DEGRADE (R310). -/
  | laneDegrade (p : PortId) (width : BitVec 4)
  /-- MIRROR_FAILOVER (R108). -/
  | mirrorFailover (port : Bool) (i : Fin 64)
  /-- FRAME_RETIRE (R444). -/
  | frameRetire (p : PortId) (ff : Nat)
  /-- UNIT_RETIRE (R446). -/
  | unitRetire (d : IoDie) (u : Nat)
  /-- HOME_FENCE (R443). -/
  | homeFence (h : HomeId)
  /-- REQUEST_TIMEOUT (R448). -/
  | requestTimeout (p : Pkt)
  /-- PWR_GOOD_FALL (R456). -/
  | pwrGoodFall
  /-- RAIL_MONITOR_TRIP (R457). -/
  | railMonitorTrip
  /-- LINK_RECOVERY (R311). -/
  | linkRecovery (p : PortId)
  /-- TWIN_FAILURE (R406). -/
  | twinFailure
  /-- UART_BLOCK (R410). -/
  | uartBlock (bytes : List Byte)
  /-- JTAG_INSTRUCTION (R466). -/
  | jtagInstruction (ir : Nat)
  /-- LOSS_OF_POWER (R457). -/
  | lossOfPower
  /-- ILLEGAL_INSTR (R174). -/
  | illegalInstr (c : CoreId) (word : BitVec 32)
  /-- FETCH_FAULT (R180). -/
  | fetchFault (c : CoreId) (e : FetchEnv)
  deriving DecidableEq, Repr

end Sys2Proof
end

