-- ==== Sys2Proof/WellFormed.lean ====
section
/-! DEFINITION. Well-formed commands: an instruction word that R174 and R291 let decode, and operands inside the fields
that carry them. -/

namespace Sys2Proof

/-- A mesh agent that exists: a router of the 36 by 16 grid and an agent number of 3 bits (Table 5.2). -/
def Agt.wf (a : Agt) : Bool := decide (a.router < 576) && decide (a.agent < 8)

/-- A requester of a register access: a privilege level, and the coordinates of a mesh agent (Table 18.2). -/
def Requester.wf (q : Requester) : Bool := decide (q.pl < 4) && decide (q.router < 576) && decide (q.agent < 8)

/-- A register access: a size a request can have, at an address of 52 bits (R24). -/
def CsrReq.wf (a : CsrReq) : Bool :=
  [1, 2, 4, 8, 16, 32, 64].contains a.size && decide (a.pa < 2 ^ 52) && a.req.wf

/-- The fields of a packet fit Table 5.2. -/
def Pkt.fits (p : Pkt) : Bool :=
  p.src.wf && p.dst.wf && decide (p.txid < 4096) && decide (p.addr < 2 ^ 52) && decide (p.status < 256) &&
    decide (p.grant < 4) && decide (p.detail < 256) && decide (p.mask < 2 ^ 64)

/-- A packet of a row: its opcode is the row's, and its fields fit. -/
def Pkt.wf (p : Pkt) (op : Op) : Bool := decide (p.op = op) && p.fits

/-- A MARK of one of the five classes that have one (R164). -/
def Pkt.wfMark (p : Pkt) : Bool := (match p.op with | .Mark _ => true | _ => false) && p.fits

/-- A packet of CONFIG_REQUEST: a side-effect read or write (R322). -/
def Pkt.wfCfg (p : Pkt) : Bool := (decide (p.op = .SeRd) || decide (p.op = .SeWr)) && p.fits

/-- A channel's training: a density code, up to four ranks, those that pass among them (R78, R80). -/
def ChanEnv.wf (e : ChanEnv) : Bool := decide (e.density < 2) && decide (e.ranks ≤ 4) && e.pass.all (fun r => decide (r < e.ranks))

/-- A link's training: a speed code of 1 to 6 and a width of 1 to 8 lanes that are good when it succeeds (R308). -/
def TrainEnv.wf (e : TrainEnv) : Bool :=
  !e.ok || (decide (1 ≤ e.speed) && decide (e.speed ≤ 6) && [1, 2, 4, 8].contains e.width && decide (e.lanes ≠ 0))

/-- A device's request: 1 to 4096 bytes, as many write bytes as it is long (R319). -/
def Inbound.wf (r : Inbound) : Bool :=
  decide (1 ≤ r.len) && decide (r.len ≤ 4096) &&
    (match r.kind with
    | .read => r.bytes.isEmpty
    | .write => decide (r.bytes.length = r.len)
    | .atomic _ _ _ wide => decide (r.len = (if wide then 16 else 8)) || (!wide && decide (r.len = 4)))

/-- A fault report: a severity of Table 16.1. -/
def FaultRep.wf (r : FaultRep) : Bool := decide (r.sev < 4) && decide (r.unit < 256)

/-- Bits of a W field that an encoding admits. -/
def wideW (w : BitVec 2) : Bool := decide (w ≠ 3)
def dotW (w : BitVec 2) : Bool := decide (w.toNat < 2)
def fpW (w : BitVec 2) : Bool := decide (2 ≤ w.toNat)
/-- A mask destination: m0 is none (R288). -/
def maskDst (m : MReg) : Bool := decide (m ≠ 0)
/-- A rounding-mode field: 6 and 7 are illegal (Table 6.14). -/
def rmField (rm : BitVec 3) : Bool := decide (rm.toNat < 6)
/-- The size of a load-linked, store-conditional or far atomic: a word or a doubleword (Table 6.12). -/
def atomSize (sz : BitVec 2) : Bool := decide (2 ≤ sz.toNat)

/-- The fields of TLBINV: SCOPE and BCAST, and the registers that a scope does not use (Table 8.5, R248). -/
def tlbinvFields (rd ra : Reg) (sr : BitVec 12) : Bool :=
  decide (sr.toNat < 8) && (decide (sr.toNat % 4 = 0 ∨ sr.toNat % 4 = 2) || decide (ra = 0)) &&
    (decide (sr.toNat % 4 < 2) || decide (rd = 0))

/-- The well-formed commands, row by row. -/
def Instr.wf : Instr → Bool
  | .registerWrite a => a.wf
  | .rejectClear a => a.wf
  | .shadowRead a => a.wf
  | .reservedAccess a _ => a.wf
  | .coldReset _ => true
  | .warmRstN => true
  | .dseWarm _ q => q.wf
  | .warmReset _ => true
  | .coreReset _ _ q => q.wf
  | .coreRestart _ => true
  | .stage1 _ _ => true
  | .stage2 => true
  | .stage3 _ faults => faults.all FaultRep.wf
  | .stage4 => true
  | .stage5 chans ports => decide (chans.length = 12) && chans.all ChanEnv.wf && decide (ports.length = 64) && ports.all TrainEnv.wf
  | .stage6 caps => decide (caps.length ≤ 64)
  | .stage7 => true
  | .stage8 => true
  | .stage9 _ => true
  | .epochBoundary => true
  | .scanVisit _ => true
  | .remapCacheFill _ _ _ => true
  | .migrationStart _ => true
  | .copyPassEnd _ e => e.bad.all (fun n => decide (n < 32768))
  | .switchComplete _ => true
  | .switchAbort _ => true
  | .drainEnd _ => true
  | .sorCmdTail _ _ q => q.wf
  | .sorCmdBase _ _ q => q.wf
  | .sorCmdSize _ _ q => q.wf
  | .sorCmdSlotRead _ => true
  | .migrate _ _ => true
  | .pin _ _ => true
  | .unpin _ _ => true
  | .weight _ _ => true
  | .query _ _ => true
  | .breach => true
  | .elrRecordWrite _ => true
  | .sorElrHead _ q => q.wf
  | .sorElrBase _ q => q.wf
  | .sorElrSize _ q => q.wf
  | .sorElrReturn _ q => q.wf
  | .land _ _ => true
  | .revokeDeadline => true
  | .landedMoveBack _ => true
  | .portEvacuation _ q => q.wf
  | .channelEvacuation _ q => q.wf
  | .recentre _ _ => true
  | .refresh _ _ _ => true
  | .dramThermalEvent _ _ => true
  | .nmcRegionWrite _ _ _ q => q.wf
  | .conversionLine _ _ => true
  | .nearReadDone _ _ line _ => decide (line < 32768)
  | .mergeForce _ _ _ => true
  | .scrubRead _ _ => true
  | .bucketLeak _ _ => true
  | .nmcSpareStart _ _ q => q.wf
  | .rowSpareDone _ _ lines => decide ((lines.map (fun x => x.1)).Nodup)
  | .resilverDone _ => true
  | .prefetch _ _ => true
  | .l2Eviction _ _ => true
  | .sliceEviction _ _ => true
  | .lock _ _ q => q.wf
  | .unlock _ _ q => q.wf
  | .unlockAll _ _ q => q.wf
  | .l2Disable _ _ _ q => q.wf
  | .l2WayDisable _ _ _ q => q.wf
  | .l3Disable _ _ q => q.wf
  | .l3WayDisable _ _ q => q.wf
  | .cacheDrainDone _ _ => true
  | .llHoldExpire _ => true
  | .packetAtRouter _ p _ => p.fits
  | .rds p => p.wf .RdS
  | .rdx p => p.wf .RdX
  | .upg p => p.wf .Upg
  | .rdz p => p.wf .RdZ
  | .rdnc p => p.wf .RdNC
  | .wrf p => p.wf .WrF
  | .wrp p => p.wf .WrP
  | .fatom p => p.wf .FAtom
  | .flush p => p.wf .Flush
  | .clean p => p.wf .Clean
  | .puts p => p.wf .PutS
  | .pute p => p.wf .PutE
  | .putm p => p.wf .PutM
  | .hrd p => p.wf .HRd
  | .hwrf p => p.wf .HWrF
  | .hwrp p => p.wf .HWrP
  | .hatom p => p.wf .HAtom
  | .hput p => p.wf .HPut
  | .serd p q => p.wf .SeRd && q.wf
  | .sewr p q => p.wf .SeWr && q.wf
  | .msiwr p => p.wf .MsiWr
  | .prd p => p.wf .PRd
  | .pwrf p => p.wf .PWrF
  | .pwrp p => p.wf .PWrP
  | .patom p => p.wf .PAtom
  | .snps p => p.wf .SnpS
  | .snpx p => p.wf .SnpX
  | .inv p => p.wf .Inv
  | .data p => p.wf .Data
  | .grant p => p.wf .Grant
  | .cmp p => p.wf .Cmp
  | .wbgo p => p.wf .WbGo
  | .wbstale p => p.wf .WbStale
  | .wback p => p.wf .WbAck
  | .wbdata p => p.wf .WbData
  | .putcancel p => p.wf .PutCancel
  | .snprsp p => p.wf .SnpRsp
  | .snpdata p => p.wf .SnpData
  | .invack p => p.wf .InvAck
  | .back p => p.wf .BACK
  | .rwrite p => p.wf .RWRITE
  | .rwack p => p.wf .RWACK
  | .mark p => p.wfMark
  | .markAck p => p.wf .MARK_ACK
  | .arm => true
  | .commit => true
  | .release => true
  | .countQuery _ => true
  | .sweep => true
  | .l3RedirRewrite _ _ _ _ => true
  | .homemapRewrite _ _ => true
  | .lcmapRewrite _ _ _ => true
  | .tlbInvalidationBcast _ _ => true
  | .routerOutOfService _ => true
  | .meshFence _ _ => true
  | .meshProxySet _ _ => true
  | .meshProxyClear _ _ => true
  | .meshFenceClear _ _ => true
  | .addi _ _ _ _ => true
  | .andi _ _ _ _ => true
  | .ori _ _ _ _ => true
  | .xori _ _ _ _ => true
  | .slti _ _ _ _ => true
  | .sltiu _ _ _ _ => true
  | .slli _ _ _ _ => true
  | .srli _ _ _ _ => true
  | .srai _ _ _ _ => true
  | .rori _ _ _ _ => true
  | .slliw _ _ _ amt => decide (amt.toNat < 32)
  | .srliw _ _ _ amt => decide (amt.toNat < 32)
  | .sraiw _ _ _ amt => decide (amt.toNat < 32)
  | .li _ _ _ => true
  | .lsi _ _ _ => true
  | .pcoff _ _ _ => true
  | .add _ _ _ _ => true
  | .sub _ _ _ _ => true
  | .addw _ _ _ _ => true
  | .subw _ _ _ _ => true
  | .and _ _ _ _ => true
  | .or _ _ _ _ => true
  | .xor _ _ _ _ => true
  | .andn _ _ _ _ => true
  | .orn _ _ _ _ => true
  | .xnor _ _ _ _ => true
  | .sll _ _ _ _ => true
  | .srl _ _ _ _ => true
  | .sra _ _ _ _ => true
  | .ror _ _ _ _ => true
  | .sllw _ _ _ _ => true
  | .srlw _ _ _ _ => true
  | .sraw _ _ _ _ => true
  | .slt _ _ _ _ => true
  | .sltu _ _ _ _ => true
  | .min _ _ _ _ => true
  | .max _ _ _ _ => true
  | .minu _ _ _ _ => true
  | .maxu _ _ _ _ => true
  | .selz _ _ _ _ => true
  | .selnz _ _ _ _ => true
  | .clz _ _ _ => true
  | .ctz _ _ _ => true
  | .popc _ _ _ => true
  | .bswap _ _ _ => true
  | .sextb _ _ _ => true
  | .sexth _ _ _ => true
  | .sextw _ _ _ => true
  | .zextw _ _ _ => true
  | .mul _ _ _ _ => true
  | .mulh _ _ _ _ => true
  | .mulhu _ _ _ _ => true
  | .mulhsu _ _ _ _ => true
  | .mulw _ _ _ _ => true
  | .div _ _ _ _ => true
  | .divu _ _ _ _ => true
  | .rem _ _ _ _ => true
  | .remu _ _ _ _ => true
  | .divw _ _ _ _ => true
  | .divuw _ _ _ _ => true
  | .remw _ _ _ _ => true
  | .remuw _ _ _ _ => true
  | .beq _ _ _ _ => true
  | .bne _ _ _ _ => true
  | .blt _ _ _ _ => true
  | .bge _ _ _ _ => true
  | .bltu _ _ _ _ => true
  | .bgeu _ _ _ _ => true
  | .j _ _ => true
  | .jal _ _ => true
  | .jalr _ _ _ _ => true
  | .lb _ _ _ _ => true
  | .lbu _ _ _ _ => true
  | .lh _ _ _ _ => true
  | .lhu _ _ _ _ => true
  | .lw _ _ _ _ => true
  | .lwu _ _ _ _ => true
  | .ld _ _ _ _ => true
  | .sb _ _ _ _ => true
  | .sh _ _ _ _ => true
  | .sw _ _ _ _ => true
  | .sd _ _ _ _ => true
  | .storePerform _ _ => true
  | .ldaq _ _ _ _ => true
  | .strl _ _ _ _ => true
  | .ll _ _ _ sz _ => atomSize sz
  | .sc _ _ _ _ sz _ => atomSize sz
  | .aadd _ _ _ _ sz _ _ => atomSize sz
  | .aswap _ _ _ _ sz _ _ => atomSize sz
  | .acas _ _ _ _ sz _ _ => atomSize sz
  | .amin _ _ _ _ sz _ _ => atomSize sz
  | .amax _ _ _ _ sz _ _ => atomSize sz
  | .aminu _ _ _ _ sz _ _ => atomSize sz
  | .amaxu _ _ _ _ sz _ _ => atomSize sz
  | .fadd _ _ _ _ _ rm => rmField rm
  | .fsub _ _ _ _ _ rm => rmField rm
  | .fmul _ _ _ _ _ rm => rmField rm
  | .fdiv _ _ _ _ _ rm => rmField rm
  | .fsqrt _ _ _ _ rm => rmField rm
  | .fmin _ _ _ _ _ => true
  | .fmax _ _ _ _ _ => true
  | .fmadd _ _ _ _ _ rm => rmField rm
  | .fmsub _ _ _ _ _ rm => rmField rm
  | .fnmadd _ _ _ _ _ rm => rmField rm
  | .feq _ _ _ _ _ => true
  | .flt _ _ _ _ _ => true
  | .fle _ _ _ _ _ => true
  | .fkind _ _ _ _ => true
  | .ftoi _ _ _ _ rm => rmField rm
  | .ftou _ _ _ _ rm => rmField rm
  | .itof _ _ _ _ rm => rmField rm
  | .utof _ _ _ _ rm => rmField rm
  | .fnarrow _ _ _ rm => rmField rm
  | .fwiden _ _ _ => true
  | .fcpys _ _ _ _ _ => true
  | .fcpysn _ _ _ _ _ => true
  | .fcpysx _ _ _ _ _ => true
  | .frcsr _ _ => true
  | .fwcsr _ _ _ => true
  | .fence _ => true
  | .fenceR _ => true
  | .fenceW _ => true
  | .cflush _ _ => true
  | .cclean _ _ => true
  | .czero _ _ => true
  | .sbar _ => true
  | .pflush _ => true
  | .rdctime _ _ => true
  | .pause _ => true
  | .mfsr _ _ _ => true
  | .mtsr _ _ _ => true
  | .msset _ _ _ _ => true
  | .msclr _ _ _ _ => true
  | .tret _ => true
  | .wfi _ => true
  | .syscall _ _ => true
  | .hcall _ _ => true
  | .pcall _ _ => true
  | .breakI _ _ => true
  | .tlbwr _ _ _ sr => decide (sr.toNat < 2)
  | .tlbrd _ _ _ sr => decide (sr.toNat < 2)
  | .tlbprb _ _ _ sr => decide (sr.toNat < 2)
  | .tlbinv _ rd ra sr => tlbinvFields rd ra sr
  | .tlbsync _ sr => decide (sr.toNat < 2)
  | .s2wr _ _ _ sr => decide (sr = 0)
  | .s2inv _ _ _ sr => decide (sr.toNat < 8) && decide (sr.toNat % 4 ≠ 3)
  | .interruptTaken _ => true
  | .errStore _ _ _ => true
  | .errCore _ => true
  | .timerCmpWrite _ _ => true
  | .timerFire _ => true
  | .timerClaim _ _ => true
  | .timerRelease _ _ => true
  | .intEoi _ _ => true
  | .walkFill _ _ => true
  | .inboundRequest r => r.wf
  | .ioWalkDone _ _ => true
  | .iotCtxinv _ _ q => q.wf
  | .storeWaitClear _ => true
  | .lockstepMismatch _ _ => true
  | .portDivergence _ _ => true
  | .vadd _ _ _ _ _ _ _ => true
  | .vsub _ _ _ _ _ _ _ => true
  | .vmul _ _ _ _ _ _ _ => true
  | .vmin _ _ _ _ _ _ _ => true
  | .vmax _ _ _ _ _ _ _ => true
  | .vminu _ _ _ _ _ _ _ => true
  | .vmaxu _ _ _ _ _ _ _ => true
  | .vand _ _ _ _ _ _ _ => true
  | .vor _ _ _ _ _ _ _ => true
  | .vxor _ _ _ _ _ _ _ => true
  | .vandn _ _ _ _ _ _ _ => true
  | .vsll _ _ _ _ _ _ _ => true
  | .vsrl _ _ _ _ _ _ _ => true
  | .vsra _ _ _ _ _ _ _ => true
  | .vabsdu _ _ _ _ _ _ _ => true
  | .vcmpeq _ md _ _ _ _ _ => maskDst md
  | .vcmpne _ md _ _ _ _ _ => maskDst md
  | .vcmplt _ md _ _ _ _ _ => maskDst md
  | .vcmpltu _ md _ _ _ _ _ => maskDst md
  | .vcmple _ md _ _ _ _ _ => maskDst md
  | .vcmpleu _ md _ _ _ _ _ => maskDst md
  | .vsel _ _ _ _ _ _ => true
  | .vshuf _ _ _ _ _ _ => true
  | .vzipl _ _ _ _ _ _ _ => true
  | .vziph _ _ _ _ _ _ _ => true
  | .vuzpe _ _ _ _ _ _ _ => true
  | .vuzpo _ _ _ _ _ _ _ => true
  | .vcompress _ _ _ _ _ => true
  | .vwmulL _ _ _ _ _ w _ => wideW w
  | .vwmulH _ _ _ _ _ w _ => wideW w
  | .vwmuluL _ _ _ _ _ w _ => wideW w
  | .vwmuluH _ _ _ _ _ w _ => wideW w
  | .vwmaccL _ _ _ _ _ w _ => wideW w
  | .vwmaccH _ _ _ _ _ w _ => wideW w
  | .vwmaccuL _ _ _ _ _ w _ => wideW w
  | .vwmaccuH _ _ _ _ _ w _ => wideW w
  | .vdot _ _ _ _ _ w _ => dotW w
  | .vdotu _ _ _ _ _ w _ => dotW w
  | .vdotsu _ _ _ _ _ w _ => dotW w
  | .vfadd _ _ _ _ _ w _ => fpW w
  | .vfsub _ _ _ _ _ w _ => fpW w
  | .vfmul _ _ _ _ _ w _ => fpW w
  | .vfmadd _ _ _ _ _ w _ => fpW w
  | .vfmin _ _ _ _ _ w _ => fpW w
  | .vfmax _ _ _ _ _ w _ => fpW w
  | .vfcmpeq _ md _ _ _ w _ => maskDst md && fpW w
  | .vfcmplt _ md _ _ _ w _ => maskDst md && fpW w
  | .vfcmple _ md _ _ _ w _ => maskDst md && fpW w
  | .vitof _ _ _ _ w _ => fpW w
  | .vftoi _ _ _ _ w _ => fpW w
  | .vmand _ md _ _ => maskDst md
  | .vmor _ md _ _ => maskDst md
  | .vmxor _ md _ _ => maskDst md
  | .vmandn _ md _ _ => maskDst md
  | .vsatadd _ _ _ _ _ _ _ => true
  | .vfrmul _ _ _ _ _ _ _ => true
  | .vsatsub _ _ _ _ _ _ _ => true
  | .vfrmulr _ _ _ _ _ _ _ => true
  | .vld _ _ _ _ _ _ => true
  | .vst _ _ _ _ _ => true
  | .vldff _ _ _ _ _ _ => true
  | .vlds _ _ _ _ _ _ _ => true
  | .vsts _ _ _ _ _ _ => true
  | .vgather _ _ _ _ _ _ _ _ => true
  | .vscatter _ _ _ _ _ _ _ => true
  | .vgatherff _ _ _ _ _ _ _ _ => true
  | .vbcast _ _ _ _ _ _ => true
  | .vins _ _ _ _ _ => true
  | .vmvgv _ _ _ _ _ => true
  | .vmmv _ md _ => maskDst md
  | .vmrd _ _ _ => true
  | .vmcnt _ md _ _ => maskDst md
  | .vmpopc _ _ _ _ => true
  | .vmffm _ md => maskDst md
  | .vrsum _ _ _ _ _ => true
  | .vrmin _ _ _ _ _ => true
  | .vrmax _ _ _ _ _ => true
  | .vrminu _ _ _ _ _ => true
  | .vrmaxu _ _ _ _ _ => true
  | .vrand _ _ _ _ _ => true
  | .vror _ _ _ _ _ => true
  | .vrxor _ _ _ _ _ => true
  | .vpwrHoldExpire _ => true
  | .tileVpwrWrite _ _ _ q => q.wf
  | .linkTrained _ e => e.wf
  | .linkDown _ => true
  | .cxlResponse _ _ _ => true
  | .memTimeout _ _ => true
  | .completionReceived _ _ _ => true
  | .cplTimeout _ _ => true
  | .rrsExhausted _ _ => true
  | .configRequest p q => p.wfCfg && q.wf
  | .peerWindowWrite _ _ _ q => q.wf
  | .dpcTrigger _ _ => true
  | .dpcClear _ => true
  | .slotPowerOn _ => true
  | .perstDeassert _ => true
  | .slotPowerOff _ => true
  | .presenceChange _ _ => true
  | .hotplugFrame _ inputs => decide (inputs.length = 32)
  | .transitionSlotGrant _ => true
  | .busMasterEnableClear _ => true
  | .busMasterEnableSet _ => true
  | .initiateFunctionLevelReset _ => true
  | .d3hotEntry _ => true
  | .d3hotToD0 _ => true
  | .functionResetSquash _ => true
  | .functionResetDone _ => true
  | .dbSqTail _ _ _ q => q.wf
  | .descriptorRead _ _ => true
  | .descriptorRetry _ _ => true
  | .dispatch _ _ => true
  | .copy _ _ => true
  | .fill _ _ => true
  | .compare _ _ => true
  | .compress _ _ => true
  | .decompress _ _ => true
  | .blockBoundary _ _ => true
  | .jobEnd _ _ => true
  | .dbCqHead _ _ _ q => q.wf
  | .roundStart _ => true
  | .unitIdle _ _ => true
  | .create _ _ => true
  | .destroy _ _ => true
  | .setShare _ _ => true
  | .resetDrain _ _ => true
  | .resetSquash _ _ => true
  | .freeze _ _ => true
  | .unfreeze _ _ => true
  | .save _ _ => true
  | .restore _ _ => true
  | .mbxQuery _ _ => true
  | .sampleRecordWrite _ _ => true
  | .sampTclaim _ _ => true
  | .sampTrelease _ _ => true
  | .sampBase _ _ => true
  | .sampHead _ _ => true
  | .keySnap _ q => q.wf
  | .keyFreeze _ q => q.wf
  | .keyThaw _ q => q.wf
  | .keyCancel _ q => q.wf
  | .keyArmBcast _ => true
  | .keystoneTick => true
  | .keystoneDone _ => true
  | .timeDistribution _ => true
  | .tollRequest _ => true
  | .tollGrant _ => true
  | .leaseExpire _ _ => true
  | .tollReturn _ _ => true
  | .dvfsRequest _ _ q => q.wf
  | .dvfsChangeDone _ => true
  | .powerEstimate _ _ => true
  | .pmbusRead _ => true
  | .excursionBucketEmpty => true
  | .sensorSample _ _ => true
  | .hotExit _ => true
  | .domainDown _ q => q.wf
  | .domainUp _ q e _ => q.wf && e.wf
  | .domainDrainTimeout => true
  | .heartbeat => true
  | .takeover => true
  | .dseRelease _ q => q.wf
  | .newnonce _ => true
  | .nonceExpire _ => true
  | .enrollKey _ => true
  | .revokeKey _ => true
  | .fwUpdate _ => true
  | .settingsUpdate _ => true
  | .portAdd _ e => e.wf
  | .portRemove _ => true
  | .spareCore _ => true
  | .quote _ => true
  | .readback _ => true
  | .ledgerRead _ => true
  | .certRead _ => true
  | .setLifecycle _ => true
  | .debugUnlock _ => true
  | .smbusBlockWrite bytes => decide (1 ≤ bytes.length) && decide (bytes.length ≤ 32)
  | .smbusResponseRead => true
  | .smbusControl _ => true
  | .smbusNonceRead => true
  | .sensorRead _ _ => true
  | .ledgerProgram => true
  | .spiTclaim _ q => q.wf
  | .spiTrelease _ q => q.wf
  | .catErrWatchdog => true
  | .faultReport r => r.wf
  | .selftestEnd _ _ _ => true
  | .coreSpare _ => true
  | .wayRetire _ _ _ => true
  | .sliceDisable _ => true
  | .rowSpare _ _ => true
  | .regionConvert _ => true
  | .routeAround _ => true
  | .laneDegrade _ _ => true
  | .mirrorFailover _ _ => true
  | .frameRetire _ _ => true
  | .unitRetire _ _ => true
  | .homeFence _ => true
  | .requestTimeout p => p.fits
  | .pwrGoodFall => true
  | .railMonitorTrip => true
  | .linkRecovery _ => true
  | .twinFailure => true
  | .uartBlock _ => true
  | .jtagInstruction ir => decide (ir < 4)
  | .lossOfPower => true
  | .illegalInstr _ _ => true
  | .fetchFault _ _ => true

end Sys2Proof
end

