-- ==== Sys2Proof/Decode.lean ====
section
/-! DEFINITION. The instruction that a 32-bit word stands for (R172, R174, R191, R196, R290, R291), by the encoding tables of
06_panath_base_isa.md and 10_vector_unit.md; and the command that a word spells. The table of operations and events gives no row
bits of its own: the rows of instructions take chapter 6's. -/

namespace Sys2Proof

/-! ## Fields (Tables 6.2 and 10.2) -/

/-- Bits hi:lo of a word. -/
def wField (w : BitVec 32) (hi lo : Nat) : Nat := w.toNat / 2 ^ lo % 2 ^ (hi + 1 - lo)
/-- The general register in the five bits from lo. -/
def wReg (w : BitVec 32) (lo : Nat) : Reg := ⟨w.toNat / 2 ^ lo % 32, Nat.mod_lt _ (by decide)⟩
/-- The mask register in the three bits from lo. -/
def wMask (w : BitVec 32) (lo : Nat) : MReg := ⟨w.toNat / 2 ^ lo % 8, Nat.mod_lt _ (by decide)⟩
/-- The n bits from lo as a bit vector. -/
def wBits (w : BitVec 32) (n lo : Nat) : BitVec n := BitVec.ofNat n (w.toNat / 2 ^ lo)
/-- A command if a condition on the word's fields holds. -/
def legal (ok : Bool) (i : Instr) : Option Instr := if ok then some i else none

/-! ## Formats -/

/-- Major 0x00: Table 6.6. Unary rows need rb = 0. -/
def decodeAlu (c : CoreId) (w : BitVec 32) : Option Instr :=
  let rd := wReg w 22
  let ra := wReg w 17
  let rb := wReg w 12
  let un := decide (wField w 16 12 = 0)
  match wField w 11 0 with
  | 0x001 => some (.add c rd ra rb)
  | 0x002 => some (.sub c rd ra rb)
  | 0x003 => some (.addw c rd ra rb)
  | 0x004 => some (.subw c rd ra rb)
  | 0x010 => some (.and c rd ra rb)
  | 0x011 => some (.or c rd ra rb)
  | 0x012 => some (.xor c rd ra rb)
  | 0x013 => some (.andn c rd ra rb)
  | 0x014 => some (.orn c rd ra rb)
  | 0x015 => some (.xnor c rd ra rb)
  | 0x020 => some (.sll c rd ra rb)
  | 0x021 => some (.srl c rd ra rb)
  | 0x022 => some (.sra c rd ra rb)
  | 0x023 => some (.ror c rd ra rb)
  | 0x024 => some (.sllw c rd ra rb)
  | 0x025 => some (.srlw c rd ra rb)
  | 0x026 => some (.sraw c rd ra rb)
  | 0x030 => some (.slt c rd ra rb)
  | 0x031 => some (.sltu c rd ra rb)
  | 0x032 => some (.min c rd ra rb)
  | 0x033 => some (.max c rd ra rb)
  | 0x034 => some (.minu c rd ra rb)
  | 0x035 => some (.maxu c rd ra rb)
  | 0x036 => some (.selz c rd ra rb)
  | 0x037 => some (.selnz c rd ra rb)
  | 0x040 => legal un (.clz c rd ra)
  | 0x041 => legal un (.ctz c rd ra)
  | 0x042 => legal un (.popc c rd ra)
  | 0x043 => legal un (.bswap c rd ra)
  | 0x044 => legal un (.sextb c rd ra)
  | 0x045 => legal un (.sexth c rd ra)
  | 0x046 => legal un (.sextw c rd ra)
  | 0x047 => legal un (.zextw c rd ra)
  | 0x050 => some (.mul c rd ra rb)
  | 0x051 => some (.mulh c rd ra rb)
  | 0x052 => some (.mulhu c rd ra rb)
  | 0x053 => some (.mulhsu c rd ra rb)
  | 0x054 => some (.mulw c rd ra rb)
  | 0x058 => some (.div c rd ra rb)
  | 0x059 => some (.divu c rd ra rb)
  | 0x05A => some (.rem c rd ra rb)
  | 0x05B => some (.remu c rd ra rb)
  | 0x05C => some (.divw c rd ra rb)
  | 0x05D => some (.divuw c rd ra rb)
  | 0x05E => some (.remw c rd ra rb)
  | 0x05F => some (.remuw c rd ra rb)
  | _ => none

/-- Major 0x07: the immediate shifts (Table 6.5). -/
def decodeShi (c : CoreId) (w : BitVec 32) : Option Instr :=
  let rd := wReg w 22
  let ra := wReg w 17
  let sh := wBits w 6 0
  if wField w 16 9 ≠ 0 then none
  else match wField w 8 6 with
  | 0 => some (.slli c rd ra sh)
  | 1 => some (.srli c rd ra sh)
  | 2 => some (.srai c rd ra sh)
  | 3 => some (.rori c rd ra sh)
  | 4 => some (.slliw c rd ra sh)
  | 5 => some (.srliw c rd ra sh)
  | 6 => some (.sraiw c rd ra sh)
  | _ => none

/-- Major 0x16: compare and branch (Table 6.7). -/
def decodeBr (c : CoreId) (w : BitVec 32) : Option Instr :=
  let ra := wReg w 22
  let rb := wReg w 17
  let off := wBits w 12 0
  match wField w 16 12 with
  | 0 => some (.beq c ra rb off)
  | 1 => some (.bne c ra rb off)
  | 2 => some (.blt c ra rb off)
  | 3 => some (.bge c ra rb off)
  | 4 => some (.bltu c ra rb off)
  | 5 => some (.bgeu c ra rb off)
  | _ => none

/-- Major 0x1A: Tables 6.11 and 6.12. -/
def decodeAtom (c : CoreId) (w : BitVec 32) : Option Instr :=
  let rd := wReg w 22
  let ra := wReg w 17
  let rb := wReg w 12
  let sz := wBits w 2 0
  let aq := w.getLsbD 2
  let rl := w.getLsbD 3
  if wField w 11 8 ≠ 0 then none
  else match wField w 7 4 with
  | 0x0 => legal (aq && !rl && decide (wField w 16 12 = 0)) (.ldaq c rd ra sz)
  | 0x1 => legal (!aq && rl && decide (wField w 26 22 = 0)) (.strl c ra rb sz)
  | 0x2 => legal (!rl && decide (wField w 16 12 = 0)) (.ll c rd ra sz aq)
  | 0x3 => legal (!aq) (.sc c rd ra rb sz rl)
  | 0x4 => some (.aadd c rd ra rb sz aq rl)
  | 0x5 => some (.aswap c rd ra rb sz aq rl)
  | 0x6 => some (.acas c rd ra rb sz aq rl)
  | 0x7 => some (.amin c rd ra rb sz aq rl)
  | 0x8 => some (.amax c rd ra rb sz aq rl)
  | 0x9 => some (.aminu c rd ra rb sz aq rl)
  | 0xA => some (.amaxu c rd ra rb sz aq rl)
  | _ => none

/-- Major 0x1B: Tables 6.14 and 6.15. RM is 0 for an operation that does not round. -/
def decodeFp (c : CoreId) (w : BitVec 32) : Option Instr :=
  let rd := wReg w 22
  let ra := wReg w 17
  let rb := wReg w 12
  let p := w.getLsbD 8
  let rm := wBits w 3 9
  let exact := decide (wField w 11 9 = 0)
  let un := decide (wField w 16 12 = 0)
  match wField w 7 0 with
  | 0x00 => some (.fadd c rd ra rb p rm)
  | 0x01 => some (.fsub c rd ra rb p rm)
  | 0x02 => some (.fmul c rd ra rb p rm)
  | 0x03 => some (.fdiv c rd ra rb p rm)
  | 0x04 => legal un (.fsqrt c rd ra p rm)
  | 0x05 => legal exact (.fmin c rd ra rb p)
  | 0x06 => legal exact (.fmax c rd ra rb p)
  | 0x07 => some (.fmadd c rd ra rb p rm)
  | 0x08 => some (.fmsub c rd ra rb p rm)
  | 0x09 => some (.fnmadd c rd ra rb p rm)
  | 0x10 => legal exact (.feq c rd ra rb p)
  | 0x11 => legal exact (.flt c rd ra rb p)
  | 0x12 => legal exact (.fle c rd ra rb p)
  | 0x13 => legal (exact && un) (.fkind c rd ra p)
  | 0x20 => legal un (.ftoi c rd ra p rm)
  | 0x21 => legal un (.ftou c rd ra p rm)
  | 0x22 => legal un (.itof c rd ra p rm)
  | 0x23 => legal un (.utof c rd ra p rm)
  | 0x24 => legal (un && !p) (.fnarrow c rd ra rm)
  | 0x25 => legal (un && !p && exact) (.fwiden c rd ra)
  | 0x30 => legal exact (.fcpys c rd ra rb p)
  | 0x31 => legal exact (.fcpysn c rd ra rb p)
  | 0x32 => legal exact (.fcpysx c rd ra rb p)
  | 0x3E => legal (exact && un && !p && decide (wField w 21 17 = 0)) (.frcsr c rd)
  | 0x3F => legal (exact && un && !p) (.fwcsr c rd ra)
  | _ => none

/-- Major 0x1C: Table 6.13. Every register field that a row does not name is 0 (R191). -/
def decodeMisc (c : CoreId) (w : BitVec 32) : Option Instr :=
  let noD := decide (wField w 26 22 = 0)
  let noA := decide (wField w 21 17 = 0)
  let noB := decide (wField w 16 12 = 0)
  let none3 := noD && noA && noB
  match wField w 11 0 with
  | 0x001 => legal none3 (.fence c)
  | 0x002 => legal none3 (.fenceR c)
  | 0x003 => legal none3 (.fenceW c)
  | 0x010 => legal (noD && noB) (.cflush c (wReg w 17))
  | 0x011 => legal (noD && noB) (.cclean c (wReg w 17))
  | 0x012 => legal (noD && noB) (.czero c (wReg w 17))
  | 0x020 => legal none3 (.sbar c)
  | 0x021 => legal none3 (.pflush c)
  | 0x030 => legal (noA && noB) (.rdctime c (wReg w 22))
  | 0x031 => legal none3 (.pause c)
  | _ => none

/-- Major 0x1E: Table 6.16. Every field that a row does not name is 0 (R196). -/
def decodeSys (c : CoreId) (w : BitVec 32) : Option Instr :=
  let rd := wReg w 22
  let ra := wReg w 17
  let sr := wBits w 12 0
  let noD := decide (wField w 26 22 = 0)
  let noA := decide (wField w 21 17 = 0)
  let noS := decide (wField w 11 0 = 0)
  match wField w 16 12 with
  | 0x00 => legal noA (.mfsr c rd sr)
  | 0x01 => legal noD (.mtsr c ra sr)
  | 0x02 => some (.msset c rd ra sr)
  | 0x03 => some (.msclr c rd ra sr)
  | 0x04 => legal (noD && noA && noS) (.tret c)
  | 0x05 => legal (noD && noA && noS) (.wfi c)
  | 0x06 => legal (noD && noA) (.syscall c sr)
  | 0x07 => legal (noD && noA) (.hcall c sr)
  | 0x08 => legal (noD && noA) (.pcall c sr)
  | 0x09 => legal (noD && noA) (.breakI c sr)
  | 0x0A => some (.tlbwr c rd ra sr)
  | 0x0B => some (.tlbrd c rd ra sr)
  | 0x0C => some (.tlbprb c rd ra sr)
  | 0x0D => some (.tlbinv c rd ra sr)
  | 0x0E => legal (noD && noA) (.tlbsync c sr)
  | 0x0F => some (.s2wr c rd ra sr)
  | 0x10 => some (.s2inv c rd ra sr)
  | _ => none

/-- Major 0x1D: Table 10.3. Operations 0x20 to 0x27 with W = 3 are the service-mode forms (R296). -/
def decodeVec (c : CoreId) (w : BitVec 32) : Option Instr :=
  let vd := wReg w 22
  let va := wReg w 17
  let vb := wReg w 12
  let m := wMask w 9
  let e := wBits w 2 7
  let z := w.getLsbD 6
  let md := wMask w 22
  let isM := decide (wField w 26 22 < 8)
  let noB := decide (wField w 16 12 = 0)
  let masks := isM && decide (wField w 21 17 < 8) && decide (wField w 16 12 < 8) && decide (wField w 11 6 = 0)
  if wField w 8 7 = 3 ∧ 0x20 ≤ wField w 5 0 ∧ wField w 5 0 ≤ 0x27 then
    match wField w 2 1 with
    | 0 => some (.vsatadd c vd va vb m (w.getLsbD 0) z)
    | 1 => some (.vfrmul c vd va vb m (w.getLsbD 0) z)
    | 2 => some (.vsatsub c vd va vb m (w.getLsbD 0) z)
    | _ => some (.vfrmulr c vd va vb m (w.getLsbD 0) z)
  else match wField w 5 0 with
  | 0x00 => some (.vadd c vd va vb m e z)
  | 0x01 => some (.vsub c vd va vb m e z)
  | 0x02 => some (.vmul c vd va vb m e z)
  | 0x04 => some (.vmin c vd va vb m e z)
  | 0x05 => some (.vmax c vd va vb m e z)
  | 0x06 => some (.vminu c vd va vb m e z)
  | 0x07 => some (.vmaxu c vd va vb m e z)
  | 0x08 => some (.vand c vd va vb m e z)
  | 0x09 => some (.vor c vd va vb m e z)
  | 0x0A => some (.vxor c vd va vb m e z)
  | 0x0B => some (.vandn c vd va vb m e z)
  | 0x0C => some (.vsll c vd va vb m e z)
  | 0x0D => some (.vsrl c vd va vb m e z)
  | 0x0E => some (.vsra c vd va vb m e z)
  | 0x0F => some (.vabsdu c vd va vb m e z)
  | 0x10 => legal isM (.vcmpeq c md va vb m e z)
  | 0x11 => legal isM (.vcmpne c md va vb m e z)
  | 0x12 => legal isM (.vcmplt c md va vb m e z)
  | 0x13 => legal isM (.vcmpltu c md va vb m e z)
  | 0x14 => legal isM (.vcmple c md va vb m e z)
  | 0x15 => legal isM (.vcmpleu c md va vb m e z)
  | 0x16 => legal (!z) (.vsel c vd va vb m e)
  | 0x18 => legal (decide (wField w 8 7 = 0)) (.vshuf c vd va vb m z)
  | 0x19 => some (.vzipl c vd va vb m e z)
  | 0x1A => some (.vziph c vd va vb m e z)
  | 0x1B => some (.vuzpe c vd va vb m e z)
  | 0x1C => some (.vuzpo c vd va vb m e z)
  | 0x1D => legal (!z && noB) (.vcompress c vd va m e)
  | 0x20 => some (.vwmulL c vd va vb m e z)
  | 0x21 => some (.vwmulH c vd va vb m e z)
  | 0x22 => some (.vwmuluL c vd va vb m e z)
  | 0x23 => some (.vwmuluH c vd va vb m e z)
  | 0x24 => some (.vwmaccL c vd va vb m e z)
  | 0x25 => some (.vwmaccH c vd va vb m e z)
  | 0x26 => some (.vwmaccuL c vd va vb m e z)
  | 0x27 => some (.vwmaccuH c vd va vb m e z)
  | 0x28 => some (.vdot c vd va vb m e z)
  | 0x29 => some (.vdotu c vd va vb m e z)
  | 0x2A => some (.vdotsu c vd va vb m e z)
  | 0x30 => some (.vfadd c vd va vb m e z)
  | 0x31 => some (.vfsub c vd va vb m e z)
  | 0x32 => some (.vfmul c vd va vb m e z)
  | 0x33 => some (.vfmadd c vd va vb m e z)
  | 0x34 => some (.vfmin c vd va vb m e z)
  | 0x35 => some (.vfmax c vd va vb m e z)
  | 0x36 => legal isM (.vfcmpeq c md va vb m e z)
  | 0x37 => legal isM (.vfcmplt c md va vb m e z)
  | 0x38 => legal isM (.vfcmple c md va vb m e z)
  | 0x39 => legal noB (.vitof c vd va m e z)
  | 0x3A => legal noB (.vftoi c vd va m e z)
  | 0x3C => legal masks (.vmand c md (wMask w 17) (wMask w 12))
  | 0x3D => legal masks (.vmor c md (wMask w 17) (wMask w 12))
  | 0x3E => legal masks (.vmxor c md (wMask w 17) (wMask w 12))
  | 0x3F => legal masks (.vmandn c md (wMask w 17) (wMask w 12))
  | _ => none

/-- Major 0x1F: Table 10.4. -/
def decodeVmem (c : CoreId) (w : BitVec 32) : Option Instr :=
  let d := wReg w 22
  let a := wReg w 17
  let b := wReg w 12
  let m := wMask w 9
  let e := wBits w 2 7
  let z := w.getLsbD 6
  let k := wBits w 2 0
  let noA := decide (wField w 21 17 = 0)
  let noB := decide (wField w 16 12 = 0)
  let noM := decide (wField w 11 9 = 0) && !z
  let noW := decide (wField w 8 7 = 0)
  let isMd := decide (wField w 26 22 < 8)
  let isMs := decide (wField w 21 17 < 8)
  match wField w 5 0 with
  | 0x00 => legal noB (.vld c d a m e z)
  | 0x01 => legal (noB && !z) (.vst c d a m e)
  | 0x02 => legal noB (.vldff c d a m e z)
  | 0x04 => some (.vlds c d a b m e z)
  | 0x05 => legal (!z) (.vsts c d a b m e)
  | 0x08 => some (.vgather c d a b k m e z)
  | 0x09 => some (.vgather c d a b k m e z)
  | 0x0A => some (.vgather c d a b k m e z)
  | 0x0B => some (.vgather c d a b k m e z)
  | 0x0C => legal (!z) (.vscatter c d a b k m e)
  | 0x0D => legal (!z) (.vscatter c d a b k m e)
  | 0x0E => legal (!z) (.vscatter c d a b k m e)
  | 0x0F => legal (!z) (.vscatter c d a b k m e)
  | 0x10 => some (.vgatherff c d a b k m e z)
  | 0x11 => some (.vgatherff c d a b k m e z)
  | 0x12 => some (.vgatherff c d a b k m e z)
  | 0x13 => some (.vgatherff c d a b k m e z)
  | 0x18 => legal noB (.vbcast c d a m e z)
  | 0x19 => legal noM (.vins c d a b e)
  | 0x1A => legal noM (.vmvgv c d a b e)
  | 0x1C => legal (noB && noM && noW && isMd) (.vmmv c (wMask w 22) a)
  | 0x1D => legal (noB && noM && noW && isMs) (.vmrd c d (wMask w 17))
  | 0x1E => legal (noB && noM && isMd) (.vmcnt c (wMask w 22) a e)
  | 0x1F => legal (noB && noM && isMs) (.vmpopc c d (wMask w 17) e)
  | 0x20 => legal (noA && noB && noM && noW && isMd) (.vmffm c (wMask w 22))
  | 0x28 => legal (noB && !z) (.vrsum c d a m e)
  | 0x29 => legal (noB && !z) (.vrmin c d a m e)
  | 0x2A => legal (noB && !z) (.vrmax c d a m e)
  | 0x2B => legal (noB && !z) (.vrminu c d a m e)
  | 0x2C => legal (noB && !z) (.vrmaxu c d a m e)
  | 0x2D => legal (noB && !z) (.vrand c d a m e)
  | 0x2E => legal (noB && !z) (.vror c d a m e)
  | 0x2F => legal (noB && !z) (.vrxor c d a m e)
  | _ => none

/-- The row of Table 6.3 that a word's major opcode picks, and the instruction by that row's format. -/
def decodeMajor (c : CoreId) (w : BitVec 32) : Option Instr :=
  let rd := wReg w 22
  let ra := wReg w 17
  let imm := wBits w 17 0
  let long := wBits w 22 0
  match wField w 31 27 with
  | 0x00 => decodeAlu c w
  | 0x01 => some (.addi c rd ra imm)
  | 0x02 => some (.andi c rd ra imm)
  | 0x03 => some (.ori c rd ra imm)
  | 0x04 => some (.xori c rd ra imm)
  | 0x05 => some (.slti c rd ra imm)
  | 0x06 => some (.sltiu c rd ra imm)
  | 0x07 => decodeShi c w
  | 0x08 => some (.li c rd long)
  | 0x09 => some (.lsi c rd long)
  | 0x0A => some (.pcoff c rd long)
  | 0x0B => some (.lb c rd ra imm)
  | 0x0C => some (.lbu c rd ra imm)
  | 0x0D => some (.lh c rd ra imm)
  | 0x0E => some (.lhu c rd ra imm)
  | 0x0F => some (.lw c rd ra imm)
  | 0x10 => some (.lwu c rd ra imm)
  | 0x11 => some (.ld c rd ra imm)
  | 0x12 => some (.sb c rd ra imm)
  | 0x13 => some (.sh c rd ra imm)
  | 0x14 => some (.sw c rd ra imm)
  | 0x15 => some (.sd c rd ra imm)
  | 0x16 => decodeBr c w
  | 0x17 => some (.j c (wBits w 27 0))
  | 0x18 => some (.jal c (wBits w 27 0))
  | 0x19 => some (.jalr c rd ra imm)
  | 0x1A => decodeAtom c w
  | 0x1B => decodeFp c w
  | 0x1C => decodeMisc c w
  | 0x1D => decodeVec c w
  | 0x1E => decodeSys c w
  | _ => decodeVmem c w

/-- The instruction that a word stands for at a core: none for the words that raise ILLEGAL_INSTR at every level and in every mode
(R174, R291). What a mode or a register's contents makes illegal (R194, R296), the instruction's meaning tests. -/
def decodeWord (c : CoreId) (w : BitVec 32) : Option Instr := (decodeMajor c w).filter Instr.wf

/-- The command that the low nbits bits of w spell: a 32-bit word is an instruction of logical core 0, the core that start-up
releases (R172; DESIGN CHOICE, log entry 4). No other row of the table has bits. -/
def decodeTableWord (nbits w : Nat) : Option Instr := if nbits = 32 then decodeWord 0 (BitVec.ofNat 32 w) else none

end Sys2Proof
end

