-- ==== Sys2Proof/Machine/Sparse.lean ====
section
/-! DEFINITION. Sparse tables as plain data: lists of (key, value) pairs in one canonical form, keys strictly rising
and no entry equal to the default of its key. Memory, registers, tag arrays and tables are held this way. -/

namespace Sys2Proof.Machine

/-- A sparse table: keys strictly rising, no entry equal to what an unlisted key reads as. -/
abbrev Map (α : Type) := List (Nat × α)

/-- The value of key k, or d where the table lists none. -/
def Map.get {α : Type} (d : α) : Map α → Nat → α
  | [], _ => d
  | (k', v) :: m, k => if k = k' then v else Map.get d m k

/-- The table without key k. -/
def Map.del {α : Type} : Map α → Nat → Map α
  | [], _ => []
  | (k', v) :: m, k => if k = k' then Map.del m k else (k', v) :: Map.del m k

/-- The table with key k listed as v, in its place. -/
def Map.put {α : Type} : Map α → Nat → α → Map α
  | [], k, v => [(k, v)]
  | (k', v') :: m, k, v =>
    if k = k' then (k, v) :: m
    else if k < k' then (k, v) :: (k', v') :: m
    else (k', v') :: Map.put m k v

/-- The table in which key k reads as v; d is what key k reads as when unlisted. -/
def Map.set {α : Type} [DecidableEq α] (d : α) (m : Map α) (k : Nat) (v : α) : Map α :=
  if v = d then Map.del m k else Map.put m k v

/-- Every key of the table is above b, and the keys rise strictly. -/
def Map.above {α : Type} : Nat → Map α → Bool
  | _, [] => true
  | b, (k, _) :: m => decide (b < k) && Map.above k m

/-- The keys of the table rise strictly. -/
def Map.rising {α : Type} : Map α → Bool
  | [] => true
  | (k, _) :: m => Map.above k m

/-- The canonical form: keys rise strictly and no entry equals the default of its key. -/
def Map.wf {α : Type} [DecidableEq α] (d : Nat → α) (m : Map α) : Bool :=
  Map.rising m && m.all (fun e => decide (e.2 ≠ d e.1))

/-- The first listed key and value that satisfy a test. -/
def Map.first? {α : Type} (m : Map α) (p : Nat → α → Bool) : Option (Nat × α) :=
  m.find? (fun e => p e.1 e.2)

/-- The table with only the entries that satisfy a test. -/
def Map.keep {α : Type} (m : Map α) (p : Nat → α → Bool) : Map α :=
  m.filter (fun e => p e.1 e.2)

/-- The list without its first element equal to x. -/
def takeOut {α : Type} [DecidableEq α] (x : α) : List α → List α
  | [] => []
  | y :: l => if y = x then l else y :: takeOut x l

/-- The first of the n numbers from i that satisfies a test. -/
def findFrom (p : Nat → Bool) (i : Nat) : Nat → Option Nat
  | 0 => none
  | n + 1 => if p i then some i else findFrom p (i + 1) n

/-- A list with x put before the first element that it precedes. -/
def insBy {α : Type} (le : α → α → Bool) (x : α) : List α → List α
  | [] => [x]
  | y :: l => if le x y then x :: y :: l else y :: insBy le x l
/-- A list in the order of `le`. -/
def sortBy {α : Type} (le : α → α → Bool) (l : List α) : List α := l.foldr (insBy le) []

/-- The list with element i replaced. -/
def setAt {α : Type} : List α → Nat → α → List α
  | [], _, _ => []
  | _ :: l, 0, x => x :: l
  | y :: l, i + 1, x => y :: setAt l i x

end Sys2Proof.Machine
end

