-- ==== Sys2Proof/Machine/SrTable.lean ====
section
/-! DEFINITION. The core system registers (Table 18.10, Tables 7.3, 8.2, 13.1, 10.1): level, banking, reset value. -/

namespace Sys2Proof.Machine
open Sys2Proof

/-- Reset value of a core system register, guest copies at 0x800 + sr (Table 18.10). -/
def srReset (n : Nat) : Word :=
  match n with
  | 0x000 => 0x3
  | 0x035 => 0x1
  | 0x060 => 0x5123
  | 0x112 => 0xFFFFFFFF
  | 0x130 => 0xFFFFFFFFFFFFFFFF
  | 0x200 => 0x4
  | 0xA00 => 0x4
  | 0x330 => 0x6
  | 0x333 => 0x2000F42400
  | 0x400 => 0xFFFF
  | 0xC00 => 0xFFFF
  | _ => 0

/-- Which registers an sr names (Table 18.10). -/
def srLevel (n : Nat) : Option Nat :=
  if n = 0x000 ∨ n = 0x001 then some 1
  else if n = 0x002 then some 0
  else if 0x010 ≤ n ∧ n ≤ 0x016 then some 1
  else if 0x020 ≤ n ∧ n ≤ 0x026 then some 2
  else if 0x030 ≤ n ∧ n ≤ 0x036 then some 3
  else if 0x040 ≤ n ∧ n ≤ 0x042 then some 1
  else if 0x048 ≤ n ∧ n ≤ 0x04F then some 1
  else if n = 0x050 then some 3
  else if 0x051 ≤ n ∧ n ≤ 0x053 then some 2
  else if n = 0x060 then some 2
  else if n = 0x070 ∨ n = 0x071 then some 1
  else if 0x100 ≤ n ∧ n ≤ 0x111 then some 1
  else if n = 0x112 ∨ n = 0x120 then some 2
  else if n = 0x130 ∨ n = 0x131 then some 1
  else if 0x200 ≤ n ∧ n ≤ 0x204 then some 1
  else if 0x208 ≤ n ∧ n ≤ 0x20A then some 1
  else if 0x210 ≤ n ∧ n ≤ 0x213 then some 2
  else if 0x300 ≤ n ∧ n ≤ 0x302 then some 1
  else if 0x308 ≤ n ∧ n ≤ 0x317 then some 1
  else if n = 0x318 then some 2
  else if 0x320 ≤ n ∧ n ≤ 0x327 then some 1
  else if 0x330 ≤ n ∧ n ≤ 0x334 then some 1
  else if n = 0x400 ∨ n = 0x401 then some 0
  else if n = 0x402 then some 1
  else none

/-- Whether a register is banked under V with a guest copy of its own (Table 7.3, Table 8.2, Table 10.1). -/
def srBanked (n : Nat) : Bool :=
  n = 0x000 || (0x010 ≤ n && n ≤ 0x016) || (0x040 ≤ n && n ≤ 0x042) || (0x048 ≤ n && n ≤ 0x04F) ||
    (0x200 ≤ n && n ≤ 0x204) || (0x208 ≤ n && n ≤ 0x20A) || (0x400 ≤ n && n ≤ 0x402)

/-- Whether a register is banked under V by the guest slot (Table 7.3, R222). -/
def srSlot (n : Nat) : Bool := 0x100 ≤ n && n ≤ 0x111

/-- Whether a register is banked under V by counter assignment (Table 13.1, R383). -/
def srPmu (n : Nat) : Bool := 0x300 ≤ n && n ≤ 0x3FF

end Sys2Proof.Machine
end

