-- ==== Sys2Proof/Config.lean ====
section
/-! DEFINITION. What the spec leaves open: free values and free choices, as constants without a body, and the
standards the spec names and does not give (compression formats, hashes, signatures), as uninterpreted functions. -/

namespace Sys2Proof

/-- A free choice: the n-th value the part draws where the spec lets it choose. -/
opaque Config.draw : Nat → Nat
/-- A free 64-bit value: data the spec leaves open (device data, random bytes). -/
opaque Config.freeWord : Nat → Word
/-- A free 512-bit line: data the spec leaves open (miscorrected data, device data). -/
opaque Config.freeLine : Nat → BitVec 512
/-- How the modules found when a near channel is powered up again train (R449): density, ranks, ranks that pass, and whether the
checkers pass, for a power-up that is asked for by a register write and so names none of it. -/
opaque Config.modules : Nat → Nat × Nat × List Nat × Bool
/-- SHA-512 of a byte list (FIPS 180-4, named by the spec). -/
opaque Config.sha512 : List Byte → List Byte
/-- Whether an Ed25519 signature verifies: public key, message, signature (RFC 8032, named by the spec). -/
opaque Config.ed25519 : List Byte → List Byte → List Byte → Bool
/-- Ed25519 signature of a message under a seed. -/
opaque Config.ed25519Sign : List Byte → List Byte → List Byte
/-- The Ed25519 public key of a seed. -/
opaque Config.ed25519Pub : List Byte → List Byte
/-- The unique device secret, which only the ROM reads (Table 15.4). -/
opaque Config.uds : List Byte
/-- What the search of a DEFLATE compressor finds (R353): level, draw, the bytes before, latest first, and the source, to the bits of
a block. -/
opaque Config.deflatePlan : Nat → Nat → List Byte → List Byte → List Bool
/-- What the search of a Zstandard compressor finds (R355): level, draw, the bytes before, latest first, and the source, to the type and
the content of a block and the source bytes that it covers. -/
opaque Config.zstdPlan : Nat → Nat → List Byte → List Byte → List Byte × Nat
/-- The low half of XXH64 of a stream (R359) whose earlier bytes only a context stands for: their count, their check value, and the bytes
that follow. -/
opaque Config.xxhMore : Nat → Nat → List Byte → Nat
/-- What the search of the Chive encoder finds for a 4 KiB block (R46): its predictors, each as width choice, offset,
stride, step and base, and the lines, as bits of a number, that it stores as LITERAL. -/
opaque Config.chivePlan : List Byte → List (List Nat) × Nat
/-- Which bits of a page number select a set of the I/O TLB (R254): page size code and page number. -/
opaque Config.iotSet : Nat → Nat → Nat

end Sys2Proof
end

