-- ==== Sys2Proof/Machine/CsrTable.lean ====
section
/-! DEFINITION. The register tables of the chip CSRs (18_register_index.md, Tables 18.5 to 18.9, and the field tables
they name): for each register its block, offset, instances and fields with type, reset value and range. -/

namespace Sys2Proof.Machine
open Sys2Proof

/-- Register access types (Table 0.3). Bits of no field are RSV. -/
inductive Ty where
  | RO | RW | RW1C | W1S | RWL
  deriving DecidableEq, Repr

/-- A register field: bits [hi:lo], access type, reset value, and the range that a write must lie in (R6). -/
structure Fld where
  hi : Nat
  lo : Nat
  ty : Ty
  rst : Nat
  mn : Nat
  mx : Nat
  deriving DecidableEq, Repr

/-- Where registers lie (Table 18.1): a tile block, the kinds of stop block, every tile and stop block (router and PMU
pairs), tiles and the stops with a tagging front end, the stops with a tag ring, and the global blocks. -/
inductive Bk where
  | tile | port | near | eng | rt | tag | ring | dse | pwr | key | ras
  deriving DecidableEq, Repr

/-- The chip CSRs, by name. -/
inductive Rid where
  | TILE_SVC
  | TILE_PIPECFG
  | TILE_LOCKSTEP
  | TILE_LSPC
  | TILE_VPWR
  | TILE_DVFS
  | TILE_CRST
  | GS_PEND
  | GS_EN
  | GS_CTL
  | TILE_L2CFG
  | L3_CFG
  | L3_STATUS
  | L3_LOCKCMD
  | L3_LOCKSTAT
  | L3_HOMEMAP
  | L3_REDIR
  | MESH_CTL
  | MESH_PROXY
  | MESH_RT
  | MESH_CHG
  | MESH_ERR
  | MESH_RCHG
  | PMU_SEL
  | PMU_PMC
  | PMU_TAG_CTL
  | PMU_TAG_BASE
  | PMU_TAG_HEAD
  | PMU_TAG_TAIL
  | PRT_MODE
  | PRT_LINK
  | PRT_TMO
  | PRT_TAGS
  | PRT_IRQ
  | PRT_ERRLOG_CTL
  | PRT_ERRLOG
  | PRT_PWIN
  | PRT_PWIN_BASE
  | PRT_PWIN_LIMIT
  | PRT_PWIN_SRAM
  | PRT_PWIN_STAT
  | PRT_MIRROR
  | NMC_CFG
  | NMC_TIMING
  | NMC_REFRESH
  | NMC_REGION
  | NMC_CONV
  | NMC_MERGE
  | NMC_SCRUB
  | NMC_BKT_CH
  | NMC_BKT_RANK
  | NMC_BKT_REG
  | NMC_BKT_IRQ
  | NMC_ERRLOG
  | NMC_ERRLOG_CTL
  | NMC_SPARE
  | NMC_MIRROR
  | NMC_SELFTEST
  | SOR_CMD_BASE
  | SOR_CMD_SIZE
  | SOR_CMD_TAIL
  | SOR_CMD_HEAD
  | IOT_CTL
  | IOT_CTXBASE
  | IOT_CTXINV
  | IOT_FLOG_CTL
  | IOT_FIRQ
  | IOT_HOMEMAP
  | IOT_FLOG
  | DEN_CAP
  | DEN_ROUND
  | DEN_STG_OWN
  | DEN_INST
  | DEN_INST1
  | DEN_MBX_CMD
  | DEN_MBX_ARG
  | DEN_MBX_STAT
  | DEN_MBX_IRQ
  | DB_SQ_TAIL
  | DB_CQ_HEAD
  | DB_FQ_HEAD
  | DB_STATUS
  | DB_FQ_TAIL
  | MSIX
  | MSIX_PBA
  | DSE_STATUS
  | DSE_WARM
  | DSE_RELEASE
  | DSE_CMD_CTL
  | DSE_NONCE
  | DSE_SPI_OWN
  | DSE_LEDGER_SEQ
  | DSE_LEDGER_HASH
  | DSE_CMD_BUF
  | DSE_RSP_BUF
  | DSE_LCMAP
  | DSE_SPAREMAP
  | PWR_PKG
  | PWR_PKG_STAT
  | PWR_COST
  | PWR_THERM
  | PWR_THERM_STAT
  | PWR_THERM_IRQ
  | PWR_DOM
  | PWR_DIE_CFG
  | PWR_DIE_STAT
  | KEY_CTL
  | KEY_TICK
  | KEY_STATUS
  | KEY_LAST
  | KEY_IRQ
  | RAS_CLASS
  | RAS_TMO
  | RAS_FLOG_CTL
  | RAS_FIRQ
  | RAS_STATUS
  | RAS_AERR_CTL
  | RAS_FLOG
  | RAS_AERR
  | SOR_POLICY
  | SOR_EPOCH
  | SOR_THRESH
  | SOR_RATE
  | SOR_RATE2
  | SOR_CAP_FAR
  | SOR_CAP_BASE
  | SOR_SAVED
  | SOR_GRANTED
  | SOR_FREE_FAR
  | SOR_RESERVE
  | SOR_CAP_STATUS
  | SOR_ELR_BASE
  | SOR_ELR_SIZE
  | SOR_ELR_HEAD
  | SOR_ELR_TAIL
  | SOR_ELR_RETURN
  | SOR_ELR_CTL
  | SOR_ELR_IRQ
  | SOR_ELR_LOST
  | SOR_EVAC
  | SOR_ELR_REVQ
  deriving DecidableEq, Repr

/-- A register's row: name, block kind, offset, instance counts with strides (outermost first), fields. -/
structure RegRow where
  id : Rid
  bk : Bk
  off : Nat
  dims : List (Nat × Nat)
  flds : List Fld
  deriving Repr

/-- A single-instance reset-and-range field, spelled short. -/
def fl (hi lo : Nat) (ty : Ty) (rst mn mx : Nat) : Fld := { hi := hi, lo := lo, ty := ty, rst := rst, mn := mn, mx := mx }

/-- Registers of block kind tile. -/
def rows_tile_0 : List RegRow :=
  [ -- R201
    { id := .TILE_SVC, bk := .tile, off := 0x10000, dims := [(2, 0x8)],
      flds := [fl 0 0 .RO 0 0 1] },
    -- Table 9.8
    { id := .TILE_PIPECFG, bk := .tile, off := 0x10040, dims := [(2, 0x8)],
      flds := [fl 0 0 .RW 0 0 1, fl 1 1 .RW 1 0 1, fl 2 2 .RW 0 0 1, fl 3 3 .RO 0 0 1] },
    -- Table 9.8
    { id := .TILE_LOCKSTEP, bk := .tile, off := 0x10080, dims := [],
      flds := [fl 15 0 .RO 0 0 65535, fl 31 16 .RO 0 0 65535, fl 33 32 .RO 0 0 3, fl 34 34 .RO 0 0 1] },
    -- Table 9.8
    { id := .TILE_LSPC, bk := .tile, off := 0x10088, dims := [],
      flds := [fl 63 0 .RO 0 0 18446744073709551615] },
    -- Table 10.5
    { id := .TILE_VPWR, bk := .tile, off := 0x100c0, dims := [(2, 0x8)],
      flds := [fl 1 0 .RO 0 0 3, fl 2 2 .RW 1 0 1, fl 9 3 .RW 16 1 64, fl 25 10 .RW 4096 256 65535] },
    -- Table 14.2
    { id := .TILE_DVFS, bk := .tile, off := 0x10100, dims := [],
      flds := [fl 2 0 .RW 0 0 7, fl 5 3 .RO 0 0 7, fl 8 6 .RO 4 0 7, fl 9 9 .RO 0 0 1, fl 10 10 .RO 0 0 1, fl 18 11 .RO 0 0 255] },
    -- R477
    { id := .TILE_CRST, bk := .tile, off := 0x10180, dims := [(2, 0x8)],
      flds := [fl 0 0 .W1S 0 0 1] },
    -- Table 7.12
    { id := .GS_PEND, bk := .tile, off := 0x20000, dims := [(2, 0x2000), (16, 0x200), (8, 0x8)],
      flds := [fl 63 0 .RW 0 0 18446744073709551615] },
    -- Table 7.12
    { id := .GS_EN, bk := .tile, off := 0x20040, dims := [(2, 0x2000), (16, 0x200), (8, 0x8)],
      flds := [fl 63 0 .RW 0 0 18446744073709551615] },
    -- Table 7.12
    { id := .GS_CTL, bk := .tile, off := 0x20080, dims := [(2, 0x2000), (16, 0x200)],
      flds := [fl 0 0 .RW 0 0 1, fl 9 1 .RW 0 0 511, fl 10 10 .RW 0 0 1, fl 11 11 .RW 0 0 1, fl 21 12 .RW 0 0 1023, fl 25 22 .RW 0 0 15, fl 29 26 .RW 0 0 15, fl 45 30 .RW 0 0 65535] },
    -- Table 4.5
    { id := .TILE_L2CFG, bk := .tile, off := 0x30000, dims := [(2, 0x8)],
      flds := [fl 15 0 .RW 0 0 65535, fl 16 16 .RW 0 0 1, fl 17 17 .RO 0 0 1, fl 18 18 .RW 1 0 1, fl 19 19 .RW 1 0 1, fl 23 20 .RW 4 1 15] },
    -- Table 4.5
    { id := .L3_CFG, bk := .tile, off := 0x40000, dims := [],
      flds := [fl 15 0 .RW 0 0 65535, fl 16 16 .RW 0 0 1] },
    -- Table 4.5
    { id := .L3_STATUS, bk := .tile, off := 0x40008, dims := [],
      flds := [fl 0 0 .RO 0 0 1, fl 1 1 .RO 0 0 1, fl 5 2 .RO 12 0 15] },
    -- Table 4.5
    { id := .L3_LOCKCMD, bk := .tile, off := 0x40010, dims := [],
      flds := [fl 1 0 .RW 0 0 2, fl 51 6 .RW 0 0 70368744177663] },
    -- Table 4.5
    { id := .L3_LOCKSTAT, bk := .tile, off := 0x40018, dims := [],
      flds := [fl 0 0 .RO 0 0 1, fl 3 1 .RO 0 0 7, fl 18 4 .RO 0 0 32767] },
    -- Table 4.5
    { id := .L3_HOMEMAP, bk := .tile, off := 0x40100, dims := [(12, 0x8)],
      flds := [fl 0 0 .RO 0 0 1, fl 4 1 .RO 0 0 15] },
    -- Table 4.5
    { id := .L3_REDIR, bk := .tile, off := 0x40200, dims := [(16, 0x8)],
      flds := [fl 9 0 .RO 0 0 1023, fl 19 10 .RO 0 0 1023, fl 20 20 .RO 0 0 1] } ]

/-- Registers of block kind rt. -/
def rows_rt_0 : List RegRow :=
  [ -- Table 5.11
    { id := .MESH_CTL, bk := .rt, off := 0x50000, dims := [],
      flds := [fl 0 0 .RO 0 0 1, fl 1 1 .RO 0 0 1, fl 2 2 .RO 0 0 1, fl 6 3 .RO 0 0 15, fl 23 8 .RO 0 0 65535, fl 35 24 .RO 0 0 4095] },
    -- Table 5.11
    { id := .MESH_PROXY, bk := .rt, off := 0x50010, dims := [(8, 0x8)],
      flds := [fl 0 0 .RW 0 0 1, fl 1 1 .RW 0 0 1, fl 2 2 .RO 0 0 1, fl 15 3 .RO 0 0 8191, fl 47 16 .RO 0 0 4294967295, fl 60 48 .RO 0 0 8191] },
    -- Table 5.11
    { id := .MESH_RT, bk := .rt, off := 0x51000, dims := [(4, 0x200), (36, 0x8)],
      flds := [fl 63 0 .RW 0 0 18446744073709551615] },
    -- Table 5.11
    { id := .MESH_CHG, bk := .rt, off := 0x51800, dims := [(9, 0x8)],
      flds := [fl 63 0 .RW 0 0 18446744073709551615] },
    -- Table 5.11
    { id := .MESH_ERR, bk := .rt, off := 0x51900, dims := [],
      flds := [fl 15 0 .RO 0 0 65535, fl 31 16 .RO 0 0 65535, fl 32 32 .RW1C 0 0 1] },
    -- Table 16.11
    { id := .MESH_RCHG, bk := .rt, off := 0x51a00, dims := [(9, 0x8)],
      flds := [fl 63 0 .RW 0 0 18446744073709551615] },
    -- Table 13.9
    { id := .PMU_SEL, bk := .rt, off := 0x70000, dims := [(8, 0x10)],
      flds := [fl 7 0 .RW 0 0 255, fl 8 8 .RW 0 0 1, fl 24 9 .RW 0 0 65535] },
    -- R382
    { id := .PMU_PMC, bk := .rt, off := 0x70008, dims := [(8, 0x10)],
      flds := [fl 63 0 .RW 0 0 18446744073709551615] } ]

/-- Registers of block kind tag. -/
def rows_tag_0 : List RegRow :=
  [ -- Table 13.8
    { id := .PMU_TAG_CTL, bk := .tag, off := 0x70100, dims := [],
      flds := [fl 0 0 .RW 0 0 1, fl 4 1 .RW 12 4 15, fl 5 5 .RW 1 0 1, fl 6 6 .RW 0 0 1, fl 7 7 .RW 1 0 1, fl 8 8 .RW 0 0 1, fl 9 9 .RW 0 0 1, fl 10 10 .RW 0 0 1] } ]

/-- Registers of block kind ring. -/
def rows_ring_0 : List RegRow :=
  [ -- R381
    { id := .PMU_TAG_BASE, bk := .ring, off := 0x70108, dims := [],
      flds := [fl 4 0 .RW 6 6 16, fl 51 12 .RW 0 0 1099511627775] },
    -- R381
    { id := .PMU_TAG_HEAD, bk := .ring, off := 0x70110, dims := [],
      flds := [fl 15 0 .RW 0 0 65535] },
    -- R381
    { id := .PMU_TAG_TAIL, bk := .ring, off := 0x70118, dims := [],
      flds := [fl 15 0 .RO 0 0 65535] } ]

/-- Registers of block kind port. -/
def rows_port_0 : List RegRow :=
  [ -- Table 11.1
    { id := .PRT_MODE, bk := .port, off := 0x10000, dims := [(4, 0x1000)],
      flds := [fl 1 0 .RO 0 0 3, fl 4 2 .RW 0 1 6, fl 6 5 .RW 0 0 3, fl 7 7 .RO 0 0 1] },
    -- Table 11.1
    { id := .PRT_LINK, bk := .port, off := 0x10008, dims := [(4, 0x1000)],
      flds := [fl 3 0 .RO 0 0 15, fl 6 4 .RO 0 0 7, fl 10 7 .RO 0 0 15, fl 18 11 .RO 0 0 255, fl 19 19 .RO 0 0 1, fl 20 20 .RO 0 0 1, fl 36 21 .RO 0 0 65535] },
    -- Table 11.1
    { id := .PRT_TMO, bk := .port, off := 0x10010, dims := [(4, 0x1000)],
      flds := [fl 13 0 .RW 2000 100 10000, fl 23 14 .RW 1000 1 1000] },
    -- Table 11.1
    { id := .PRT_TAGS, bk := .port, off := 0x10018, dims := [(4, 0x1000)],
      flds := [fl 9 0 .RO 0 0 1023, fl 19 10 .RO 0 0 1023, fl 32 20 .RO 0 0 8191, fl 45 33 .RO 0 0 8191] },
    -- Table 11.1
    { id := .PRT_IRQ, bk := .port, off := 0x10020, dims := [(4, 0x1000)],
      flds := [fl 9 0 .RW 0 0 1023, fl 18 10 .RW 0 0 511, fl 19 19 .RW 0 0 1] },
    -- R338
    { id := .PRT_ERRLOG_CTL, bk := .port, off := 0x100f8, dims := [(4, 0x1000)],
      flds := [fl 3 0 .RO 0 0 15, fl 4 4 .RW1C 0 0 1] },
    -- Table 11.12
    { id := .PRT_ERRLOG, bk := .port, off := 0x10100, dims := [(4, 0x1000), (64, 0x8)],
      flds := [fl 63 0 .RO 0 0 18446744073709551615] },
    -- Table 11.11
    { id := .PRT_PWIN, bk := .port, off := 0x20000, dims := [(4, 0x200), (8, 0x20)],
      flds := [fl 0 0 .RW 0 0 1, fl 1 1 .RW 0 0 1, fl 2 2 .RW 0 0 1, fl 8 3 .RW 0 0 63, fl 9 9 .RO 0 0 1] },
    -- Table 11.11
    { id := .PRT_PWIN_BASE, bk := .port, off := 0x20008, dims := [(4, 0x200), (8, 0x20)],
      flds := [fl 51 12 .RW 0 0 1099511627775] },
    -- Table 11.11
    { id := .PRT_PWIN_LIMIT, bk := .port, off := 0x20010, dims := [(4, 0x200), (8, 0x20)],
      flds := [fl 51 12 .RW 0 0 1099511627775] },
    -- Table 11.11
    { id := .PRT_PWIN_SRAM, bk := .port, off := 0x20018, dims := [(4, 0x200), (8, 0x20)],
      flds := [fl 24 12 .RW 0 0 8191] },
    -- Table 11.11
    { id := .PRT_PWIN_STAT, bk := .port, off := 0x20100, dims := [(4, 0x200)],
      flds := [fl 7 0 .RO 0 0 255] },
    -- Table 3.16
    { id := .PRT_MIRROR, bk := .port, off := 0x7000, dims := [(4, 0x8)],
      flds := [fl 1 0 .RO 0 0 3, fl 7 2 .RO 0 0 63, fl 35 8 .RO 0 0 268435455] } ]

/-- Registers of block kind near. -/
def rows_near_0 : List RegRow :=
  [ -- Table 3.4
    { id := .NMC_CFG, bk := .near, off := 0x0, dims := [],
      flds := [fl 2 0 .RO 0 0 7, fl 3 3 .RO 0 0 1, fl 19 4 .RO 0 0 65535, fl 23 20 .RO 0 0 15, fl 63 63 .W1S 0 0 1] },
    -- Table 3.4
    { id := .NMC_TIMING, bk := .near, off := 0x100, dims := [],
      flds := [fl 5 0 .RWL 8 6 20, fl 11 6 .RWL 8 6 20, fl 17 12 .RWL 8 6 20, fl 23 18 .RWL 20 14 50, fl 31 24 .RWL 160 60 255] },
    -- Table 3.4
    { id := .NMC_REFRESH, bk := .near, off := 0x108, dims := [],
      flds := [fl 11 0 .RWL 3900 1000 3900, fl 12 12 .RWL 1 0 1, fl 16 13 .RWL 8 0 8] },
    -- Table 3.5
    { id := .NMC_REGION, bk := .near, off := 0x1000, dims := [(16, 0x8)],
      flds := [fl 14 0 .RW 0 0 32767, fl 30 16 .RW 0 0 32767, fl 32 32 .RW 0 0 1, fl 33 33 .RW 0 0 1, fl 34 34 .RW 0 0 1] },
    -- Table 3.5
    { id := .NMC_CONV, bk := .near, off := 0x1080, dims := [],
      flds := [fl 3 0 .RO 0 0 15, fl 4 4 .RO 0 0 1, fl 19 5 .RO 0 0 32767] },
    -- Table 3.10
    { id := .NMC_MERGE, bk := .near, off := 0x2000, dims := [],
      flds := [fl 6 0 .RW 64 0 64, fl 12 7 .RO 0 0 63] },
    -- Table 3.12
    { id := .NMC_SCRUB, bk := .near, off := 0x3000, dims := [],
      flds := [fl 7 0 .RW 24 1 168, fl 8 8 .RW 1 0 1, fl 9 9 .RW 1 0 1, fl 24 10 .RO 0 0 32767, fl 63 32 .RO 0 0 4294967295] },
    -- Table 3.13
    { id := .NMC_BKT_CH, bk := .near, off := 0x4000, dims := [],
      flds := [fl 15 0 .RO 0 0 65535, fl 31 16 .RW 1024 1 65535, fl 47 32 .RW 1000 1 65535, fl 48 48 .RW1C 0 0 1, fl 56 49 .RO 0 0 255] },
    -- Table 3.13
    { id := .NMC_BKT_RANK, bk := .near, off := 0x4008, dims := [(4, 0x8)],
      flds := [fl 15 0 .RO 0 0 65535, fl 31 16 .RW 64 1 65535, fl 47 32 .RW 10000 1 65535, fl 48 48 .RW1C 0 0 1, fl 56 49 .RO 0 0 255] },
    -- Table 3.13
    { id := .NMC_BKT_REG, bk := .near, off := 0x4040, dims := [(16, 0x8)],
      flds := [fl 15 0 .RO 0 0 65535, fl 31 16 .RW 256 1 65535, fl 47 32 .RW 1000 1 65535, fl 48 48 .RW1C 0 0 1, fl 56 49 .RO 0 0 255] },
    -- Table 3.13
    { id := .NMC_BKT_IRQ, bk := .near, off := 0x40c0, dims := [],
      flds := [fl 9 0 .RW 0 0 1023, fl 18 10 .RW 0 0 511, fl 19 19 .RW 0 0 1] },
    -- Table 3.14
    { id := .NMC_ERRLOG, bk := .near, off := 0x5000, dims := [(64, 0x8)],
      flds := [fl 63 0 .RO 0 0 18446744073709551615] },
    -- R97
    { id := .NMC_ERRLOG_CTL, bk := .near, off := 0x5200, dims := [],
      flds := [fl 4 0 .RO 0 0 31, fl 5 5 .RW1C 0 0 1] },
    -- Table 3.15
    { id := .NMC_SPARE, bk := .near, off := 0x6000, dims := [],
      flds := [fl 1 0 .RW 0 0 3, fl 3 2 .RW 0 0 3, fl 5 4 .RW 0 0 3, fl 23 6 .RW 0 0 262143, fl 24 24 .W1S 0 0 1, fl 27 25 .RO 0 0 7, fl 28 28 .RO 0 0 1] },
    -- Table 3.16
    { id := .NMC_MIRROR, bk := .near, off := 0x7000, dims := [],
      flds := [fl 1 0 .RO 0 0 3, fl 7 2 .RO 0 0 63, fl 35 8 .RO 0 0 268435455] },
    -- R101
    { id := .NMC_SELFTEST, bk := .near, off := 0x8000, dims := [],
      flds := [fl 63 0 .RO 0 0 18446744073709551615] },
    -- Table 2.15
    { id := .SOR_CMD_BASE, bk := .near, off := 0x200000, dims := [],
      flds := [fl 51 12 .RW 0 0 1099511627775] },
    -- Table 2.15
    { id := .SOR_CMD_SIZE, bk := .near, off := 0x200008, dims := [],
      flds := [fl 3 0 .RW 4 4 12] },
    -- Table 2.15
    { id := .SOR_CMD_TAIL, bk := .near, off := 0x200010, dims := [],
      flds := [fl 11 0 .RW 0 0 4095] },
    -- Table 2.15
    { id := .SOR_CMD_HEAD, bk := .near, off := 0x200018, dims := [],
      flds := [fl 11 0 .RO 0 0 4095] } ]

/-- Registers of block kind eng. -/
def rows_eng_0 : List RegRow :=
  [ -- Table 8.9
    { id := .IOT_CTL, bk := .eng, off := 0x60000, dims := [],
      flds := [fl 0 0 .RWL 0 0 1, fl 63 63 .W1S 0 0 1] },
    -- Table 8.9
    { id := .IOT_CTXBASE, bk := .eng, off := 0x60100, dims := [(8, 0x8)],
      flds := [fl 0 0 .RWL 0 0 1, fl 51 21 .RWL 0 0 2147483647] },
    -- Table 8.9
    { id := .IOT_CTXINV, bk := .eng, off := 0x60200, dims := [],
      flds := [fl 15 0 .RW 0 0 65535, fl 18 16 .RW 0 0 7, fl 19 19 .RW 0 0 1, fl 20 20 .W1S 0 0 1] },
    -- Table 8.9
    { id := .IOT_FLOG_CTL, bk := .eng, off := 0x60300, dims := [],
      flds := [fl 3 0 .RO 0 0 15, fl 4 4 .RW1C 0 0 1] },
    -- Table 8.9
    { id := .IOT_FIRQ, bk := .eng, off := 0x60308, dims := [],
      flds := [fl 9 0 .RW 0 0 1023, fl 18 10 .RW 0 0 511, fl 19 19 .RW 0 0 1] },
    -- Table 8.9
    { id := .IOT_HOMEMAP, bk := .eng, off := 0x60400, dims := [(12, 0x8)],
      flds := [fl 0 0 .RO 0 0 1, fl 4 1 .RO 0 0 15] },
    -- Table 8.8
    { id := .IOT_FLOG, bk := .eng, off := 0x61000, dims := [(64, 0x8)],
      flds := [fl 63 0 .RO 0 0 18446744073709551615] },
    -- Table 12.7
    { id := .DEN_CAP, bk := .eng, off := 0x800000, dims := [],
      flds := [fl 8 0 .RO 256 0 511, fl 12 9 .RO 4 0 15, fl 16 13 .RO 8 0 15, fl 20 17 .RO 4 0 15, fl 24 21 .RO 2 0 15] },
    -- Table 12.7
    { id := .DEN_ROUND, bk := .eng, off := 0x800008, dims := [],
      flds := [fl 63 0 .RO 0 0 18446744073709551615] },
    -- Table 12.7
    { id := .DEN_STG_OWN, bk := .eng, off := 0x801000, dims := [(512, 0x8)],
      flds := [fl 9 0 .RO 0 0 1023] },
    -- Table 12.7
    { id := .DEN_INST, bk := .eng, off := 0x804000, dims := [(256, 0x10)],
      flds := [fl 63 0 .RO 274880004096 0 18446744073709551615] },
    -- Table 12.7
    { id := .DEN_INST1, bk := .eng, off := 0x804008, dims := [(256, 0x10)],
      flds := [fl 7 0 .RO 0 0 255, fl 15 8 .RO 0 0 255] },
    -- Table 12.7
    { id := .DEN_MBX_CMD, bk := .eng, off := 0x808000, dims := [],
      flds := [fl 7 0 .RW 0 0 255, fl 15 8 .RW 0 0 255, fl 16 16 .W1S 0 0 1] },
    -- Table 12.7
    { id := .DEN_MBX_ARG, bk := .eng, off := 0x808008, dims := [(8, 0x8)],
      flds := [fl 63 0 .RW 0 0 18446744073709551615] },
    -- Table 12.7
    { id := .DEN_MBX_STAT, bk := .eng, off := 0x808048, dims := [],
      flds := [fl 2 0 .RO 0 0 7] },
    -- Table 12.7
    { id := .DEN_MBX_IRQ, bk := .eng, off := 0x808050, dims := [],
      flds := [fl 10 0 .RW 0 0 2047, fl 11 11 .RW 0 0 1] },
    -- Table 12.3
    { id := .DB_SQ_TAIL, bk := .eng, off := 0xc00000, dims := [(256, 0x1000)],
      flds := [fl 15 0 .RW 0 0 65535] },
    -- Table 12.3
    { id := .DB_CQ_HEAD, bk := .eng, off := 0xc00008, dims := [(256, 0x1000)],
      flds := [fl 15 0 .RW 0 0 65535] },
    -- Table 12.3
    { id := .DB_FQ_HEAD, bk := .eng, off := 0xc00010, dims := [(256, 0x1000)],
      flds := [fl 15 0 .RW 0 0 65535] },
    -- Table 12.3
    { id := .DB_STATUS, bk := .eng, off := 0xc00018, dims := [(256, 0x1000)],
      flds := [fl 2 0 .RO 0 0 7, fl 3 3 .RO 0 0 1, fl 4 4 .RW1C 0 0 1, fl 20 5 .RO 0 0 65535, fl 21 21 .RO 1 0 1, fl 37 22 .RO 0 0 65535, fl 38 38 .RO 1 0 1, fl 46 39 .RO 0 0 255] },
    -- Table 12.3
    { id := .DB_FQ_TAIL, bk := .eng, off := 0xc00020, dims := [(256, 0x1000)],
      flds := [fl 15 0 .RO 0 0 65535] },
    -- Table 11.8
    { id := .MSIX, bk := .eng, off := 0x900000, dims := [(4096, 0x8)],
      flds := [fl 63 0 .RW 0 0 18446744073709551615] },
    -- Table 11.8
    { id := .MSIX_PBA, bk := .eng, off := 0x908000, dims := [(32, 0x8)],
      flds := [fl 63 0 .RO 0 0 18446744073709551615] } ]

/-- Registers of block kind dse. -/
def rows_dse_0 : List RegRow :=
  [ -- Table 15.11
    { id := .DSE_STATUS, bk := .dse, off := 0x0, dims := [],
      flds := [fl 3 0 .RO 0 0 15, fl 5 4 .RO 0 0 3, fl 6 6 .RO 0 0 1, fl 7 7 .RO 0 0 1, fl 9 8 .RO 0 0 3, fl 10 10 .RO 0 0 1, fl 11 11 .RO 0 0 1, fl 12 12 .RO 0 0 1, fl 13 13 .RO 0 0 1, fl 20 14 .RO 0 0 127] },
    -- Table 15.11
    { id := .DSE_WARM, bk := .dse, off := 0x8, dims := [],
      flds := [fl 0 0 .W1S 0 0 1] },
    -- Table 15.11
    { id := .DSE_RELEASE, bk := .dse, off := 0x10, dims := [],
      flds := [fl 9 0 .RW 0 0 1023, fl 10 10 .RW 0 0 1, fl 11 11 .W1S 0 0 1, fl 51 12 .RW 0 0 1099511627775, fl 53 52 .RO 0 0 3] },
    -- Table 15.11
    { id := .DSE_CMD_CTL, bk := .dse, off := 0x100, dims := [],
      flds := [fl 0 0 .W1S 0 0 1, fl 1 1 .W1S 0 0 1, fl 14 2 .RW 0 32 4096, fl 22 15 .RO 0 0 255, fl 23 23 .RW 0 0 1, fl 33 24 .RW 0 0 1023, fl 42 34 .RW 0 0 511] },
    -- Table 15.11
    { id := .DSE_NONCE, bk := .dse, off := 0x108, dims := [(2, 0x8)],
      flds := [fl 63 0 .RO 0 0 18446744073709551615] },
    -- Table 15.11
    { id := .DSE_SPI_OWN, bk := .dse, off := 0x200, dims := [],
      flds := [fl 1 0 .RO 1 0 3, fl 2 2 .W1S 0 0 1, fl 3 3 .W1S 0 0 1, fl 4 4 .RO 0 0 1] },
    -- Table 15.11
    { id := .DSE_LEDGER_SEQ, bk := .dse, off := 0x300, dims := [],
      flds := [fl 63 0 .RO 0 0 18446744073709551615] },
    -- Table 15.11
    { id := .DSE_LEDGER_HASH, bk := .dse, off := 0x308, dims := [(8, 0x8)],
      flds := [fl 63 0 .RO 0 0 18446744073709551615] },
    -- Table 15.11
    { id := .DSE_CMD_BUF, bk := .dse, off := 0x1000, dims := [(512, 0x8)],
      flds := [fl 63 0 .RW 0 0 18446744073709551615] },
    -- Table 15.11
    { id := .DSE_RSP_BUF, bk := .dse, off := 0x2000, dims := [(512, 0x8)],
      flds := [fl 63 0 .RO 0 0 18446744073709551615] },
    -- Table 1.3
    { id := .DSE_LCMAP, bk := .dse, off := 0x10000, dims := [(1024, 0x8)],
      flds := [fl 10 0 .RO 0 0 2047, fl 14 12 .RO 0 0 7] },
    -- Table 1.4
    { id := .DSE_SPAREMAP, bk := .dse, off := 0x12000, dims := [(8, 0x8)],
      flds := [fl 9 0 .RO 0 0 1023, fl 10 10 .RO 0 0 1, fl 11 11 .RO 0 0 1, fl 25 16 .RO 0 0 1023, fl 26 26 .RO 0 0 1, fl 27 27 .RO 0 0 1, fl 41 32 .RO 0 0 1023, fl 42 42 .RO 0 0 1, fl 43 43 .RO 0 0 1, fl 57 48 .RO 0 0 1023, fl 58 58 .RO 0 0 1, fl 59 59 .RO 0 0 1] } ]

/-- Registers of block kind pwr. -/
def rows_pwr_0 : List RegRow :=
  [ -- Table 14.8
    { id := .PWR_PKG, bk := .pwr, off := 0x0, dims := [],
      flds := [fl 13 0 .RW 0 0 16383, fl 14 14 .RW 0 0 1, fl 28 15 .RW 0 0 16383] },
    -- Table 14.8
    { id := .PWR_PKG_STAT, bk := .pwr, off := 0x8, dims := [],
      flds := [fl 13 0 .RO 0 0 16383, fl 14 14 .RO 0 0 1, fl 28 15 .RO 10000 0 16383] },
    -- Table 14.8
    { id := .PWR_COST, bk := .pwr, off := 0x10, dims := [],
      flds := [fl 7 0 .RO 16 0 255, fl 15 8 .RO 40 0 255, fl 23 16 .RO 24 0 255, fl 31 24 .RO 32 0 255, fl 39 32 .RO 20 0 255, fl 47 40 .RO 24 0 255] },
    -- Table 14.8
    { id := .PWR_THERM, bk := .pwr, off := 0x20, dims := [],
      flds := [fl 7 0 .RW 90 70 93, fl 15 8 .RW 93 0 95, fl 19 16 .RW 2 1 10] },
    -- Table 14.8
    { id := .PWR_THERM_STAT, bk := .pwr, off := 0x28, dims := [],
      flds := [fl 7 0 .RO 0 0 255, fl 17 8 .RO 0 0 1023, fl 27 18 .RO 0 0 1023, fl 37 28 .RO 0 0 1023, fl 49 38 .RO 0 0 4095, fl 50 50 .RW1C 0 0 1] },
    -- Table 14.8
    { id := .PWR_THERM_IRQ, bk := .pwr, off := 0x30, dims := [],
      flds := [fl 9 0 .RW 0 0 1023, fl 18 10 .RW 0 0 511, fl 19 19 .RW 0 0 1] },
    -- Table 14.8
    { id := .PWR_DOM, bk := .pwr, off := 0x40, dims := [],
      flds := [fl 2 0 .RW 0 0 4, fl 13 3 .RW 0 0 2047, fl 14 14 .RW 0 0 1, fl 15 15 .W1S 0 0 1, fl 17 16 .RO 0 0 3] },
    -- Table 14.8
    { id := .PWR_DIE_CFG, bk := .pwr, off := 0x100, dims := [(10, 0x10)],
      flds := [fl 13 0 .RW 0 0 16383, fl 23 14 .RW 0 0 1023, fl 27 24 .RW 0 1 15, fl 28 28 .W1S 0 0 1] },
    -- Table 14.8
    { id := .PWR_DIE_STAT, bk := .pwr, off := 0x108, dims := [(10, 0x10)],
      flds := [fl 13 0 .RO 0 0 16383, fl 23 14 .RO 0 0 1023, fl 31 24 .RO 0 0 255, fl 39 32 .RO 0 0 255, fl 49 40 .RO 0 0 1023, fl 50 50 .RO 0 0 1, fl 58 51 .RO 0 0 255] } ]

/-- Registers of block kind key. -/
def rows_key_0 : List RegRow :=
  [ -- Table 13.11
    { id := .KEY_CTL, bk := .key, off := 0x0, dims := [],
      flds := [fl 1 0 .RW 0 0 2, fl 2 2 .W1S 0 0 1, fl 3 3 .W1S 0 0 1, fl 35 4 .RW 0 0 4294967295] },
    -- Table 13.11
    { id := .KEY_TICK, bk := .key, off := 0x8, dims := [],
      flds := [fl 63 0 .RW 0 0 18446744073709551615] },
    -- Table 13.11
    { id := .KEY_STATUS, bk := .key, off := 0x10, dims := [],
      flds := [fl 31 0 .RO 0 0 4294967295, fl 32 32 .RO 0 0 1, fl 48 33 .RO 0 0 65535, fl 49 49 .RO 0 0 1] },
    -- Table 13.11
    { id := .KEY_LAST, bk := .key, off := 0x18, dims := [],
      flds := [fl 63 0 .RO 0 0 18446744073709551615] },
    -- Table 13.11
    { id := .KEY_IRQ, bk := .key, off := 0x20, dims := [],
      flds := [fl 9 0 .RW 0 0 1023, fl 18 10 .RW 0 0 511, fl 19 19 .RW 0 0 1] } ]

/-- Registers of block kind ras. -/
def rows_ras_0 : List RegRow :=
  [ -- Table 16.11
    { id := .RAS_CLASS, bk := .ras, off := 0x0, dims := [],
      flds := [fl 3 0 .RW 3 2 15, fl 19 4 .RW 1000 10 60000] },
    -- Table 16.11
    { id := .RAS_TMO, bk := .ras, off := 0x8, dims := [],
      flds := [fl 9 0 .RW 100 10 1000, fl 17 10 .RW 64 2 255, fl 25 18 .RW 32 1 255, fl 37 26 .RW 2000 100 4095, fl 47 38 .RW 1000 100 1023] },
    -- Table 16.11
    { id := .RAS_FLOG_CTL, bk := .ras, off := 0x10, dims := [],
      flds := [fl 5 0 .RO 0 0 63, fl 6 6 .RW1C 0 0 1] },
    -- Table 16.11
    { id := .RAS_FIRQ, bk := .ras, off := 0x18, dims := [],
      flds := [fl 9 0 .RW 0 0 1023, fl 18 10 .RW 0 0 511, fl 19 19 .RW 0 0 1, fl 20 20 .RW 0 0 1] },
    -- Table 16.11
    { id := .RAS_STATUS, bk := .ras, off := 0x20, dims := [],
      flds := [fl 0 0 .RO 0 0 1, fl 5 1 .RO 0 0 31] },
    -- Table 16.11
    { id := .RAS_AERR_CTL, bk := .ras, off := 0x28, dims := [],
      flds := [fl 3 0 .RO 0 0 15, fl 4 4 .RW1C 0 0 1] },
    -- Table 16.1
    { id := .RAS_FLOG, bk := .ras, off := 0x1000, dims := [(256, 0x8)],
      flds := [fl 63 0 .RO 0 0 18446744073709551615] },
    -- Table 16.11
    { id := .RAS_AERR, bk := .ras, off := 0x2000, dims := [(64, 0x8)],
      flds := [fl 63 0 .RO 0 0 18446744073709551615] },
    -- Table 2.8
    { id := .SOR_POLICY, bk := .ras, off := 0x100000, dims := [],
      flds := [fl 1 0 .RW 0 0 3, fl 2 2 .RW 1 0 1, fl 3 3 .RW 1 0 1] },
    -- Table 2.8
    { id := .SOR_EPOCH, bk := .ras, off := 0x100008, dims := [],
      flds := [fl 16 0 .RW 10000 1000 100000, fl 27 22 .RW 16 4 32, fl 31 28 .RW 6 0 10] },
    -- Table 2.8
    { id := .SOR_THRESH, bk := .ras, off := 0x100010, dims := [],
      flds := [fl 7 0 .RW 32 0 255, fl 15 8 .RW 8 0 255, fl 23 16 .RW 1 0 255] },
    -- Table 2.8
    { id := .SOR_RATE, bk := .ras, off := 0x100018, dims := [],
      flds := [fl 7 0 .RW 32 1 255, fl 23 8 .RW 256 0 32767] },
    -- Table 2.11
    { id := .SOR_RATE2, bk := .ras, off := 0x100020, dims := [],
      flds := [fl 31 24 .RW 64 0 255] },
    -- Table 2.14
    { id := .SOR_CAP_FAR, bk := .ras, off := 0x100040, dims := [],
      flds := [fl 27 0 .RO 0 0 268435455] },
    -- Table 2.14
    { id := .SOR_CAP_BASE, bk := .ras, off := 0x100048, dims := [],
      flds := [fl 27 0 .RO 0 0 268435455] },
    -- Table 2.14
    { id := .SOR_SAVED, bk := .ras, off := 0x100050, dims := [],
      flds := [fl 47 0 .RO 0 0 281474976710655] },
    -- Table 2.14
    { id := .SOR_GRANTED, bk := .ras, off := 0x100058, dims := [],
      flds := [fl 27 0 .RO 0 0 268435455] },
    -- Table 2.14
    { id := .SOR_FREE_FAR, bk := .ras, off := 0x100060, dims := [],
      flds := [fl 27 0 .RO 0 0 268435455] },
    -- Table 2.14
    { id := .SOR_RESERVE, bk := .ras, off := 0x100068, dims := [],
      flds := [fl 27 0 .RO 0 0 268435455] },
    -- Table 2.14
    { id := .SOR_CAP_STATUS, bk := .ras, off := 0x100070, dims := [],
      flds := [fl 0 0 .RO 0 0 1, fl 1 1 .RO 0 0 1, fl 2 2 .RO 0 0 1, fl 3 3 .RW1C 0 0 1, fl 4 4 .RW1C 0 0 1, fl 5 5 .RW1C 0 0 1] },
    -- Table 2.14
    { id := .SOR_ELR_BASE, bk := .ras, off := 0x100080, dims := [],
      flds := [fl 51 12 .RW 0 0 1099511627775] },
    -- Table 2.14
    { id := .SOR_ELR_SIZE, bk := .ras, off := 0x100088, dims := [],
      flds := [fl 4 0 .RW 6 6 16] },
    -- Table 2.14
    { id := .SOR_ELR_HEAD, bk := .ras, off := 0x100090, dims := [],
      flds := [fl 15 0 .RW 0 0 65535] },
    -- Table 2.14
    { id := .SOR_ELR_TAIL, bk := .ras, off := 0x100098, dims := [],
      flds := [fl 15 0 .RO 0 0 65535, fl 16 16 .RO 1 0 1] },
    -- Table 2.14
    { id := .SOR_ELR_RETURN, bk := .ras, off := 0x1000a0, dims := [],
      flds := [fl 26 0 .RW 0 0 134217727, fl 42 27 .RW 0 0 65535] } ]

/-- Registers of block kind ras. -/
def rows_ras_1 : List RegRow :=
  [ -- Table 2.14
    { id := .SOR_ELR_CTL, bk := .ras, off := 0x1000a8, dims := [],
      flds := [fl 16 0 .RW 1000 100 100000, fl 32 17 .RW 4096 1 65535, fl 60 33 .RW 512 0 268435455] },
    -- Table 2.14
    { id := .SOR_ELR_IRQ, bk := .ras, off := 0x1000b0, dims := [],
      flds := [fl 9 0 .RW 0 0 1023, fl 18 10 .RW 0 0 511, fl 19 19 .RW 0 0 1] },
    -- Table 2.14
    { id := .SOR_ELR_LOST, bk := .ras, off := 0x1000b8, dims := [],
      flds := [fl 31 0 .RO 0 0 4294967295, fl 59 32 .RO 0 0 268435455] },
    -- R75
    { id := .SOR_EVAC, bk := .ras, off := 0x100100, dims := [],
      flds := [fl 5 0 .RW 0 0 63, fl 6 6 .RW 0 0 1, fl 7 7 .RW 0 0 1, fl 8 8 .W1S 0 0 1, fl 16 9 .RO 0 0 255, fl 17 17 .RO 0 0 1] },
    -- R66
    { id := .SOR_ELR_REVQ, bk := .ras, off := 0x101000, dims := [(256, 0x8)],
      flds := [fl 63 0 .RO 0 0 18446744073709551615] } ]

/-- Every register of block kind tile. -/
def rows_tile : List RegRow := rows_tile_0
/-- Every register of block kind rt. -/
def rows_rt : List RegRow := rows_rt_0
/-- Every register of block kind tag. -/
def rows_tag : List RegRow := rows_tag_0
/-- Every register of block kind ring. -/
def rows_ring : List RegRow := rows_ring_0
/-- Every register of block kind port. -/
def rows_port : List RegRow := rows_port_0
/-- Every register of block kind near. -/
def rows_near : List RegRow := rows_near_0
/-- Every register of block kind eng. -/
def rows_eng : List RegRow := rows_eng_0
/-- Every register of block kind dse. -/
def rows_dse : List RegRow := rows_dse_0
/-- Every register of block kind pwr. -/
def rows_pwr : List RegRow := rows_pwr_0
/-- Every register of block kind key. -/
def rows_key : List RegRow := rows_key_0
/-- Every register of block kind ras. -/
def rows_ras : List RegRow := rows_ras_0 ++ rows_ras_1

end Sys2Proof.Machine
end

