-- ==== Sys2Proof/Machine/Topology.lean ====
section
/-! DEFINITION. Dies, mesh coordinates and the physical address map (01_organization.md), and where each chip CSR lies. -/

namespace Sys2Proof.Machine
open Sys2Proof

/-! ## Numbers of the package -/

/-- Router index of a tile (R13, 05_mesh.md). -/
def routerOfTile (t : Nat) : Nat := 36 * (t / 34) + t % 34 + 1
/-- Router index of stop st of I/O die d (Table 1.5). -/
def routerOfStop (d st : Nat) : Nat := 36 * st + 35 * d
/-- Compute die of a tile (R13). -/
def dieOfTile (t : Nat) : Nat := 2 * (t / 34 / 4) + (t % 34 + 1) / 18
/-- Tile of a router of columns 1..34. -/
def tileOfRouter (r : Nat) : Nat := (r / 36) * 34 + r % 36 - 1
/-- Whether a router is a tile router. -/
def isTileRouter (r : Nat) : Bool := decide (1 ≤ r % 36 ∧ r % 36 ≤ 34)

/-- First address beyond system memory (Table 1.7). -/
def sysMemEnd : Nat := 2 ^ 48
/-- Whether a physical address is in system memory (R21). -/
def inSysMem (pa : Nat) : Bool := decide (pa < sysMemEnd)

/-- Base of a tile block (Table 18.1). -/
def tileBase (t : Nat) : Nat := 0xF000000000000 + t * 0x100000
/-- Base of the block of stop st of I/O die d (Table 18.1). -/
def stopBase (d st : Nat) : Nat := 0xF004000000000 + (16 * d + st) * 0x1000000
/-- Base of the DSE global block. -/
def dseBase : Nat := 0xF008000000000
/-- Base of the power global block. -/
def pwrBase : Nat := 0xF008001000000
/-- Base of the Keystone global block. -/
def keyBase : Nat := 0xF008002000000
/-- Base of the reliability global block. -/
def rasBase : Nat := 0xF008003000000
/-- Base of the fetch RAM window (R26). -/
def framBase : Nat := 0xF00F000000000
/-- Base of the interrupt target window (R220). -/
def intBase : Nat := 0xF00FE00000000

/-- Base of the stop block of a near channel (Table 1.5). -/
def chBase (ch : Nat) : Nat := stopBase (ch / 6) (8 + ch % 6)
/-- Base of the stop block of a port's cluster. -/
def portBase (p : Nat) : Nat := stopBase (p / 32) (p % 32 / 4)
/-- Base of the data-engine stop block of an I/O die. -/
def engBase (d : Nat) : Nat := stopBase d 14
/-- Router of a near channel's stop. -/
def routerOfCh (ch : Nat) : Nat := routerOfStop (ch / 6) (8 + ch % 6)
/-- Router of a port's stop. -/
def routerOfPort (p : Nat) : Nat := routerOfStop (p / 32) (p % 32 / 4)

/-- The regions of Table 1.7. -/
inductive Region where
  | sysMem | mmio (port : Nat) | ecam (seg off : Nat) | tile (t off : Nat) | stop (d st off : Nat)
  | dse (off : Nat) | pwr (off : Nat) | key (off : Nat) | ras (off : Nat) | fram (off : Nat) | intWin (off : Nat)
  | reserved
  deriving DecidableEq, Repr

/-- The row of Table 1.7 that an address belongs to. -/
def region (pa : Nat) : Region :=
  if pa < 0x1000000000000 then .sysMem
  else if 0x2000000000000 ≤ pa ∧ pa < 0x2400000000000 then .mmio ((pa - 0x2000000000000) / 0x10000000000)
  else if 0x8000000000000 ≤ pa ∧ pa < 0x8000110000000 then
    .ecam ((pa - 0x8000000000000) / 0x10000000) ((pa - 0x8000000000000) % 0x10000000)
  else if 0xF000000000000 ≤ pa ∧ pa < 0xF000022000000 then
    .tile ((pa - 0xF000000000000) / 0x100000) ((pa - 0xF000000000000) % 0x100000)
  else if 0xF004000000000 ≤ pa ∧ pa < 0xF004020000000 then
    .stop ((pa - 0xF004000000000) / 0x10000000) ((pa - 0xF004000000000) / 0x1000000 % 16)
      ((pa - 0xF004000000000) % 0x1000000)
  else if 0xF008000000000 ≤ pa ∧ pa < 0xF008001000000 then .dse (pa - 0xF008000000000)
  else if 0xF008001000000 ≤ pa ∧ pa < 0xF008002000000 then .pwr (pa - 0xF008001000000)
  else if 0xF008002000000 ≤ pa ∧ pa < 0xF008003000000 then .key (pa - 0xF008002000000)
  else if 0xF008003000000 ≤ pa ∧ pa < 0xF008004000000 then .ras (pa - 0xF008003000000)
  else if 0xF00F000000000 ≤ pa ∧ pa < 0xF00F000004000 then .fram (pa - 0xF00F000000000)
  else if 0xF00FE00000000 ≤ pa ∧ pa < 0xF00FF00000000 then .intWin (pa - 0xF00FE00000000)
  else .reserved

/-- The number of the block that an address lies in, for the REJECT logs: tiles 0..543, stops 544..575, then the
global blocks. -/
def blockNo (pa : Nat) : Option Nat :=
  match region pa with
  | .tile t _ => some t
  | .stop d st _ => some (544 + 16 * d + st)
  | .dse _ => some 576
  | .pwr _ => some 577
  | .key _ => some 578
  | .ras _ => some 579
  | _ => none

/-- The base address of a block by its number. -/
def blockBase (b : Nat) : Nat :=
  if b < 544 then tileBase b
  else if b < 576 then stopBase ((b - 544) / 16) ((b - 544) % 16)
  else dseBase + (b - 576) * 0x1000000

/-- Offset of a block's REJECT log (R473). -/
def rejectOff (b : Nat) : Nat := if b < 544 then 0xFF000 else 0xE00000

/-- Offset and size of a block's snapshot page (R385). -/
def snapOff (b : Nat) : Nat := if b < 544 then 0xE0000 else 0xF00000
def snapSize (b : Nat) : Nat := if b < 544 then 0x10000 else 0x100000

/-- Whether stop st of a die is of a kind of stop block. -/
def stopIs (st : Nat) : Bk → Bool
  | .port => decide (st < 8)
  | .near => decide (8 ≤ st ∧ st < 14)
  | .eng => decide (st = 14)
  | .rt => true
  | .tag => decide (st < 8 ∨ st = 14)
  | .ring => decide (st < 8 ∨ st = 14)
  | _ => false

/-- The register rows of the block with a number. -/
def rowsOf (b : Nat) : List RegRow :=
  if b < 544 then rows_tile ++ rows_rt ++ rows_tag
  else if b < 576 then
    let st := (b - 544) % 16
    (if stopIs st .near then rows_near else []) ++ (if stopIs st .port then rows_port else []) ++
      (if stopIs st .eng then rows_eng else []) ++ rows_rt ++
      (if stopIs st .tag then rows_tag ++ rows_ring else [])
  else if b = 576 then rows_dse
  else if b = 577 then rows_pwr
  else if b = 578 then rows_key
  else rows_ras

/-- The instance numbers that a distance from a register's first instance names, outermost first. -/
def matchDims : List (Nat × Nat) → Nat → Option (List Nat)
  | [], r => if r = 0 then some [] else none
  | (n, st) :: ds, r =>
    if r / st < n then (matchDims ds (r % st)).map (fun l => r / st :: l) else none

/-- The register at an offset of a block, with its instance numbers. -/
def regIn : List RegRow → Nat → Option (RegRow × List Nat)
  | [], _ => none
  | r :: rs, off =>
    if r.off ≤ off then
      match matchDims r.dims (off - r.off) with
      | some ix => some (r, ix)
      | none => regIn rs off
    else regIn rs off

/-- The register at an 8-aligned physical address: its block, row and instance numbers. -/
def regAt (pa : Nat) : Option (Nat × RegRow × List Nat) :=
  match blockNo pa with
  | none => none
  | some b => (regIn (rowsOf b) (pa - blockBase b)).map (fun x => (b, x.1, x.2))

/-- All register rows. -/
def allRows : List RegRow :=
  rows_tile ++ rows_rt ++ rows_tag ++ rows_ring ++ rows_port ++ rows_near ++ rows_eng ++ rows_dse ++ rows_pwr ++
    rows_key ++ rows_ras

/-- Offset of an instance of a register. -/
def offOf (r : RegRow) (ix : List Nat) : Nat :=
  r.off + (List.zipWith (fun (d : Nat × Nat) i => d.2 * i) r.dims ix).sum

/-- The physical address of an instance of a register in the block at a base. -/
def A (id : Rid) (base : Nat) (ix : List Nat := []) : Nat :=
  match allRows.find? (fun r => decide (r.id = id)) with
  | some r => base + offOf r ix
  | none => base

/-- Output of the dimension-ordered route from router r to router d (R155): 0 local, 1 north, 2 east, 3 south,
4 west. -/
def dimRoute (r d : Nat) : Nat :=
  if r % 36 < d % 36 then 2
  else if d % 36 < r % 36 then 4
  else if d / 36 < r / 36 then 1
  else if r / 36 < d / 36 then 3
  else 0

/-- The router of a block. -/
def routerOfBlock (b : Nat) : Nat :=
  if b < 544 then routerOfTile b else routerOfStop ((b - 544) / 16) ((b - 544) % 16)

/-- Sixteen 4-bit routing entries of word w of router r (Table 5.11). -/
def dimRtWord (r w : Nat) : Nat :=
  ((List.range 16).map (fun j => dimRoute r (16 * w + j) * 2 ^ (4 * j))).sum

/-- Reset value of the writable bits of a configuration register (Table 11.6, Table 11.7; the PCI Express defaults
where those tables name a standard capability only). Functions 0..63 are the root ports by port number, 64 and 65 the
data engines. -/
def cfgRst (fn off : Nat) : BitVec 32 :=
  if off = 0x68 then 0x2810
  else if off = 0x10C then 0x462030
  else if off = 0x114 then 0x2000
  else if fn < 64 then
    if off = 0x18 then BitVec.ofNat 32 (64 * (fn % 4) * 2 ^ 16)
    else if off = 0x78 then 0x7C0
    else if off = 0x1C4 then 0x10000
    else 0
  else 0

/-- PWR_DIE_CFG of a controller under a profile (Table 14.6): ALLOC, POOL, LEASE_US. -/
def dieCfg (p d : Nat) : Nat :=
  if d < 8 then (if p = 3 then 440 + 96 * 2 ^ 14 + 2 ^ 24 else 840 + 256 * 2 ^ 14 + 4 * 2 ^ 24)
  else (if p = 3 then 490 + 160 * 2 ^ 14 + 2 * 2 ^ 24 else 890 + 320 * 2 ^ 14 + 4 * 2 ^ 24)

/-- NMAX and CMAX of a controller under a profile (R394, Table 14.6); the latency profile's NMAX for N = 512. -/
def dieStat (p d : Nat) : Nat :=
  let nmax := if 8 ≤ d then 30 else if p = 1 ∨ p = 2 then 64 else 128
  let cmax := if 8 ≤ d then 40 else if p = 2 then 32 else 16
  nmax * 2 ^ 32 + cmax * 2 ^ 51

/-- The value of a register after a cold reset (the Reset columns of 18_register_index.md) under profile p: 0 throughput,
1 latency, 2 assurance, 3 frugal. -/
def csrReset (p : Nat) (pa : Nat) : Word :=
  match regAt pa with
  | none => 0
  | some (b, r, ix) =>
    let base : Nat := (r.flds.map (fun f => f.rst * 2 ^ f.lo)).sum
    match r.id with
    | .TILE_PIPECFG => BitVec.ofNat 64 (base + (if p = 2 then 8 else 0))
    | .TILE_L2CFG => BitVec.ofNat 64 (if p = 1 then 0xCC0000 else base)
    | .L3_HOMEMAP => BitVec.ofNat 64 (2 * (8 + ix.headD 0 % 6) + ix.headD 0 / 6)
    | .IOT_HOMEMAP => BitVec.ofNat 64 (2 * (8 + ix.headD 0 % 6) + ix.headD 0 / 6)
    | .MESH_RT => BitVec.ofNat 64 (dimRtWord (routerOfBlock b) (ix.getD 1 0))
    | .SOR_POLICY => BitVec.ofNat 64 (if p = 1 then 0xD else base)
    | .MSIX => BitVec.ofNat 64 (if ix.headD 0 % 2 = 1 then 2 ^ 32 else 0)
    | .TILE_DVFS => BitVec.ofNat 64 (base + (if p = 1 then 0 else if p = 3 then 6 + 4 * 8 else 4))
    | .PWR_PKG =>
      BitVec.ofNat 64 (if p = 3 then 4500 + 4500 * 2 ^ 15 else 8500 + 2 ^ 14 + 10500 * 2 ^ 15)
    | .PWR_DIE_CFG => BitVec.ofNat 64 (dieCfg p (ix.headD 0))
    | .PWR_DIE_STAT => BitVec.ofNat 64 (dieStat p (ix.headD 0))
    | _ => BitVec.ofNat 64 base

end Sys2Proof.Machine
end

