-- ==== Sys2Proof/Machine/State.lean ====
section
/-! DEFINITION. The state of the ZN-1024 as plain data, the reasons a step can stop, and the state after a cold reset. -/

namespace Sys2Proof.Machine
open Sys2Proof

/-! ## Cores -/

/-- What a logical core does: powered down or not yet released, retiring, waiting in WFI, stopped by an error, draining
for a core reset, or held by sparing. -/
inductive Run where
  | off | running | wfi | stopped | draining | moving | offline
  deriving DecidableEq, Repr

/-- An entry of the L2 TLB or of the stage-2 TLB (R233): its tag, and the entry value of Table 8.3. For the stage-2
TLB `vpn` is GPA[51:12] and `asid` is 0. -/
structure TlbEntry where
  guest : Bool
  vmid : Nat
  asid : Nat
  size : Nat
  vpn : Nat
  val : Word
  deriving DecidableEq, Repr

/-- An entry of the hint cache (R239). `asid` none matches any ASID. -/
structure Hint where
  guest : Bool
  vmid : Nat
  asid : Option Nat
  region : Nat
  table : Nat
  deriving DecidableEq, Repr

/-- What a store-buffer entry is (R274): a store, a store-release, CFLUSH, CCLEAN, CZERO, the barrier of FENCE.W, or a
store to a side-effect region or page. -/
inductive StKind where
  | plain | rel | flush | clean | zero | fence | sideEffect
  deriving DecidableEq, Repr

/-- A retired store that is not yet performed (R274): its physical address and size, its bytes as (address, byte)
pairs, the level and guest flag that issued it, the addresses that entries translated for it (with VMID and ASID), and the
broadcasts that marked it (R250), and whether its data was lost to an error, so that it is written poisoned (Table 16.4). -/
structure StEntry where
  kind : StKind
  pa : Nat
  size : Nat
  cells : List (Nat × Byte)
  pl : Nat
  v : Bool
  tr : List (Nat × Nat × Nat)
  marks : List Nat
  poison : Bool := false
  deriving DecidableEq, Repr

/-- A branch target buffer entry (R263): partial tag pc[28:13], kind, last target. -/
structure BtbEntry where
  tag : Nat
  kind : Nat
  target : Word
  deriving DecidableEq, Repr

/-- A far atomic under way (R126, R127): its address and size, its answer once it has come: status, whether the old value
is poisoned, the old value; what translated it, and the broadcasts that have marked it (R250). -/
structure FarOp where
  pa : Nat
  size : Nat
  ans : Option (Nat × Bool × Nat)
  tr : List (Nat × Nat × Nat)
  marks : List Nat
  deriving DecidableEq, Repr

/-- An interrupt write held while its core's number is MOVING (R221): its posted slot, its vector, whether it was forwarded (R222), and
the requester and address that the log of R23 names. -/
structure HeldMsi where
  slot : Option Nat
  vec : Nat
  fwd : Bool
  router : Nat
  agent : Nat
  addr : Nat
  deriving DecidableEq, Repr
/-- A logical core: its architectural state (R169, R202, R286) and the units that its commands read and write. -/
structure Core where
  /-- What the core does. -/
  run : Run
  /-- The program counter (R169). -/
  pc : Word
  /-- g0..g31 (R169); g0 is never listed. -/
  g : Map Word
  /-- The shadow banks (R215), key 8 * bank + i, banks PL0..PL3 and 4 for the guest kernel. -/
  bank : Map Word
  /-- fpcsr (Table 6.1). -/
  fpcsr : Word
  /-- Core system registers by sr, guest copies at 0x800 + sr (R202, R200). -/
  sr : Map Word
  /-- v0..v31 (R286). -/
  v : Map VWord
  /-- m1..m7 (R288). -/
  m : Map (BitVec 16)
  /-- The reservation: a physical line (R140). -/
  resv : Option Nat
  /-- Instructions retired since the load-linked of a loop whose line is held (R142). -/
  hold : Option Nat
  /-- The fetch RAM, 16 KiB (R213). -/
  fram : Map Byte
  /-- The L2 TLB by index 0..3135 (R233). -/
  tlb : Map (Option TlbEntry)
  /-- The stage-2 TLB by index 0..511 (R233). -/
  s2tlb : Map (Option TlbEntry)
  /-- The hint cache, most recent first (R239). -/
  hints : List Hint
  /-- The store buffer, oldest first (R274). -/
  sbuf : List StEntry
  /-- Direction counters (R264). -/
  ctr : Map (BitVec 2)
  /-- Global history (R264). -/
  hist : Word
  /-- The return stack, top first (R265). -/
  rstack : List Word
  /-- The main BTB, key 4 * set + way (R263). -/
  btb : Map (Option BtbEntry)
  /-- The zero-bubble level, most recently taken first: pc and target (R263). -/
  zb : List (Word × Word)
  /-- The store-wait table: the marked indexes (R276). -/
  swait : List Nat
  /-- ERR_STORE latched and not yet taken (R212). -/
  errStore : Bool
  /-- ERR_CORE reported and not yet taken (R436). -/
  errCore : Bool
  /-- Identifiers of this core's outstanding broadcasts (R250). -/
  bcasts : List Nat
  /-- Heavy vector issues in the present window of 64 core cycles (R305). -/
  heavy : Nat
  /-- Sample records that wait to be written, of 8 words each (R377). -/
  sampQ : List (List Word)
  /-- Dropped records not yet reported by a LOST record (R377). -/
  sampDrop : Nat
  /-- Window writes held while the core is MOVING: vector, or slot and posted vector (R221). -/
  heldMsi : List HeldMsi
  /-- A far atomic that its slice passes to the home agent (R126): the instruction waits for the answer. -/
  far : Option FarOp
  /-- A TLBSYNC with DRAIN = 1 has met broadcasts outstanding and has yet to see a count query sum to 0 (R251). -/
  drains : Bool
  deriving DecidableEq, Repr

/-- A core after reset (R170, R210, R286): pc at the reset entry, PL3, every register 0, ffm 0xFFFF. -/
def Core.reset : Core :=
  { run := .off, pc := 0xF00F000000400, g := [], bank := [], fpcsr := 0, sr := [], v := [], m := [],
    resv := none, hold := none, fram := [], tlb := [], s2tlb := [], hints := [], sbuf := [], ctr := [], hist := 0,
    rstack := [], btb := [], zb := [], swait := [], errStore := false, errCore := false, bcasts := [], heavy := 0,
    sampQ := [], sampDrop := 0, heldMsi := [], far := none, drains := false }

/-! ## Caches and directory -/

/-- A private copy of a line (R120). -/
inductive Mesi where
  | I | S | E | M
  deriving DecidableEq, Repr

/-- An L2's record of a line (R120, R125): its state, its way (R112), its eviction-buffer entry (the state it left with, whether
WbGo came, whether it is stale), the request it has outstanding, whether that is a prefetch (R119), and the status with which
the last request of a load or store ended, when it was not OK (R123, R183); and its way in the L1 data cache, which the L2 includes
(R113). -/
structure L2Line where
  st : Mesi
  wn : Nat
  evb : Option (Mesi × Bool × Bool)
  miss : Option Op
  pf : Bool
  err : Nat
  l1 : Option Nat
  deriving DecidableEq, Repr

/-- Which private copies a slice tracks (R120, R121): none, sharers by pointer, sharers by group, an owner. -/
inductive DirSt where
  | U
  | S (ptrs : List Nat)
  | SC (groups : BitVec 68)
  | X (o : Nat)
  deriving DecidableEq, Repr

/-- A slice's data way for a line (R120). -/
inductive Way where
  | none | clean | dirty
  deriving DecidableEq, Repr

/-- What a slice's transaction on a line waits for (R122). -/
inductive Phase where
  | acks (n : Nat) | snoop | home | wbdata
  deriving DecidableEq, Repr

/-- A slice's record of a line (R120-R122, R125): directory state, data way and its number, lock, eviction buffer entry (whether WbGo
came), the transaction in progress and the requests held behind it in arrival order. -/
structure DirLine where
  st : DirSt
  way : Way
  wn : Nat
  lock : Bool
  evb : Option Bool
  busy : Option (Pkt × Phase)
  held : List Pkt
  deriving DecidableEq, Repr

/-- A line no slice tracks. -/
def DirLine.empty : DirLine := { st := .U, way := .none, wn := 0, lock := false, evb := none, busy := none, held := [] }
/-- A line an L2 does not hold. -/
def L2Line.empty : L2Line := { st := .I, wn := 0, evb := none, miss := none, pf := false, err := 0, l1 := none }

/-- What a core's prefetchers track (R119): of up to 32 load instructions the address, the last address loaded and the stride;
of up to 16 streams the last line and the direction, 1 or -1. The most recently used is first. -/
structure Pf where
  loads : List (Nat × Nat × Int)
  streams : List (Nat × Int)
  deriving DecidableEq, Repr

/-- Prefetchers that track nothing. -/
def Pf.reset : Pf := { loads := [], streams := [] }

/-! ## Mesh -/

/-- A packet in an input buffer of a router (R149): its router, its input (0 the core or stop port, 1 north, 2 east, 3 south,
4 west, 5 the slice port) and the mesh cycles it has been sendable. -/
structure Buf where
  router : Nat
  input : Nat
  pkt : Pkt
  age : Nat
  deriving DecidableEq, Repr

/-- What a broadcast on the maintenance channel asks for (R162). -/
inductive BcOp where
  | tlbInv (guest : Bool) (vmid scope asid va : Nat)
  | s2Inv (vmid scope gpa : Nat)
  | redir | homemap | lcmap | keyArm | count
  deriving DecidableEq, Repr

/-- A broadcast in progress (R162): identifier, the core that sent it (none: the DSE), operation, the router of its
origin, the agents that have acknowledged (physical cores by number, 1088 + d for the I/O translation unit of die d), the counts
that BACKs have brought to parents by the child's router, the routers that have sent their BACK, and whether the total
BACK is on its way, and the ctime at which it was sent (Table 16.10). -/
structure Bcast where
  id : Nat
  origin : Option Nat
  op : BcOp
  root : Nat
  acked : List Nat
  backs : List (Nat × Nat)
  sent : List Nat
  done : Bool
  sentAt : Nat := 0
  deriving DecidableEq, Repr

/-! ## Sorrel (02_memory_tiers.md) -/

/-- How the start-up sequence laid out memory (R33-R35, R80, R480, R105, R106): per home function the hosting channel,
the first channel frame of its near base frames and their number; per channel the range [nearLo, nearHi) of frames that
hold near frames; the trained CXL memory ports with their far frames, and those added later (R336); the frames that retired
ones are replaced by, as (channel or 16 + port, retired frame, its substitute) (R104, R444, R450); the numbers of base
frames, near frames and far frames. Empty before stage 6. -/
structure Layout where
  homeCh : List Nat
  nearFirst : List Nat
  nearNum : List Nat
  nearLo : List Nat
  nearHi : List Nat
  ports : List (Nat × Nat)
  added : List (Nat × Nat)
  subst : List (Nat × Nat × Nat)
  base : Nat
  near : Nat
  far : Nat
  deriving DecidableEq, Repr

/-- Before stage 6. -/
def Layout.empty : Layout :=
  { homeCh := [], nearFirst := [], nearNum := [], nearLo := [], nearHi := [], ports := [], added := [], subst := [], base := 0, near := 0, far := 0 }

/-- A far frame (R39): in the far pool, holding a plain FAR frame, a sector frame of a home function with its used
sectors, or withheld by frame retirement (R444). -/
inductive FarUse where
  | free | plain | sectors (home : Nat) (used : List Nat) | withheld
  deriving DecidableEq, Repr

/-- The states of a migration (Table 2.11). -/
inductive MigSt where
  | copy | recopy | mirror | switch | drain
  deriving DecidableEq, Repr

/-- Where a frame lies: KIND, PORT and LOC of Table 2.2. -/
structure Place where
  kind : Nat
  port : Nat
  loc : Nat
  deriving DecidableEq, Repr

/-- A migration of a home function (R56-R60): its frame, source and destination, state, the RECOPY pass number, aborts
so far, the lines of the running pass, the lines dirtied since it began, the directory entries of a COMPRESSED destination
(after the switch, of the old place) and the images of its CHIVE blocks, the hold queue, the command that started it (its
slot's address), and how many lines of the running pass the copier has read (R57). -/
structure Mig where
  frame : Nat
  src : Place
  dest : Place
  st : MigSt
  pass : Nat
  aborts : Nat
  todo : Option (List Nat)
  dirty : List Nat
  blocks : Map Word
  imgs : Map (List Byte)
  holdq : List Pkt
  cmd : Option Nat
  pos : Nat
  deriving DecidableEq, Repr

/-- A migration that waits to start (R51, R52, R55, R70, R104): its frame, the destination (0 NEAR, 1 FAR,
2 COMPRESSED) and port, whether it is automatic, so that SOR_RATE.MIGS counts it, the command that asked for it, and the
frame whose demotion is to make its room (a swap of R52). An action neither automatic nor of a command is a promotion of
R70 or R104 or an evacuation's. -/
structure Action where
  frame : Nat
  dest : Nat
  port : Option Nat
  auto : Bool
  cmd : Option Nat
  swap : Option Nat := none
  deriving DecidableEq, Repr

/-- A PIN that waits for the end of a migration (R55): its slot address and its frame. -/
structure Waiter where
  slot : Nat
  frame : Nat
  deriving DecidableEq, Repr

/-- A write held in a spill-wait queue (R70): its request, the later writes merged into it, and its deadline. -/
structure Spill where
  pkt : Pkt
  more : List Pkt
  deadline : Nat
  deriving DecidableEq, Repr

/-- A block of a COMPRESSED frame that is being stored RAW (R62): its key 512 * frame + block, the port and first sector of
the new place, the request that asked for it, whether its bytes stand in memory already (a write that was held), the
writes merged into it, and the requests for the block that wait. -/
structure Conv where
  blk : Nat
  port : Nat
  sec : Nat
  pkt : Pkt
  done : Bool
  more : List Pkt
  held : List Pkt
  deriving DecidableEq, Repr

/-- A home agent (R38, R48, R61): the LFSR of the heat sampling, the remap cache by set (most recent first), and the cached
block headers and directory lines, each most recent first. -/
structure HAgent where
  lfsr : Nat
  rcache : Map (List Nat)
  hdrs : List Nat
  dirs : List Nat
  deriving DecidableEq, Repr

def HAgent.reset : HAgent := { lfsr := 1, rcache := [], hdrs := [], dirs := [] }

/-- A home function (R32): scan position and length (R50), queued actions, the class
of frames that were COOL (2) or COLD (3) at their last visit, automatic migrations started in this epoch, migrations, waiting
PINs, commands that wait behind a queued one of their frame (R55), requests waiting for a remap fill, blocks being stored
RAW, the spill-wait queue and whether it stalls (R72), the Toll grant, whether slot consumption has stopped (R54), whether
the function is fenced (R443), and whether a block landed in this epoch. -/
structure Home where
  scanPos : Option Nat
  scanLen : Nat
  acts : List Action
  cold : Map Nat
  started : Nat
  migs : List Mig
  waiters : List Waiter
  later : List SorCmd
  rwait : List Pkt
  convs : List Conv
  spill : List Spill
  stalled : Bool
  grant : Bool
  slotStop : Bool
  fenced : Bool
  landed : Bool
  deriving DecidableEq, Repr

def Home.reset : Home :=
  { scanPos := none, scanLen := 16, acts := [], cold := [], started := 0, migs := [], waiters := [],
    later := [], rwait := [], convs := [], spill := [], stalled := false, grant := false, slotStop := false, fenced := false,
    landed := false }

/-- An elastic ring record before it is posted (Table 2.13). -/
structure ElrRec where
  type : Nat
  frame : Nat
  count : Nat
  time : Nat
  deriving DecidableEq, Repr

/-- The Sorrel coordinator (R64-R77): the epoch counter, the epoch length in force and the ctime of the last boundary
(R47), records that wait to be
posted (those beyond the ring's room are held internally), the outstanding revocations with the frames returned out of
each, the unposted revocations with their deadlines (R67), whether posting has stopped, the ports closed by an evacuation, the
evacuation that runs (of a channel or not, its target), and whether it still waits for returns (R76). -/
structure Coord where
  epoch : Nat
  lenUs : Nat
  epochAt : Nat
  held : List ElrRec
  revs : List (ElrRec × List Nat)
  unposted : List (Nat × Nat)
  stopped : Bool
  closed : List Nat
  evac : Option (Bool × Nat)
  evacWait : Bool
  deriving DecidableEq, Repr

def Coord.reset : Coord :=
  { epoch := 0, lenUs := 10000, epochAt := 0, held := [], revs := [], unposted := [], stopped := false, closed := [], evac := none,
    evacWait := false }


/-! ## Near memory channels (03_near_memory_integrity.md) -/

/-- A merge buffer entry (R91): channel frame and line, the bytes and their mask, the bytes whose newest write arrived
poisoned (R98), and the ctime of its first write. -/
structure MergeEnt where
  cf : Nat
  line : Nat
  data : Line
  mask : Nat
  pmask : Nat
  time : Nat
  deriving DecidableEq, Repr

/-- A near channel: the ranks of the modules that it runs with, in ascending order (R80); reads issued to the DRAM with
channel frame and line, the merge buffer (R91); of each line by 32768 * frame + line: WSTAMP and LCRC of its metadata (R89),
its stored poison mark (R87, PV of R89), and the bits turned in its cells; WSTAMP of a frame's other lines; the line of the running conversion and the old code of its frames (R85), the line of the
scrubber and whether it met poison in this frame (R93, R100), repair rows used by (20 * rank + device) * 4 + bank group
(R102), soft repairs not yet committed as (rank, bank group, bank, row, devices), near frames removed for good (R104),
postponed refreshes by rank (R82), the DRAM temperature last reported, and the ctime up to which each bucket has leaked
(R95). -/
structure NearCh where
  ranks : List Nat
  reads : List (Pkt × Nat × Nat)
  merge : List MergeEnt
  wstamp : Map Nat
  fstamp : Map Nat
  lcrc : Map (Option Nat)
  marks : Map Bool
  errs : Map Flips
  convLine : Nat
  convOld : Bool
  scrubLine : Nat
  scrubPoison : Bool
  repairs : Map Nat
  soft : List (List Nat)
  withheld : List Nat
  postponed : Map Nat
  degC : Nat
  leakAt : Map Nat
  deriving DecidableEq, Repr

def NearCh.reset : NearCh :=
  { ranks := [], reads := [], merge := [], wstamp := [], fstamp := [], lcrc := [], marks := [], errs := [], convLine := 0, convOld := false, scrubLine := 0, scrubPoison := false,
    repairs := [], soft := [], withheld := [], postponed := [], degC := 0, leakAt := [] }

/-! ## Snapshots (13_performance_monitoring.md) -/

/-- A REJECT log (R7, R473): entries of four words, oldest first, the OVERFLOW bit and the count of refusals. -/
structure RejLog where
  ents : List (List Word)
  ovf : Bool
  total : Nat
  deriving DecidableEq, Repr

/-- The snapshot pages (R385, R386): the sequence number of each block's copy (0 before the first) and whether it was
late, the tick, the profile, the chip CSRs, the system registers of each physical core, the REJECT logs, the counter
shadows that a read has cleared (type RC), the blocks that hold an arming, and the ticks taken whose completion is due. -/
structure Snap where
  pages : Map Nat
  lates : Map Bool
  prof : Nat
  csr : Map Word
  sr : Map (Map Word)
  rej : Map RejLog
  clr : Map Bool
  armed : Map Bool
  due : List Word
  deriving DecidableEq, Repr

/-- Before the first tick every shadow reads 0. -/
def Snap.reset : Snap :=
  { pages := [], lates := [], prof := 0, csr := [], sr := [], rej := [], clr := [], armed := [], due := [] }

/-! ## I/O translation (08_translation.md) -/

/-- An entry of an I/O TLB (R254): the context it belongs to, page size code and page number, the stage-1 leaf, the
physical address of the page, the rights that both stages give, and whether this unit set D (R257). -/
structure IoEntry where
  guest : Bool
  vmid : Nat
  asid : Nat
  size : Nat
  vpn : Nat
  leaf : Word
  base : Nat
  r : Bool
  w : Bool
  d : Bool
  deriving DecidableEq, Repr

/-- An I/O translation unit (R254, R255): the I/O TLB, most recent first, the cached context entries by cluster and
requester ID, and the requests that wait for a walk, with those of the same requester behind them, in arrival order. -/
structure Iot where
  tlb : List IoEntry
  ctx : List (Nat × Nat × List Word)
  waits : List Inbound
  deriving DecidableEq, Repr

def Iot.reset : Iot := { tlb := [], ctx := [], waits := [] }

/-! ## Data engines (12_data_engine.md) -/

/-- How a job ended: STATUS, SRC_USED, DST_USED, CHECK, DETAIL (Tables 12.4 and 12.5). -/
structure JobRes where
  status : Nat
  srcUsed : Nat
  dstUsed : Nat
  check : Nat
  detail : Nat
  deriving DecidableEq, Repr

/-- A consumed descriptor (R348): its instance, slot and eight words, the bytes its operation has done, the check value
so far, poisoned lines passed, and how it ended. -/
structure Job where
  inst : Nat
  slot : Nat
  desc : List Word
  pos : Nat
  check : Nat
  passed : Nat
  res : Option JobRes
  deriving DecidableEq, Repr

/-- A unit (R339, R340): its job, whether it holds a Toll grant, whether it runs at a quarter of its rate
(Table 14.3), the ctime at which it became idle, whether it is retired. -/
structure EUnit where
  job : Option Job
  grant : Bool
  /-- Its grant was withdrawn while a job ran, which goes on at one quarter of its rate (Table 14.3). -/
  slow : Bool
  idleAt : Nat
  retired : Bool
  deriving DecidableEq, Repr

def EUnit.reset : EUnit := { job := none, grant := false, slow := false, idleAt := 0, retired := false }

/-- An instance (R347 to R371): the arguments of Table 12.9, consumed jobs that wait in ring order, suspended jobs,
held completion records (the four words of Table 12.4 without PHASE, and whether IRQ is due), the budget of the round per
class in ns, whether fetching has stopped on a fault, and whether a slot's PHASE did not match. -/
structure Inst where
  args : List Nat
  ready : List Job
  susp : List Job
  held : List (List Word)
  budgets : List Int
  stop : Bool
  mis : Bool
  deriving DecidableEq, Repr

def Inst.reset : Inst := { args := [], ready := [], susp := [], held := [], budgets := [], stop := false, mis := false }

/-- A data engine: its units, its instances, its staging SRAM (R367), the ctime at which a function reset began, that
of the last scheduling round (R368), and the write of Device Control that waits for its end (Table 11.10). -/
structure Engine where
  units : Map EUnit
  insts : Map Inst
  stg : Map Byte
  resetAt : Nat
  /-- ctime of the start of the round in force (R368). -/
  roundAt : Nat
  devCtl : Option (BitVec 32)
  deriving DecidableEq, Repr

def Engine.reset : Engine := { units := [], insts := [], stg := [], resetAt := 0, roundAt := 0, devCtl := none }

/-! ## Power (14_power_and_clocks.md) -/

/-- A power controller (R391 to R398): the queue of requests with the ctime of arrival, the grants held with the ctime
of the grant, the ports that wait for a transition slot, and those that hold one. -/
structure Toll where
  queue : List (TollWho × Nat)
  held : List (TollWho × Nat)
  slotQ : List Nat
  slots : List Nat
  deriving DecidableEq, Repr

def Toll.reset : Toll := { queue := [], held := [], slotQ := [], slots := [] }

/-! ## Ports (11_ports_and_endpoints.md) -/

/-- A request outstanding on a link: the packet it answers, its link tag, its phase (a PAtom: 0 read, 1 write sent),
whether it is a configuration request, and for a read carried by a peer window (R331): the port and window it came
through, whether under a mapping since rewritten, and the requester ID and tag of the device that reads; for a request translated by
the I/O translation unit, the context (GUEST, VMID, ASID) and the address, and the broadcasts that have marked it (R250). -/
structure LinkReq where
  pkt : Pkt
  tag : Nat
  phase : Nat
  cfg : Bool
  carry : Option (Nat × Nat × Bool)
  rid : Nat
  rtag : Nat
  tr : Option (Bool × Nat × Nat × Nat)
  marks : List Nat
  deriving DecidableEq, Repr

/-- A mapping of a peer window in force (R331): KIND STAGING, READ_EN, target port, first and last byte, SRAM offset. -/
structure Win where
  staging : Bool
  readEn : Bool
  tgt : Nat
  base : Nat
  limit : Nat
  sram : Nat
  deriving DecidableEq, Repr

/-- A port: requests outstanding on the link, packets that wait in its buffers, tags in quarantine (R316, R321), slot
power, whether PERST_N is driven low and since when power is on, presence, consecutive frames with the button and with
the power fault (R462), whether a device is being added (R336), peer windows in force, and what it sent to its device:
kind (1 request, 2 completion, 3 message), requester ID or address, tag or size, status, data. -/
structure Port where
  out : List LinkReq
  wait : List (Pkt × Bool)
  quar : List Nat
  power : Bool
  perst : Bool
  powerAt : Nat
  present : Bool
  btn : Nat
  flt : Nat
  adding : Bool
  wins : Map (Option Win)
  sent : List (List Nat)
  deriving DecidableEq, Repr

def Port.reset : Port :=
  { out := [], wait := [], quar := [], power := false, perst := true, powerAt := 0, present := false, btn := 0, flt := 0,
    adding := false, wins := [], sent := [] }

/-! ## Service engine and lands (15_service_engine_and_trust.md, 17_signals_and_electrical.md) -/

/-- The fuses other than UDS (Table 15.4): SERIAL, ASSURANCE, the burned counts of LIFECYCLE, FW_SVN and KEYSTORE_VER,
MAKER_KEY_HASH, and the spare tiles, slot j of compute die d at 4 * d + j. -/
structure Fuses where
  serial : Nat
  assurance : Bool
  lifecycle : Nat
  svn : Nat
  ksver : Nat
  makerHash : List Byte
  spares : List Nat
  deriving DecidableEq, Repr

/-- The fuses of the part after manufacturing test; the spec leaves them to the part (log entry 30): the spare tile of
each row of a die is its last. -/
def Fuses.reset : Fuses :=
  { serial := 0, assurance := false, lifecycle := 0, svn := 0, ksver := 0, makerHash := [],
    spares := (List.range 32).map (fun i => (4 * (i / 4 / 2) + i % 4) * 34 + (if i / 4 % 2 = 0 then 16 else 33)) }

/-- A nonce (R423): its count since cold start, its random half, and the ctime at which it ends. -/
structure Nonce where
  count : Nat
  rnd : Word
  ends : Nat
  deriving DecidableEq, Repr

/-- The DSE (R405 to R429): nonces issued and the valid nonce of each transport (0 mailbox, 1 SMBus), the transports
whose GO waits or runs, the SMBus length, command bytes, response, status, selected sensor and the
bytes last returned on the bus, the UART bytes, the keys
and digests of the running image (R419, R414, R415), cold starts so far, settings in force (R417), the number and SEQ of
the settings image, ledger records lost by type (R428), heartbeats missed in a row and the ctime of the last one,
whether a warm reset runs, whether DEBUG_UNLOCK succeeded, whether the CSR_WRITE records are to be applied, the
instances out of service, and what the DSE has retired for good: physical cores, logical cores moved to spares, and
every other unit (R17, R450). -/
structure Dse where
  nonceN : Nat
  nonces : Map (Option Nonce)
  cmdQ : List Nat
  smLen : Nat
  smIn : List Byte
  smOut : List Byte
  smStatus : Nat
  smSel : Nat
  smRead : List Byte
  uartIn : List Byte
  aliasKey : List Byte
  aliasCert : List Byte
  kstore : List Byte
  fwDigest : List Byte
  setDigest : List Byte
  boots : Nat
  latCores : Nat
  smAddr : Nat
  console : Nat
  trace : Nat
  setImage : Option Nat
  lost : Map Nat
  hbMiss : Nat
  hbAt : Nat
  warm : Bool
  cold : Bool
  unlocked : Bool
  out : Map Bool
  retired : List Nat
  moved : List (Nat × Nat)
  gone : List (List Nat)
  deriving DecidableEq, Repr

def Dse.reset : Dse :=
  { nonceN := 0, nonces := [], cmdQ := [], smLen := 0, smIn := [], smOut := [], smStatus := 0, smSel := 0, smRead := [], uartIn := [],
    aliasKey := [], aliasCert := [], kstore := [], fwDigest := [], setDigest := [], boots := 0, latCores := 512, smAddr := 0x5C, console := 3,
    trace := 0, setImage := none, lost := [], hbMiss := 0, hbAt := 0, warm := false, cold := true, unlocked := false,
    out := [], retired := [], moved := [], gone := [] }

/-- The lands (Table 17.4, R456 to R466): whether PWR_GOOD is high, whether everything but VDD_AON is held in reset,
whether THERMTRIP_N and CAT_ERR_N are driven low, the channels whose DRST_N is high, whether the package has power, and
the JTAG instruction in force (0 BYPASS, 1 IDCODE, 2 a mandatory or boundary-scan instruction, 3 one beyond them). -/
structure Pins where
  pwrGood : Bool
  held : Bool
  thermtrip : Bool
  catErr : Bool
  drst : Map Bool
  power : Bool
  jtag : Nat
  deriving DecidableEq, Repr

def Pins.reset : Pins :=
  { pwrGood := true, held := false, thermtrip := false, catErr := false, drst := [], power := true, jtag := 1 }

/-! ## Fault recovery (16_fault_recovery.md) -/

/-- A fault record under the DSE's care (R430): its place in RAS_FLOG, its report, and what its core did before the
self-test stopped it. -/
structure FaultRec where
  slot : Nat
  rep : FaultRep
  was : Option Run
  deriving DecidableEq, Repr

/-- The DSE's fault handling (R430 to R434, R444): the records whose self-test runs, the lasting ones that wait for their
action, the one whose action runs, the reports of the last 60 s, and the ports whose far memory is lost. -/
structure Ras where
  tests : List FaultRec
  queue : List FaultRec
  running : Option FaultRec
  hist : List FaultRep
  lost : List Nat
  deriving DecidableEq, Repr

def Ras.reset : Ras := { tests := [], queue := [], running := none, hist := [], lost := [] }
/-! ## The block -/

/-- The state of the block, and the queue of commands that wait, oldest first. -/
structure State where
  /-- Commands that wait, first in first out. -/
  pending : List Instr
  /-- How many free values and free choices have been drawn (the model's own). -/
  free : Nat
  /-- The global time count (R226, Table 1.9). -/
  ctime : Word
  /-- The chip CSRs by physical address; an unlisted one holds its reset value (18_register_index.md). -/
  csr : Map Word
  /-- The writable bits of the configuration registers of the root ports (function = port) and the data-engine functions (64 + die), key 4096 * function + offset (R322-R327). -/
  cfg : Map (BitVec 32)
  /-- What the last Keystone tick copied (R385, R386). -/
  snap : Snap
  /-- The REJECT logs by block number (R473). -/
  rej : Map RejLog
  /-- The logical cores; an unlisted one is as after reset (R14-R16). -/
  cores : Map Core
  /-- System memory: the coherent value of each byte (R135, R136); an unlisted byte reads 0. -/
  mem : List Host.Cell
  /-- The poisoned lines of system memory (R98, R115). -/
  poison : Map Bool
  /-- The L2 caches, key physical core * 2^42 + line (R120). -/
  l2 : Map L2Line
  /-- The slices: directory and data way of each line (R120). -/
  dir : Map DirLine
  /-- Directory-only tags of each set of a slice, key 2048 * slice + set, the most recently used first (R112, R113). -/
  dtags : Map (List Nat)
  /-- The prefetchers of each physical core (R119). -/
  pfs : Map Pf
  /-- The replacement bits of each set of the L1 data caches, key 128 * physical core + set: a tree of 7 bits (Table 4.1). -/
  plru : Map Nat
  /-- The recently used entries of the L2 and the stage-2 TLBs, key 8192 * core + index, plus 4096 for stage 2 (R233). -/
  nru : Map Bool
  /-- Packets in flight in the mesh (R149). -/
  net : List Pkt
  /-- Packets held while ARMED, each with its port 2 * router + port (R164). -/
  held : List (Nat × Pkt)
  /-- Unacknowledged marks per router port and class, key (2 * router + port) * 8 + class (R164). -/
  marks : Map Nat
  /-- Packets in the input buffers of the routers, in order of arrival (R149). -/
  bufs : List Buf
  /-- The input that was granted last, key ((router * 6 + output) * 6 + class) * 2 + leg, plus 1 (R152). -/
  rrs : Map Nat
  /-- Packets that the routers have brought to their agents, in order of arrival (R151). -/
  arrived : List Pkt
  /-- Requests that wait for a TXID of their agent (R144). -/
  txwait : List Pkt
  /-- Routers that the DSE removes while they still work: they leave service with COMMIT (R165). -/
  leaving : List Nat
  /-- ctime of the failure that SWEEP carries, T_f (R442). -/
  sweepAt : Nat
  /-- Stale maps: key (8 * router + agent) * 4096 + TXID (R167, R448). -/
  stale : Map Bool
  /-- Outstanding requests: key (8 * router + agent) * 4096 + TXID (R144). -/
  outst : Map Bool
  /-- Broadcasts in progress (R162). -/
  bcasts : List Bcast
  /-- Identifier of the next broadcast (the model's own). -/
  nextId : Nat
  /-- How the start-up sequence laid out memory (R33-R35). -/
  layout : Layout
  /-- The remap table by frame; an unlisted entry is as the layout gives (R37). -/
  remap : Map Word
  /-- What a share in DRAM still holds of an entry that has changed in the remap cache (R38). -/
  rstale : Map (Option Word)
  /-- Directory entries of COMPRESSED frames, key 512 * frame + block; unlisted: ZERO (R40). -/
  dirPages : Map Word
  /-- The images of CHIVE blocks in their sectors, key as dirPages (R42). -/
  images : Map (List Byte)
  /-- Far frames by 2^21 * port + index; unlisted: as the layout gives (R39). -/
  farUse : Map FarUse
  /-- The system frame behind each near frame, key 2^16 * channel + frame (R99); unlisted: as the layout gives. -/
  nearSys : Map (Option Nat)
  /-- The near channels (R78). -/
  near : Map NearCh
  /-- The home agents' error logs (R36, R45, R54, R110), newest last: home function, cause (1 UNBACKED, 2 CHIVE_ERROR, 3 command slot, 4 lost write, 5 ATOMIC_UNKNOWN), frame or address, requester or block, ctime. -/
  homeLog : List (List Nat)
  /-- Fault reports on their way to the DSE (R430). -/
  reports : List FaultRep
  /-- Landing slots by 2^17 * home + slot: in use (R70). -/
  slots : Map Bool
  /-- The home functions (R32). -/
  homes : Map Home
  /-- The home agents, by the channel of their stop (R38, R48, R61). -/
  hagts : Map HAgent
  /-- The Sorrel coordinator (R64). -/
  coord : Coord
  /-- The power controllers 0..9 (R391). -/
  tolls : Map Toll
  /-- The state a tile's change in progress leads to, plus 1; 0 when none runs (R389). -/
  dvfs : Map Nat
  /-- ctime at which the change of a tile began (R389). -/
  dvfsAt : Map Nat
  /-- The state (plus 1) that a tile goes to after the change in progress (R389). -/
  dvfsNext : Map Nat
  /-- Filtered temperature of each sensor, in 1/65536 of a degree (R399). -/
  temps : Map Nat
  /-- ctime of the last thermal step of each sensor (R399). -/
  thermAt : Map Nat
  /-- ctime of the last raw sample of each die at or above T_HOT - HYST (R400). -/
  hotAt : Map Nat
  /-- Quarters by which thermal control has lowered the pool of an I/O die (R399). -/
  poolCut : Map Nat
  /-- Power domains that are down, key 4096 * KIND + INDEX (R402). -/
  downDom : Map Bool
  /-- The data engines of the I/O dies (R339). -/
  engs : Map Engine
  /-- Requests that an agent has forwarded under a TXID of its own, key as outst: the request each was made for and its phase (R144, R62, R107, R110). -/
  fwds : Map (Option (Pkt × Nat))
  /-- Answers that a request written to both halves of a pair still awaits, key as outst, plus 4 for each that was OK (R110). -/
  joins : Map Nat
  /-- Audit ledger records that wait to be programmed: type, then the fields of its payload (R426). -/
  ledgQ : List (List Nat)
  /-- The requests outstanding, key as outst (R144, R448). -/
  reqs : Map (Option Pkt)
  /-- ctime at which the last request under a TXID was issued, key as outst (Table 16.10, R442). -/
  reqAt : Map Nat
  /-- ctime since which the slice of a line waits for what its transaction in progress needs (Table 16.10). -/
  busyAt : Map Nat
  /-- Excursion time left, in quarters of a nanosecond (R396). -/
  bucket : Nat
  /-- Excursion credit lent: to the tiles of controller k at k, to its pool at 16 + k (R396). -/
  loans : Map Nat
  /-- The fastest state that thermal control leaves a tile (R399). -/
  thermFloor : Map Nat
  /-- Sensors under thermal control (R399). -/
  thermOn : Map Bool
  /-- The fuses (Table 15.4). -/
  fuses : Fuses
  /-- The SPI flash (Table 15.2); an unlisted byte is erased, 0xFF. -/
  flash : Map Byte
  /-- The service engine. -/
  dse : Dse
  /-- The lands. -/
  pins : Pins
  /-- Fault handling by the DSE. -/
  ras : Ras
  /-- The tagging LFSR of each agent, key 8 * router + agent (R381). -/
  tagLfsr : Map Nat
  /-- ctime at injection of each tagged request, plus 1, key as outst (R381). -/
  tagT0 : Map Nat
  /-- The ports (R307 to R338). -/
  ports : Map Port
  /-- The I/O translation units (R254). -/
  iots : Map Iot
  /-- What the last register command or reserved access answered: its response status and the value read (R23, R24). -/
  csrRsp : Nat × Nat
  deriving DecidableEq, Repr

/-- Why the machine stops with a fault. No command of this block raises one: every outcome the spec describes is a
next state. The one constructor stands for a state the model's own checks exclude; it is safe. -/
inductive Fault where
  | unreachable
  deriving DecidableEq, Repr

/-- Why a command is refused. `notModelled`: a command without a meaning, raised by Dispatch alone; it is safe. -/
inductive Refusal where
  | notModelled (mnemonic : String)
  deriving DecidableEq, Repr

/-- The package after a cold reset, before the start-up sequence (R28, Table 1.9, the Reset columns). -/
def State.reset : State :=
  { pending := [],
    free := 0,
    ctime := 0,
    csr := [],
    cfg := [],
    snap := Snap.reset,
    rej := [],
    cores := [],
    mem := [],
    poison := [],
    l2 := [],
    dir := [],
    dtags := [],
    pfs := [], plru := [], nru := [],
    net := [],
    held := [],
    marks := [],
    bufs := [],
    rrs := [],
    arrived := [],
    txwait := [],
    leaving := [],
    sweepAt := 0,
    stale := [],
    outst := [],
    bcasts := [],
    nextId := 0,
    layout := Layout.empty,
    remap := [],
    rstale := [],
    dirPages := [],
    images := [],
    farUse := [],
    nearSys := [],
    near := [],
    homeLog := [],
    reports := [],
    slots := [],
    homes := [],
    hagts := [],
    coord := Coord.reset,
    tolls := [],
    dvfs := [], dvfsAt := [], dvfsNext := [],
    temps := [],
    thermAt := [],
    hotAt := [],
    poolCut := [],
    downDom := [],
    engs := [],
    fwds := [],
    joins := [],
    ledgQ := [],
    reqs := [],
    reqAt := [],
    busyAt := [],
    bucket := 40000000,
    loans := [],
    thermFloor := [],
    thermOn := [],
    fuses := Fuses.reset,
    flash := [],
    dse := Dse.reset,
    pins := Pins.reset,
    ras := Ras.reset,
    tagLfsr := [],
    tagT0 := [],
    ports := [],
    iots := [],
    csrRsp := (0, 0) }

end Sys2Proof.Machine
end

