-- ==== Sys2Proof/Machine/Ops.lean ====
section
/-! DEFINITION. The named operations over registers and memory; counting of retired work (R372-R374); taking an
exception and returning from one (R205-R216). -/

namespace Sys2Proof.Machine
open Sys2Proof

/-! ## Chip CSRs, cores, free values -/

/-- The active profile, DSE_STATUS.PROFILE: 0 throughput, 1 latency, 2 assurance, 3 frugal (Table 15.11). -/
def State.profile (s : State) : Nat := bitsN (Map.get 0 s.csr dseBase) 5 4

/-- The value of a chip CSR. -/
def State.rdCsr (s : State) (a : Nat) : Word := Map.get (csrReset s.profile a) s.csr a

/-- A chip CSR set by the part itself. -/
def State.wrCsr (s : State) (a : Nat) (v : Word) : State :=
  { s with csr := Map.set (csrReset s.profile a) s.csr a v }

/-- A field of a chip CSR. -/
def State.fld (s : State) (a hi lo : Nat) : Nat := bitsN (s.rdCsr a) hi lo
/-- A one-bit field of a chip CSR. -/
def State.flag (s : State) (a n : Nat) : Bool := bitB (s.rdCsr a) n
/-- A field of a chip CSR set by the part itself. -/
def State.putFld (s : State) (a hi lo v : Nat) : State := s.wrCsr a (putW (s.rdCsr a) hi lo v)
/-- A one-bit field of a chip CSR set by the part itself. -/
def State.putFlag (s : State) (a n : Nat) (b : Bool) : State := s.wrCsr a (putB (s.rdCsr a) n b)

/-- The state of a logical core. -/
def State.core (s : State) (c : Nat) : Core := Map.get Core.reset s.cores c
/-- A logical core's state replaced. -/
def State.setCore (s : State) (c : Nat) (k : Core) : State := { s with cores := Map.set Core.reset s.cores c k }
/-- A logical core's state changed by a function. -/
def State.modCore (s : State) (c : Nat) (f : Core → Core) : State := s.setCore c (f (s.core c))

/-- The next free choice among n, drawn from Config (log entry 2). -/
def State.draw (s : State) (n : Nat) : Nat := Config.draw s.free % n
/-- The state after a free value has been drawn. -/
def State.bump (s : State) : State := { s with free := s.free + 1 }

/-- The physical core behind a logical core, DSE_LCMAP.PHYS (R18). -/
def State.phys (s : State) (c : Nat) : Nat := bitsN (s.rdCsr (dseBase + 0x10000 + 8 * c)) 10 0
/-- DSE_LCMAP.STATE of a logical core: 0 UNASSIGNED, 1 ACTIVE, 2 MOVING, 3 OFFLINE (Table 1.3). -/
def State.lcState (s : State) (c : Nat) : Nat := bitsN (s.rdCsr (dseBase + 0x10000 + 8 * c)) 14 12
/-- Base of the tile block of a logical core. -/
def State.tileOf (s : State) (c : Nat) : Nat := tileBase (s.phys c / 2)
/-- Position of a logical core in its tile. -/
def State.posOf (s : State) (c : Nat) : Nat := s.phys c % 2

/-! ## Memory -/

/-- A byte of system memory (log entry 3). -/
def State.rdByte (s : State) (a : Nat) : Byte := Map.get 0 s.mem a
/-- System memory with one byte written. -/
def State.wrByte (s : State) (a : Nat) (b : Byte) : State := { s with mem := Map.set 0 s.mem a b }
/-- The canonical form of the memory list. -/
def Memory.wf (m : List Host.Cell) : Bool := Map.wf (fun _ => (0 : BitVec 8)) m

/-- n bytes from an address, as a little-endian number. -/
def State.rdN (s : State) (a : Nat) : Nat → Nat
  | 0 => 0
  | n + 1 => (s.rdByte a).toNat + 256 * State.rdN s (a + 1) n

/-- The low n bytes of a number, little-endian, as (address, byte) pairs from an address. -/
def cellsOf (a v : Nat) : Nat → List (Nat × Byte)
  | 0 => []
  | n + 1 => (a, BitVec.ofNat 8 v) :: cellsOf (a + 1) (v / 256) n

/-- Memory with a list of (address, byte) pairs written in order. -/
def State.wrCells (s : State) : List (Nat × Byte) → State
  | [] => s
  | (a, b) :: l => State.wrCells (s.wrByte a b) l

/-- n bytes written at an address, little-endian. -/
def State.wrN (s : State) (a v n : Nat) : State := s.wrCells (cellsOf a v n)

/-- A line's poison mark set or cleared. -/
def State.setPoison (s : State) (line : Nat) (b : Bool) : State := { s with poison := Map.set false s.poison line b }

/-- A line's 64 bytes as a number. -/
def State.rdLine (s : State) (line : Nat) : Line := BitVec.ofNat 512 (s.rdN (64 * line) 64)
/-- A line's 64 bytes replaced. -/
def State.wrLine (s : State) (line : Nat) (d : Line) : State := s.wrN (64 * line) d.toNat 64

/-- The bytes of a line that a 64-bit mask selects, as (address, byte) pairs (R146). -/
def maskCells (line : Nat) (d : Line) (mask : Nat) : List (Nat × Byte) :=
  (cellsOf (64 * line) d.toNat 64).filter (fun e => mask.testBit (e.1 % 64))

/-! ## Core registers -/

/-- status.PL (Table 7.4). -/
def Core.status (k : Core) : Word := Map.get (srReset 0) k.sr 0
def Core.pl (k : Core) : Nat := bitsN k.status 1 0
def Core.vf (k : Core) : Bool := bitB k.status 2
def Core.shb (k : Core) : Bool := bitB k.status 3
def Core.eip (k : Core) : Bool := bitB k.status 8

/-- A core system register as stored, guest copies at 0x800 + sr. -/
def Core.srv (k : Core) (n : Nat) : Word := Map.get (srReset n) k.sr n
/-- A core system register set by the core itself. -/
def Core.setSr (k : Core) (n : Nat) (v : Word) : Core := { k with sr := Map.set (srReset n) k.sr n v }
/-- The number of the copy that a guest flag selects (R200). -/
def bk (g : Bool) (n : Nat) : Nat := if g then 0x800 + n else n

/-- The shadow bank in use: the level's, or the guest kernel's (R215). -/
def Core.bankNo (k : Core) : Nat := if k.vf then 4 else k.pl

/-- A general register as an instruction reads it: g0 reads 0, and g24-g31 read the bank while SHB = 1 (R169, R215). -/
def Core.rd (k : Core) (r : Nat) : Word :=
  if r = 0 then 0
  else if k.shb && decide (24 ≤ r) then Map.get 0 k.bank (8 * k.bankNo + (r - 24))
  else Map.get 0 k.g r

/-- A general register as an instruction writes it: a write of g0 is discarded (R169, R215). -/
def Core.wr (k : Core) (r : Nat) (v : Word) : Core :=
  if r = 0 then k
  else if k.shb && decide (24 ≤ r) then { k with bank := Map.set 0 k.bank (8 * k.bankNo + (r - 24)) v }
  else { k with g := Map.set 0 k.g r v }

/-- A general register of a logical core. -/
def State.rg (s : State) (c r : Nat) : Word := (s.core c).rd r
/-- A general register of a logical core written. -/
def State.wg (s : State) (c r : Nat) (v : Word) : State := s.modCore c (fun k => k.wr r v)

/-- A vector register. -/
def Core.rv (k : Core) (r : Nat) : VWord := Map.get 0 k.v r
def Core.wv (k : Core) (r : Nat) (x : VWord) : Core := { k with v := Map.set 0 k.v r x }
/-- A mask register: m0 reads 0xFFFF (R288). -/
def Core.rm (k : Core) (r : Nat) : BitVec 16 := if r = 0 then 0xFFFF else Map.get 0 k.m r
def Core.wm (k : Core) (r : Nat) (x : BitVec 16) : Core := if r = 0 then k else { k with m := Map.set 0 k.m r x }

/-- The program counter moved past an instruction. -/
def Core.adv (k : Core) : Core := { k with pc := k.pc + 4 }
/-- The program counter set. -/
def Core.jump (k : Core) (t : Word) : Core := { k with pc := t }

/-! ## Interrupt state (R217-R222) -/

/-- Vector v of a core's physical interrupts made pending, with no other effect. -/
def Core.setPend (k : Core) (v : Nat) : Core :=
  k.setSr (0x100 + v / 64) (putB (k.srv (0x100 + v / 64)) (v % 64) true)

/-- Address of a guest slot's register (Table 7.12): off is 0x000 + 8i PEND, 0x040 + 8i EN, 0x080 CTL. -/
def State.slotAddr (s : State) (c slot off : Nat) : Nat :=
  s.tileOf c + 0x20000 + 0x2000 * s.posOf c + 0x200 * slot + off

/-- The highest set bit of a word, counting from a first number, below a bound. -/
def highBit (w : Nat) : Nat → Option Nat
  | 0 => none
  | n + 1 => if w.testBit n then some n else highBit w n

/-- The level that takes a vector's class (R218): int_route, and PL2 for PL1 while V = 1. -/
def Core.intLevel (k : Core) (cls : Nat) : Nat :=
  let t := bitsN (k.srv 0x112) (2 * cls + 1) (2 * cls)
  if t = 1 && k.vf then 2 else t

/-- IE of a level: the guest copy for the guest kernel (Table 7.4, R219). -/
def Core.ie (k : Core) (t : Nat) (g : Bool) : Bool := bitB (k.srv (bk g 0)) (3 + t)

/-- Whether a pending, enabled physical vector is accepted (R219); with `anyIe`, as if every IE were 1 (Table 7.13). -/
def Core.accepts (k : Core) (v : Nat) (anyIe : Bool) : Bool :=
  let cls := v / 32
  let t := k.intLevel cls
  let ctl := k.srv 0x110
  let above : Bool := match highBit (bitsN ctl 19 4) 16 with
    | some j => decide (j < cls)
    | none => true
  bitB (k.srv (0x100 + v / 64)) (v % 64) && bitB (k.srv (0x108 + v / 64)) (v % 64) &&
    decide (bitsN ctl 3 0 < cls) && above &&
    (decide (k.pl < t) || (decide (k.pl = t) && (k.ie t false || anyIe) && !k.shb))

/-- The highest-numbered accepted physical vector below a bound. -/
def Core.takeVec (k : Core) (anyIe : Bool) : Nat → Option Nat
  | 0 => none
  | n + 1 => if k.accepts n anyIe then some n else Core.takeVec k anyIe n

/-- The current guest slot, when vslot_cur.VALID = 1. -/
def Core.slotCur (k : Core) : Option Nat :=
  if bitB (k.srv 0x120) 4 then some (bitsN (k.srv 0x120) 3 0) else none

/-- Whether posted vector v of the current slot is accepted (R219). -/
def State.acceptsPosted (s : State) (c v : Nat) (anyIe : Bool) : Bool :=
  let k := s.core c
  match k.slotCur with
  | none => false
  | some sl =>
    let cls := v / 32
    let ctl := s.rdCsr (s.slotAddr c sl 0x80)
    let above : Bool := match highBit (bitsN ctl 45 30) 16 with
      | some j => decide (j < cls)
      | none => true
    k.vf && bitB (s.rdCsr (s.slotAddr c sl (8 * (v / 64)))) (v % 64) &&
      bitB (s.rdCsr (s.slotAddr c sl (0x40 + 8 * (v / 64)))) (v % 64) &&
      decide (bitsN ctl 29 26 < cls) && above &&
      (decide (k.pl = 0) || (decide (k.pl = 1) && (k.ie 1 true || anyIe) && !k.shb))

/-- The highest-numbered accepted posted vector below a bound. -/
def State.takePosted (s : State) (c : Nat) (anyIe : Bool) : Nat → Option Nat
  | 0 => none
  | n + 1 => if s.acceptsPosted c n anyIe then some n else State.takePosted s c anyIe n

/-- A detector sends a fault report to the DSE (R430). -/
def State.report (s : State) (unit index loc sev detail : Nat) : State :=
  { s with reports := s.reports ++ [{ unit := unit, index := index, loc := loc, sev := sev, detail := detail, time := s.ctime.toNat }] }

/-- Whether the self-test of a unit runs (R431). -/
def State.testing (s : State) (unit index : Nat) : Bool :=
  s.ras.tests.any (fun x => decide (x.rep.unit = unit ∧ x.rep.index = index))

/-! ## Counting retired work (R372-R374, R377, R378, R384) -/

/-- What a sample record says of an instruction (Table 13.6). -/
structure Samp where
  pc : Word := 0
  va : Word := 0
  pa : Nat := 0
  src : Nat := 0
  elem : Nat := 0
  load : Bool := false

/-- A sample record put into the core's write queue, or dropped and counted when the ring or the queue is full (R377). -/
def Core.pushSample (k : Core) (r : List Word) : Core :=
  let size := 2 ^ bitsN (k.srv 0x330) 4 0
  let tail := (k.srv 0x332).toNat
  let head := (k.srv 0x331).toNat
  if (tail + 1) % size = head ∨ 4 ≤ k.sampQ.length then
    { (k.setSr 0x334 (BitVec.ofNat 64 (satN 32 ((k.srv 0x334).toNat + 1)))) with sampDrop := k.sampDrop + 1 }
  else { k with sampQ := k.sampQ ++ [r] }

/-- Word 0 of a sample record (Table 13.6). -/
def sampWord0 (type ctr pl : Nat) (v : Bool) (src elem lcore vmid asid : Nat) : Word :=
  BitVec.ofNat 64 (type + ctr * 2 ^ 4 + pl * 2 ^ 7 + (if v then 2 ^ 9 else 0) + src * 2 ^ 10 + elem * 2 ^ 15 +
    lcore * 2 ^ 20 + vmid * 2 ^ 30 + asid * 2 ^ 39)

/-- The precise sample of counter n (R378): LAT and RLAT are timing, and whether a hit was in the L1 or the L2 and whether
the L1 TLB missed is not kept, so these are free values. -/
def State.preciseSample (s : State) (c n pl : Nat) (v : Bool) (x : Samp) : State :=
  let k := s.core c
  if bitB (k.srv 0x333) 0 then
    let lat := (Config.freeWord s.free).toNat % 2 ^ 32
    let lat' := if x.load then lat else lat / 2 ^ 16 * 2 ^ 16
    let src := if x.src = 2 then 2 + (Config.freeWord s.free).toNat / 2 ^ 32 % 2 else x.src
    let r : List Word :=
      [putB (sampWord0 1 n pl v src x.elem c (if v then bitsN (k.srv 0x210) 8 0 else 0) (bitsN (k.srv (bk v 0x201)) 15 0)) 14
         (x.load && bitB (Config.freeWord s.free) 40),
        x.pc, x.va, BitVec.ofNat 64 x.pa,
        BitVec.ofNat 64 (lat' + bitsN (k.srv (0x310 + n)) 7 0 * 2 ^ 32), s.ctime, 0, 0]
    (s.bump).modCore c (fun k => k.pushSample r)
  else s

/-- Whether counter n counts an event of the list at a level and guest flag (Table 13.2, R383). -/
def Core.counts (k : Core) (n : Nat) (evs : List Nat) (pl : Nat) (v : Bool) : Bool :=
  let e := k.srv (0x310 + n)
  let vm := k.srv 0x318
  bitB (k.srv 0x301) 0 && bitB e 16 && evs.contains (bitsN e 7 0) && bitB e (8 + pl) &&
    (if bitB vm n then v && decide (bitsN (k.srv 0x210) 8 0 = bitsN vm 16 8)
     else if v then bitB e 13 else bitB e 12)

/-- The interrupt of an overflow of counter n: the guest's posted vector, or pmu_ctl.VECTOR (R374, R384). -/
def State.ovfInt (s : State) (c n : Nat) : State :=
  let k := s.core c
  let vm := k.srv 0x318
  match k.slotCur with
  | some sl =>
    if bitB vm n && k.vf && bitB vm 26 then
      let gv := bitsN vm 25 17
      s.putFlag (s.slotAddr c sl (8 * (gv / 64))) (gv % 64) true
    else s.modCore c (fun k => k.setPend (bitsN (k.srv 0x301) 10 2))
  | none => s.modCore c (fun k => k.setPend (bitsN (k.srv 0x301) 10 2))

/-- What a wrap of counter n does, but for precise sampling: its bit of pmu_ovf, the interrupt, and the stop of the counters (R374). -/
def State.wrapped (s : State) (c n : Nat) : State :=
  let k := s.core c
  let s1 := s.modCore c (fun k => k.setSr 0x302 (putB (k.srv 0x302) n true))
  let s2 := if bitB (k.srv (0x310 + n)) 14 then s1.ovfInt c n else s1
  if bitB (k.srv 0x301) 11 then s2.modCore c (fun k => k.setSr 0x301 (putB (k.srv 0x301) 0 false)) else s2

/-- Counter n adds 1, with the effects of a wrap (R374). -/
def State.bumpCounter (s : State) (c n pl : Nat) (v : Bool) (x : Samp) : State :=
  let k := s.core c
  let cnt := k.srv (0x308 + n) + 1
  let s1 := s.modCore c (fun k => k.setSr (0x308 + n) cnt)
  if cnt = 0 then
    let s2 := s1.wrapped c n
    if bitB (k.srv (0x310 + n)) 15 then
      (s2.modCore c (fun k => k.setSr (0x308 + n) (k.srv (0x320 + n)))).preciseSample c n pl v x
    else s2
  else s1

/-- The counters from n upward that count an event of the list each add 1. -/
def State.countFrom (s : State) (c : Nat) (evs : List Nat) (pl : Nat) (v : Bool) (x : Samp) : List Nat → State
  | [] => s
  | n :: ns =>
    State.countFrom (if (s.core c).counts n evs pl v then s.bumpCounter c n pl v x else s) c evs pl v x ns

/-- The speculative events (Table 13.3) that count cycles, slots, or what wrong paths may add to. -/
def specEvents : List Nat :=
  [0x00, 0x10, 0x11, 0x12, 0x13, 0x14, 0x15, 0x16, 0x17, 0x18, 0x19, 0x1A, 0x1B, 0x1C, 0x1E, 0x1F, 0x20, 0x21, 0x22, 0x23, 0x24, 0x25, 0x26]

/-- How much a speculative event has counted since the last count: free amounts, of which the six slots of each cycle outside WFI are
divided among the five reasons, at least one of them renamed (R375); b selects the draw (log entry 89). -/
def specGrow (b ev : Nat) : Nat :=
  let f (k : Nat) : Nat := (Config.freeWord (b + 2 ^ 64 * (0x800 + k))).toNat % 2 ^ 60
  let n := f 0x20 + 1
  let a1 := f 0x21 % (6 * n) + 1
  let a2 := f 0x22 % (6 * n - a1 + 1)
  let a3 := f 0x23 % (6 * n - a1 - a2 + 1)
  let a4 := f 0x24 % (6 * n - a1 - a2 - a3 + 1)
  match ev with
  | 0x00 => n + f 0x26
  | 0x20 => 6 * n
  | 0x21 => a1
  | 0x22 => a2
  | 0x23 => a3
  | 0x24 => a4
  | 0x25 => 6 * n - a1 - a2 - a3 - a4
  | k => f k

/-- Counter n of a speculative event grows, with the effects of a wrap (R373, R374). -/
def State.growCounter (s : State) (c n b : Nat) : State :=
  let k := s.core c
  let sum := (k.srv (0x308 + n)).toNat + specGrow b (bitsN (k.srv (0x310 + n)) 7 0)
  let s1 := s.modCore c (fun k => k.setSr (0x308 + n) (BitVec.ofNat 64 sum))
  if 2 ^ 64 ≤ sum then s1.wrapped c n else s1

/-- The counters of speculative events grow. -/
def State.growFrom (s : State) (c pl : Nat) (v : Bool) (b : Nat) : List Nat → State
  | [] => s
  | n :: ns => State.growFrom (if (s.core c).counts n specEvents pl v then s.growCounter c n b else s) c pl v b ns

/-- Events are counted at a level and guest flag (R373), unless Keystone has frozen the counters (R386); with them come those that
occurred meanwhile. -/
def State.count (s : State) (c : Nat) (evs : List Nat) (pl : Nat) (v : Bool) (x : Samp := {}) : State :=
  if bitB (s.rdCsr (keyBase + 0x10)) 32 then s
  else if (List.range 8).any (fun n => (s.core c).counts n specEvents pl v) then
    ((s.countFrom c evs pl v x (List.range 8)).growFrom c pl v s.free (List.range 8)).bump
  else s.countFrom c evs pl v x (List.range 8)

/-- Core events (Table 13.3). -/
abbrev evInst : Nat := 0x01
abbrev evBr : Nat := 0x02
abbrev evBrMisp : Nat := 0x03
abbrev evLd : Nat := 0x04
abbrev evSt : Nat := 0x05
abbrev evAtom : Nat := 0x06
abbrev evScFail : Nat := 0x07
abbrev evVec : Nat := 0x08
abbrev evVecHeavy : Nat := 0x09
abbrev evFp : Nat := 0x0A
abbrev evTrap : Nat := 0x0B
abbrev evInt : Nat := 0x0C
abbrev evRefill : Nat := 0x0D
abbrev evModify : Nat := 0x0E

/-- The hold on a load-linked's line after an instruction retires: it ends with an instruction that a constrained loop
does not hold, or with the sixteenth (R142). -/
def Core.holdStep (k : Core) (plain : Bool) : Core :=
  match k.hold with
  | none => k
  | some n => { k with hold := if plain && decide (n + 1 < 16) then some (n + 1) else none }

/-- A group of a lockstepped pair commits: STREAK returns to 0 (R284). -/
def State.commit (s : State) (c : Nat) : State :=
  if s.profile = 2 ∧ s.fld (s.tileOf c + 0x10080) 33 32 ≠ 0 then s.putFld (s.tileOf c + 0x10080) 33 32 0 else s

/-- An instruction of core c retires: its events are counted at the level it ran at, over the state its effect left. -/
def State.retire (s : State) (c : Nat) (evs : List Nat) (plain : Bool := false) (x : Samp := {}) : State :=
  ((s.commit c).modCore c (fun k => k.holdStep plain)).count c (evInst :: evs) (s.core c).pl (s.core c).vf x

/-- An instruction changes its core's state by f, the pc advances and the instruction retires. -/
def State.fin (s : State) (c : Nat) (evs : List Nat) (plain : Bool) (f : Core → Core) : State :=
  (s.modCore c (fun k => (f k).adv)).retire c evs plain { pc := (s.core c).pc }

/-- WFI ends when a vector would be accepted, or would be if every IE were 1 (Table 7.13). -/
def State.wake (s : State) (c : Nat) : State :=
  let k := s.core c
  if k.run = .wfi then
    if (k.takeVec true 512).isSome || (s.takePosted c true 512).isSome then
      (s.modCore c (fun k => { k with run := .running })).fin c [] false id
    else s
  else s

/-- Physical vector v is pended on a core (R217); a core whose number is MOVING holds it (R221). -/
def State.pend (s : State) (c v : Nat) : State :=
  if s.lcState c = 2 then s.modCore c (fun k => { k with heldMsi := k.heldMsi ++ [{ slot := none, vec := v, fwd := false, router := 0, agent := 0, addr := 0 }] })
  else (s.modCore c (fun k => k.setPend v)).wake c

/-! ## Taking an exception (R205-R212, R216) -/

/-- An exception, error trap or interrupt as it is taken: its code, the trap address, the fields of tinfo, the tcause
bits above the code, the vector element that raised it, and the GPA of an S2_REFILL with its s2_cause. -/
structure Exc where
  code : Nat
  addr : Word := 0
  info : Word := 0
  hi : Nat := 0
  elem : Option Nat := none
  s2cause : Word := 0

/-- The classes of traps (Table 7.6). -/
def Exc.isErr (e : Exc) : Bool := e.code == 0x18 || e.code == 0x19 || e.code == 0x1A
def Exc.isInt (e : Exc) : Bool := e.code == 0x20

/-- tinfo of a memory access (Table 7.5): STATUS, ACC, PAGE2, ELEM. -/
def tinfoOf (status acc : Nat) (page2 : Bool) (elem : Nat) : Word :=
  BitVec.ofNat 64 (status + acc * 2 ^ 8 + (if page2 then 2 ^ 10 else 0) + elem * 2 ^ 11)

/-- Level and guest flag at which a code is taken (R206). -/
def Core.route (k : Core) (code pl : Nat) (v : Bool) : Nat × Bool :=
  let d := if code = 0x0F then 0x04 else code
  let t0 : Nat :=
    if code = 0x0D then 3
    else if code = 0x10 then 2
    else
      let t1 := if bitB (k.srv 0x050) d then 2 else 3
      if t1 = 2 ∧ code ≠ 0x0C then
        if !v && bitB (k.srv 0x051) d then 1
        else if v && bitB (k.srv 0x052) d then 1
        else 2
      else t1
  let t2 := if k.eip && (code == 0x18 || code == 0x19 || code == 0x1A) then 3 else t0
  let t := max t2 pl
  (t, t == 1 && v)

/-- The entry of the vector table of level t at an offset (R209, Table 7.10). -/
def Core.vecPc (k : Core) (t : Nat) (g : Bool) (off : Nat) : Word :=
  let vb := k.srv (bk g (16 * t + 5))
  if bitB vb 0 then BitVec.ofNat 64 (framBase + 0x1000 * bitsN vb 13 12 + off)
  else (vb &&& ~~~ (0xFFF : Word)) + BitVec.ofNat 64 off

/-- status with PL, V, SHB, EIP set. -/
def statusWith (w : Word) (pl : Nat) (v shb eip : Bool) : Word :=
  putB (putB (putB (putW w 1 0 pl) 2 v) 3 shb) 8 eip

/-- PL, V, SHB, IE_t and EIP as tstatus holds them (Table 7.4). -/
def Core.packStatus (k : Core) (t : Nat) (g withShb : Bool) : Word :=
  BitVec.ofNat 64 (k.pl + (if k.vf then 4 else 0) + (if withShb && k.shb then 8 else 0) +
    (if k.ie t g then 16 else 0) + (if k.eip then 32 else 0))

/-- IE of a level set in its copy of status. -/
def Core.setIe (k : Core) (t : Nat) (g b : Bool) : Core := k.setSr (bk g 0) (putB (k.srv (bk g 0)) (3 + t) b)
/-- PL, V, SHB and EIP set. -/
def Core.setLevel (k : Core) (pl : Nat) (v shb eip : Bool) : Core :=
  k.setSr 0 (statusWith k.status pl v shb eip)

/-- The predictors and the store-wait table as a cold reset leaves them (R279). -/
def Core.pflush (k : Core) : Core := { k with ctr := [], hist := 0, rstack := [], btb := [], zb := [], swait := [] }

/-- TILE_PIPECFG.AUTO_PFLUSH of a logical core (R280). -/
def State.autoPflush (s : State) (c : Nat) : Bool := s.flag (s.tileOf c + 0x10040 + 8 * s.posOf c) 0

/-- The predictor flush of a change of PL or V (R280). -/
def State.levelChange (s : State) (c pl : Nat) (v : Bool) : State :=
  if s.autoPflush c && (decide ((s.core c).pl ≠ pl) || ((s.core c).vf != v)) then s.modCore c Core.pflush else s

/-- velem after a trap taken at guest flag g (Table 10.1). -/
def Core.setVelem (k : Core) (g : Bool) (elem : Option Nat) : Core :=
  match elem with
  | some i => k.setSr (bk g 0x402) (BitVec.ofNat 64 (i % 32 + 32))
  | none => k.setSr (bk g 0x402) (putB (k.srv (bk g 0x402)) 5 false)

/-- Trap entry other than the refill entry (R207), at level t with guest flag g. -/
def Core.trapAt (k : Core) (t : Nat) (g : Bool) (e : Exc) : Core :=
  let b := 16 * t
  let k1 := k.setSr (bk g (b + 1)) k.pc
  let k2 := k1.setSr (bk g (b + 4)) (k.packStatus t g true)
  let k3 := k2.setSr (bk g b) (BitVec.ofNat 64 (e.code + e.hi * 2 ^ 8))
  let k4 := k3.setSr (bk g (b + 2)) e.addr
  let k5 := k4.setSr (bk g (b + 3)) e.info
  let k6 := if e.code = 0x10 then k5.setSr 0x213 e.s2cause else k5
  let k7 := (k6.setIe t g false).setLevel t g false (k.eip || e.isErr)
  let k8 := if e.isInt then k7 else k7.setVelem g e.elem
  let off := if e.isInt then 0x200 else if e.isErr then 0x300 else 0x100
  { k8 with resv := none, hold := none, pc := k.vecPc t g off }

/-- Whether a hint serves an address in the current regime (R238, R239). -/
def Core.hintHits (k : Core) (va : Nat) (h : Hint) : Bool :=
  h.guest == k.vf && (!k.vf || h.vmid == bitsN (k.srv 0x210) 8 0) &&
    (h.asid == none || h.asid == some (bitsN (k.srv (bk k.vf 0x201)) 15 0)) && h.region == va / 2 ^ 21 % 2 ^ 36

/-- The level-4 table that the hint cache gives for an address. -/
def Core.hintOf (k : Core) (va : Nat) : Option Nat := (k.hints.find? (k.hintHits va)).map (fun h => h.table)

/-- The hint cache with the hint of an address most recent (R239). -/
def Core.touchHint (k : Core) (va : Nat) : List Hint :=
  match k.hints.find? (k.hintHits va) with
  | some h => h :: takeOut h k.hints
  | none => k.hints

/-- walk_hint for a refill at an address (R238). -/
def Core.walkHint (k : Core) (va : Nat) : Word :=
  match k.hintOf va with
  | some table => BitVec.ofNat 64 (table + 8 * (va / 2 ^ 12 % 512) + 4 * 2 ^ 60 + 2 ^ 63)
  | none =>
    let root := k.srv (bk k.vf 0x202)
    if bitB root 0 then BitVec.ofNat 64 (bitsN root 51 12 * 2 ^ 12 + 8 * (va / 2 ^ 48 % 512))
    else BitVec.ofNat 64 (7 * 2 ^ 60)

/-- The refill entry (R216, R238), at level t with guest flag g. -/
def Core.refillAt (k : Core) (t : Nat) (g : Bool) (e : Exc) : Core :=
  let va := e.addr.toNat
  let hint := k.walkHint va
  let asid := bitsN (k.srv (bk k.vf 0x201)) 15 0
  let k1 := k.setSr (bk g 0x040) k.pc
  let k2 := k1.setSr (bk g 0x041) (k.packStatus t g false)
  let k3 := k2.setSr (bk g 0x042) e.addr
  let k4 := k3.setSr (bk g 0x208) (BitVec.ofNat 64 (asid + (va / 2 ^ 12 % 2 ^ 45) * 2 ^ 19))
  let k5 := k4.setSr (bk g 0x203) hint
  let k6 := (k5.setLevel t g true k.eip).setVelem g e.elem
  { k6 with hints := k.touchHint va, resv := none, hold := none, pc := k.vecPc t g 0 }

/-- A trap taken by a core (R206, R207, R212, R216): the refill entry for a TLB_REFILL outside a refill handler, a stop
with a fault report for an error trap at PL3 with EIP = 1 (R439), the general entry otherwise. -/
def State.trap (s : State) (c : Nat) (e : Exc) : State :=
  let k := s.core c
  if k.pl = 3 && k.eip && e.isErr then (s.modCore c (fun k => { k with run := .stopped, resv := none })).report 0x01 (s.phys c) 0 2 0
  else
    let e' : Exc := if e.code = 0x04 ∧ k.shb = true then { e with code := 0x0F } else e
    let (t, g) := k.route e'.code k.pl k.vf
    let evs : List Nat :=
      if e'.isInt then [evInt]
      else if e'.code = 0x04 ∨ e'.code = 0x0F then [evTrap, evRefill]
      else if e'.code = 0x08 then [evTrap, evModify]
      else [evTrap]
    let s1 := s.levelChange c t g
    let s2 := s1.modCore c (fun k => if e'.code = 0x04 then k.refillAt t g e' else k.trapAt t g e')
    s2.count c evs k.pl k.vf { pc := k.pc }

/-- A trap that R200 sends to PL2 whatever the delegation holds: PRIV_INSTR. -/
def State.trapPl2 (s : State) (c : Nat) (e : Exc) : State :=
  let k := s.core c
  let t := max 2 k.pl
  ((s.levelChange c t false).modCore c (fun k => k.trapAt t false e)).count c [evTrap] k.pl k.vf { pc := k.pc }

/-- Trap return (R208). -/
def Core.tret (k : Core) : Core :=
  let t := k.pl
  let g := k.vf && decide (t = 1)
  let w := if k.shb then k.srv (bk g 0x041) else k.srv (bk g (16 * t + 4))
  let target := if k.shb then k.srv (bk g 0x040) else k.srv (bk g (16 * t + 1))
  let shb := if k.shb then false else bitB w 3
  let k1 := (k.setIe t g (bitB w 4)).setLevel (bitsN w 1 0) (bitB w 2) shb (bitB w 5)
  { k1 with resv := none, hold := none, pc := target }

/-- A store's failure latched (R212). -/
def Core.latchErr (k : Core) (pa status : Nat) : Core :=
  let e := k.srv 0x071
  if bitB e 16 then k.setSr 0x071 (putW e 15 8 (min 255 (bitsN e 15 8 + 1)))
  else
    { ((k.setSr 0x070 (BitVec.ofNat 64 (pa % 2 ^ 52))).setSr 0x071 (BitVec.ofNat 64 (status % 256 + 2 ^ 16))) with errStore := true }

/-! ## The instruction boundary (R211) -/

/-- A physical interrupt taken (R219): its pending bit cleared, its class in service, the trap at its level. -/
def State.takeInt (s : State) (c v : Nat) : State :=
  let k := s.core c
  let t := k.intLevel (v / 32)
  let s1 := s.modCore c (fun k =>
    (k.setSr (0x100 + v / 64) (putB (k.srv (0x100 + v / 64)) (v % 64) false)).setSr 0x110 (putB (k.srv 0x110) (4 + v / 32) true))
  ((s1.levelChange c t false).modCore c (fun k => k.trapAt t false { code := 0x20, hi := v })).count c [evInt] k.pl k.vf
    { pc := k.pc }

/-- A posted interrupt taken at the guest kernel (R219). -/
def State.takePost (s : State) (c v : Nat) : State :=
  let k := s.core c
  match k.slotCur with
  | none => s
  | some sl =>
    let s1 := (s.putFlag (s.slotAddr c sl (8 * (v / 64))) (v % 64) false).putFlag (s.slotAddr c sl 0x80) (30 + v / 32) true
    ((s1.levelChange c 1 true).modCore c (fun k => k.trapAt 1 true { code := 0x20, hi := v + 2 ^ 9 })).count c [evInt] k.pl k.vf
      { pc := k.pc }

/-- Whether an error trap may be taken now: while SHB = 1 only at a higher level (R211). -/
def Core.errOk (k : Core) (code : Nat) : Bool := !k.shb || decide (k.pl < (k.route code k.pl k.vf).1)

/-- Whether a physical vector is pending and enabled. -/
def Core.anyPend (k : Core) : Bool := (List.range 8).any (fun w => decide (k.srv (0x100 + w) &&& k.srv (0x108 + w) ≠ 0))

/-- The trap that a core takes at an instruction boundary before the next instruction: the first that applies of ERR_CORE,
ERR_STORE, a physical and a posted interrupt (R211). -/
def State.dueTrap (s : State) (c : Nat) : Option State :=
  let k := s.core c
  if k.errCore && k.errOk 0x1A then
    some ((s.modCore c (fun k => { k with errCore := false })).trap c { code := 0x1A })
  else if k.errStore && k.errOk 0x19 then
    some ((s.modCore c (fun k => { k with errStore := false })).trap c
      { code := 0x19, addr := k.srv 0x070, info := tinfoOf (bitsN (k.srv 0x071) 7 0) 0 false 0 })
  else match (if k.anyPend then k.takeVec false 512 else none) with
    | some v => some (s.takeInt c v)
    | none => (if k.vf && k.slotCur.isSome then s.takePosted c false 512 else none).map (s.takePost c)

/-- An instruction of a running core: a core that does not retire instructions is unchanged, and so is one that waits for the
answer of a far atomic; a trap that is due is taken in place of the instruction (R211). -/
def State.run (s : State) (c : Nat) (f : State) : State :=
  if (s.core c).run = .running ∧ (s.core c).far = none then
    match s.dueTrap c with
    | some t => t
    | none => f
  else s

/-- The outcome of a command. -/
abbrev Out := Host.Outcome State Fault Refusal

/-- ILLEGAL_INSTR (R174). -/
def State.illegal (s : State) (c : Nat) : State := s.trap c { code := 0x01 }
/-- PRIV_INSTR (R203). -/
def State.priv (s : State) (c : Nat) : State := s.trap c { code := 0x02 }

end Sys2Proof.Machine
end

