-- ==== Sys2Proof/Machine/Operands.lean ====
section
/-! DEFINITION. Operand forms: immediates (R173), branch targets, sizes (Table 6.11), addresses (R182, R188). -/

namespace Sys2Proof.Machine
open Sys2Proof

/-- A sign-extended I-format immediate (R173). -/
def immS (i : BitVec 17) : Word := sext i
/-- A zero-extended I-format immediate (ORI, XORI). -/
def immZ (i : BitVec 17) : Word := zext i
/-- Target of a B-format branch at pc (R173). -/
def brTarget (pc : Word) (off : BitVec 12) : Word := pc + sext off * 4
/-- Target of a J-format jump at pc (R173). -/
def jTarget (pc : Word) (off : BitVec 27) : Word := pc + sext off * 4
/-- Bytes of a SIZE field (Table 6.11). -/
def sizeOf' (sz : BitVec 2) : Nat := 2 ^ sz.toNat
/-- Address of a load or store: ra + sext(imm) (R182). -/
def Core.ea (k : Core) (ra : Nat) (imm : BitVec 17) : Word := k.rd ra + immS imm
/-- A value of n bytes, sign-extended to a register. -/
def sxN (n v : Nat) : Word :=
  if n = 1 then sext (BitVec.ofNat 8 v) else if n = 2 then sext (BitVec.ofNat 16 v)
  else if n = 4 then sext (BitVec.ofNat 32 v) else BitVec.ofNat 64 v
/-- A 32-bit result, sign-extended to a register. -/
def w32 (x : Word) : Word := sext (x.setWidth 32)
/-- The low n bytes of a register as a number. -/
def lowN (n : Nat) (x : Word) : Nat := x.toNat % 256 ^ n

end Sys2Proof.Machine
end

