-- ==== Sys2Proof/Machine/Alu.lean ====
section
/-! DEFINITION. Integer instructions (06_panath_base_isa.md, R173 to R178). -/

namespace Sys2Proof.Machine
open Sys2Proof

/-- An integer instruction: rd takes f of the core, the pc advances (R176: no exception). -/
def State.alu (s : State) (c rd : Nat) (f : Core → Word) : Out :=
  .next (s.run c (s.fin c [] true (fun k => k.wr rd (f k))))

/-! ## The operations -/

/-- A shift on the low 32 bits, the result sign-extended (Table 6.5, Table 6.6). -/
def shlW (x : Word) (n : Nat) : Word := sext (x.setWidth 32 <<< n)
def shrW (x : Word) (n : Nat) : Word := sext (x.setWidth 32 >>> n)
def sarW (x : Word) (n : Nat) : Word := sext ((x.setWidth 32).sshiftRight n)
/-- A rotation right by n, 0..63 (Table 6.5). -/
def rorW (x : Word) (n : Nat) : Word := (x >>> n) ||| (x <<< (64 - n))
/-- Leading zero bits among the low n bits. -/
def clzN (x : Word) : Nat → Nat
  | 0 => 0
  | n + 1 => if bitB x n then 0 else 1 + clzN x n
/-- Trailing zero bits from bit 64 - n upward. -/
def ctzN (x : Word) : Nat → Nat
  | 0 => 0
  | n + 1 => if bitB x (63 - n) then 0 else 1 + ctzN x n
/-- One bits among the low n bits. -/
def popN (x : Word) : Nat → Nat
  | 0 => 0
  | n + 1 => (if bitB x n then 1 else 0) + popN x n
/-- The 8 bytes reversed. -/
def bswapW (x : Word) : Word :=
  x.extractLsb' 0 8 ++ x.extractLsb' 8 8 ++ x.extractLsb' 16 8 ++ x.extractLsb' 24 8 ++
    x.extractLsb' 32 8 ++ x.extractLsb' 40 8 ++ x.extractLsb' 48 8 ++ x.extractLsb' 56 8
/-- Bits [127:64] of a product of integers (MULH forms). -/
def mulHi (a b : Int) : Word := BitVec.ofInt 64 (a * b / 2 ^ 64)
/-- R178, signed quotient: all ones for a zero divisor, the dividend for the overflow, else rounded toward zero. -/
def divS {n : Nat} (a b : BitVec n) : BitVec n :=
  if b = 0 then BitVec.allOnes n
  else if a = BitVec.intMin n ∧ b = BitVec.allOnes n then a
  else BitVec.ofInt n (a.toInt.tdiv b.toInt)
/-- R178, unsigned quotient. -/
def divU {n : Nat} (a b : BitVec n) : BitVec n := if b = 0 then BitVec.allOnes n else BitVec.ofNat n (a.toNat / b.toNat)
/-- R178, signed remainder: the sign of the dividend. -/
def remS {n : Nat} (a b : BitVec n) : BitVec n :=
  if b = 0 then a
  else if a = BitVec.intMin n ∧ b = BitVec.allOnes n then 0
  else BitVec.ofInt n (a.toInt.tmod b.toInt)
/-- R178, unsigned remainder. -/
def remU {n : Nat} (a b : BitVec n) : BitVec n := if b = 0 then a else BitVec.ofNat n (a.toNat % b.toNat)
/-- The low 32 bits of a register. -/
abbrev lo32 (x : Word) : BitVec 32 := x.setWidth 32

/-! ## Immediate forms (Table 6.4) -/

/-- ADDI. rd := ra + imm, modulo 2^64. -/
def execAddi (c : CoreId) (rd ra : Reg) (imm : BitVec 17) (s : State) : Out :=
  s.alu c rd (fun k => k.rd ra + immS imm)
/-- ANDI. rd := ra and imm, sign-extended. -/
def execAndi (c : CoreId) (rd ra : Reg) (imm : BitVec 17) (s : State) : Out :=
  s.alu c rd (fun k => k.rd ra &&& immS imm)
/-- ORI. rd := ra or imm, zero-extended. -/
def execOri (c : CoreId) (rd ra : Reg) (imm : BitVec 17) (s : State) : Out :=
  s.alu c rd (fun k => k.rd ra ||| immZ imm)
/-- XORI. rd := ra xor imm, zero-extended. -/
def execXori (c : CoreId) (rd ra : Reg) (imm : BitVec 17) (s : State) : Out :=
  s.alu c rd (fun k => k.rd ra ^^^ immZ imm)
/-- SLTI. rd := 1 when ra < imm as signed numbers. -/
def execSlti (c : CoreId) (rd ra : Reg) (imm : BitVec 17) (s : State) : Out :=
  s.alu c rd (fun k => b2w ((k.rd ra).slt (immS imm)))
/-- SLTIU. rd := 1 when ra < imm as unsigned numbers, imm sign-extended. -/
def execSltiu (c : CoreId) (rd ra : Reg) (imm : BitVec 17) (s : State) : Out :=
  s.alu c rd (fun k => b2w ((k.rd ra).ult (immS imm)))

/-! ## Shifts by immediate (Table 6.5) -/

/-- SLLI. rd := ra shifted left by SHAMT. -/
def execSlli (c : CoreId) (rd ra : Reg) (sh : BitVec 6) (s : State) : Out :=
  s.alu c rd (fun k => k.rd ra <<< sh.toNat)
/-- SRLI. rd := ra shifted right by SHAMT, logical. -/
def execSrli (c : CoreId) (rd ra : Reg) (sh : BitVec 6) (s : State) : Out :=
  s.alu c rd (fun k => k.rd ra >>> sh.toNat)
/-- SRAI. rd := ra shifted right by SHAMT, arithmetic. -/
def execSrai (c : CoreId) (rd ra : Reg) (sh : BitVec 6) (s : State) : Out :=
  s.alu c rd (fun k => (k.rd ra).sshiftRight sh.toNat)
/-- RORI. rd := ra rotated right by SHAMT. -/
def execRori (c : CoreId) (rd ra : Reg) (sh : BitVec 6) (s : State) : Out :=
  s.alu c rd (fun k => rorW (k.rd ra) sh.toNat)
/-- SLLIW. ra[31:0] shifted left, sign-extended. SHAMT[5] = 1 is illegal (R174). -/
def execSlliw (c : CoreId) (rd ra : Reg) (sh : BitVec 6) (s : State) : Out :=
  if sh.toNat < 32 then s.alu c rd (fun k => shlW (k.rd ra) sh.toNat)
  else .next (s.run c (s.illegal c))
/-- SRLIW. ra[31:0] shifted right, logical, sign-extended. SHAMT[5] = 1 is illegal (R174). -/
def execSrliw (c : CoreId) (rd ra : Reg) (sh : BitVec 6) (s : State) : Out :=
  if sh.toNat < 32 then s.alu c rd (fun k => shrW (k.rd ra) sh.toNat)
  else .next (s.run c (s.illegal c))
/-- SRAIW. ra[31:0] shifted right, arithmetic, sign-extended. SHAMT[5] = 1 is illegal (R174). -/
def execSraiw (c : CoreId) (rd ra : Reg) (sh : BitVec 6) (s : State) : Out :=
  if sh.toNat < 32 then s.alu c rd (fun k => sarW (k.rd ra) sh.toNat)
  else .next (s.run c (s.illegal c))

/-! ## Constants (R177) -/

/-- LI. rd := sext(imm). -/
def execLi (c : CoreId) (rd : Reg) (imm : BitVec 22) (s : State) : Out :=
  s.alu c rd (fun k => sext imm)
/-- LSI. rd := (rd << 22) or zext(imm). -/
def execLsi (c : CoreId) (rd : Reg) (imm : BitVec 22) (s : State) : Out :=
  s.alu c rd (fun k => (k.rd rd <<< 22) ||| zext imm)
/-- PCOFF. rd := pc + (sext(imm) << 10). -/
def execPcoff (c : CoreId) (rd : Reg) (imm : BitVec 22) (s : State) : Out :=
  s.alu c rd (fun k => k.pc + (sext imm <<< 10))

/-! ## Register forms (Table 6.6) -/

/-- ADD. rd := ra + rb. -/
def execAdd (c : CoreId) (rd ra rb : Reg) (s : State) : Out :=
  s.alu c rd (fun k => k.rd ra + k.rd rb)
/-- SUB. rd := ra - rb. -/
def execSub (c : CoreId) (rd ra rb : Reg) (s : State) : Out :=
  s.alu c rd (fun k => k.rd ra - k.rd rb)
/-- ADDW. rd := sext((ra + rb)[31:0]). -/
def execAddw (c : CoreId) (rd ra rb : Reg) (s : State) : Out :=
  s.alu c rd (fun k => w32 (k.rd ra + k.rd rb))
/-- SUBW. rd := sext((ra - rb)[31:0]). -/
def execSubw (c : CoreId) (rd ra rb : Reg) (s : State) : Out :=
  s.alu c rd (fun k => w32 (k.rd ra - k.rd rb))
/-- AND. rd := ra and rb. -/
def execAnd (c : CoreId) (rd ra rb : Reg) (s : State) : Out :=
  s.alu c rd (fun k => k.rd ra &&& k.rd rb)
/-- OR. rd := ra or rb. -/
def execOr (c : CoreId) (rd ra rb : Reg) (s : State) : Out :=
  s.alu c rd (fun k => k.rd ra ||| k.rd rb)
/-- XOR. rd := ra xor rb. -/
def execXor (c : CoreId) (rd ra rb : Reg) (s : State) : Out :=
  s.alu c rd (fun k => k.rd ra ^^^ k.rd rb)
/-- ANDN. rd := ra and not rb. -/
def execAndn (c : CoreId) (rd ra rb : Reg) (s : State) : Out :=
  s.alu c rd (fun k => k.rd ra &&& ~~~ k.rd rb)
/-- ORN. rd := ra or not rb. -/
def execOrn (c : CoreId) (rd ra rb : Reg) (s : State) : Out :=
  s.alu c rd (fun k => k.rd ra ||| ~~~ k.rd rb)
/-- XNOR. rd := not (ra xor rb). -/
def execXnor (c : CoreId) (rd ra rb : Reg) (s : State) : Out :=
  s.alu c rd (fun k => ~~~ (k.rd ra ^^^ k.rd rb))
/-- SLL. rd := ra << rb[5:0]. -/
def execSll (c : CoreId) (rd ra rb : Reg) (s : State) : Out :=
  s.alu c rd (fun k => k.rd ra <<< ((k.rd rb).toNat % 64))
/-- SRL. rd := ra >> rb[5:0], logical. -/
def execSrl (c : CoreId) (rd ra rb : Reg) (s : State) : Out :=
  s.alu c rd (fun k => k.rd ra >>> ((k.rd rb).toNat % 64))
/-- SRA. rd := ra >> rb[5:0], arithmetic. -/
def execSra (c : CoreId) (rd ra rb : Reg) (s : State) : Out :=
  s.alu c rd (fun k => (k.rd ra).sshiftRight ((k.rd rb).toNat % 64))
/-- ROR. rd := ra rotated right by rb[5:0]. -/
def execRor (c : CoreId) (rd ra rb : Reg) (s : State) : Out :=
  s.alu c rd (fun k => rorW (k.rd ra) ((k.rd rb).toNat % 64))
/-- SLLW. On ra[31:0] by rb[4:0], sign-extended. -/
def execSllw (c : CoreId) (rd ra rb : Reg) (s : State) : Out :=
  s.alu c rd (fun k => shlW (k.rd ra) ((k.rd rb).toNat % 32))
/-- SRLW. On ra[31:0] by rb[4:0], sign-extended. -/
def execSrlw (c : CoreId) (rd ra rb : Reg) (s : State) : Out :=
  s.alu c rd (fun k => shrW (k.rd ra) ((k.rd rb).toNat % 32))
/-- SRAW. On ra[31:0] by rb[4:0], sign-extended. -/
def execSraw (c : CoreId) (rd ra rb : Reg) (s : State) : Out :=
  s.alu c rd (fun k => sarW (k.rd ra) ((k.rd rb).toNat % 32))
/-- SLT. rd := 1 when ra < rb, signed. -/
def execSlt (c : CoreId) (rd ra rb : Reg) (s : State) : Out :=
  s.alu c rd (fun k => b2w ((k.rd ra).slt (k.rd rb)))
/-- SLTU. rd := 1 when ra < rb, unsigned. -/
def execSltu (c : CoreId) (rd ra rb : Reg) (s : State) : Out :=
  s.alu c rd (fun k => b2w ((k.rd ra).ult (k.rd rb)))
/-- MIN. Signed minimum. -/
def execMin (c : CoreId) (rd ra rb : Reg) (s : State) : Out :=
  s.alu c rd (fun k => if (k.rd rb).slt (k.rd ra) then k.rd rb else k.rd ra)
/-- MAX. Signed maximum. -/
def execMax (c : CoreId) (rd ra rb : Reg) (s : State) : Out :=
  s.alu c rd (fun k => if (k.rd ra).slt (k.rd rb) then k.rd rb else k.rd ra)
/-- MINU. Unsigned minimum. -/
def execMinu (c : CoreId) (rd ra rb : Reg) (s : State) : Out :=
  s.alu c rd (fun k => if (k.rd rb).ult (k.rd ra) then k.rd rb else k.rd ra)
/-- MAXU. Unsigned maximum. -/
def execMaxu (c : CoreId) (rd ra rb : Reg) (s : State) : Out :=
  s.alu c rd (fun k => if (k.rd ra).ult (k.rd rb) then k.rd rb else k.rd ra)
/-- SELZ. When rb = 0, rd := ra; otherwise rd is unchanged. -/
def execSelz (c : CoreId) (rd ra rb : Reg) (s : State) : Out :=
  s.alu c rd (fun k => if k.rd rb = 0 then k.rd ra else k.rd rd)
/-- SELNZ. When rb is not 0, rd := ra; otherwise rd is unchanged. -/
def execSelnz (c : CoreId) (rd ra rb : Reg) (s : State) : Out :=
  s.alu c rd (fun k => if k.rd rb = 0 then k.rd rd else k.rd ra)
/-- CLZ. Leading zero bits; 64 for 0. -/
def execClz (c : CoreId) (rd ra : Reg) (s : State) : Out :=
  s.alu c rd (fun k => BitVec.ofNat 64 (clzN (k.rd ra) 64))
/-- CTZ. Trailing zero bits; 64 for 0. -/
def execCtz (c : CoreId) (rd ra : Reg) (s : State) : Out :=
  s.alu c rd (fun k => BitVec.ofNat 64 (ctzN (k.rd ra) 64))
/-- POPC. Number of 1 bits. -/
def execPopc (c : CoreId) (rd ra : Reg) (s : State) : Out :=
  s.alu c rd (fun k => BitVec.ofNat 64 (popN (k.rd ra) 64))
/-- BSWAP. The 8 bytes reversed. -/
def execBswap (c : CoreId) (rd ra : Reg) (s : State) : Out :=
  s.alu c rd (fun k => bswapW (k.rd ra))
/-- SEXTB. rd := sext(ra[7:0]). -/
def execSextb (c : CoreId) (rd ra : Reg) (s : State) : Out :=
  s.alu c rd (fun k => sext ((k.rd ra).setWidth 8))
/-- SEXTH. rd := sext(ra[15:0]). -/
def execSexth (c : CoreId) (rd ra : Reg) (s : State) : Out :=
  s.alu c rd (fun k => sext ((k.rd ra).setWidth 16))
/-- SEXTW. rd := sext(ra[31:0]). -/
def execSextw (c : CoreId) (rd ra : Reg) (s : State) : Out :=
  s.alu c rd (fun k => sext (lo32 (k.rd ra)))
/-- ZEXTW. rd := zext(ra[31:0]). -/
def execZextw (c : CoreId) (rd ra : Reg) (s : State) : Out :=
  s.alu c rd (fun k => zext (lo32 (k.rd ra)))
/-- MUL. rd := (ra x rb)[63:0]. -/
def execMul (c : CoreId) (rd ra rb : Reg) (s : State) : Out :=
  s.alu c rd (fun k => k.rd ra * k.rd rb)
/-- MULH. rd := (ra x rb)[127:64], signed. -/
def execMulh (c : CoreId) (rd ra rb : Reg) (s : State) : Out :=
  s.alu c rd (fun k => mulHi (k.rd ra).toInt (k.rd rb).toInt)
/-- MULHU. rd := (ra x rb)[127:64], unsigned. -/
def execMulhu (c : CoreId) (rd ra rb : Reg) (s : State) : Out :=
  s.alu c rd (fun k => mulHi (k.rd ra).toNat (k.rd rb).toNat)
/-- MULHSU. rd := (ra x rb)[127:64], ra signed and rb unsigned. -/
def execMulhsu (c : CoreId) (rd ra rb : Reg) (s : State) : Out :=
  s.alu c rd (fun k => mulHi (k.rd ra).toInt (k.rd rb).toNat)
/-- MULW. rd := sext((ra x rb)[31:0]). -/
def execMulw (c : CoreId) (rd ra rb : Reg) (s : State) : Out :=
  s.alu c rd (fun k => w32 (k.rd ra * k.rd rb))
/-- DIV. R178. -/
def execDiv (c : CoreId) (rd ra rb : Reg) (s : State) : Out :=
  s.alu c rd (fun k => divS (k.rd ra) (k.rd rb))
/-- DIVU. R178. -/
def execDivu (c : CoreId) (rd ra rb : Reg) (s : State) : Out :=
  s.alu c rd (fun k => divU (k.rd ra) (k.rd rb))
/-- REM. R178. -/
def execRem (c : CoreId) (rd ra rb : Reg) (s : State) : Out :=
  s.alu c rd (fun k => remS (k.rd ra) (k.rd rb))
/-- REMU. R178. -/
def execRemu (c : CoreId) (rd ra rb : Reg) (s : State) : Out :=
  s.alu c rd (fun k => remU (k.rd ra) (k.rd rb))
/-- DIVW. R178 on 32 bits, sign-extended. -/
def execDivw (c : CoreId) (rd ra rb : Reg) (s : State) : Out :=
  s.alu c rd (fun k => sext (divS (lo32 (k.rd ra)) (lo32 (k.rd rb))))
/-- DIVUW. R178 on 32 bits, sign-extended. -/
def execDivuw (c : CoreId) (rd ra rb : Reg) (s : State) : Out :=
  s.alu c rd (fun k => sext (divU (lo32 (k.rd ra)) (lo32 (k.rd rb))))
/-- REMW. R178 on 32 bits, sign-extended. -/
def execRemw (c : CoreId) (rd ra rb : Reg) (s : State) : Out :=
  s.alu c rd (fun k => sext (remS (lo32 (k.rd ra)) (lo32 (k.rd rb))))
/-- REMUW. R178 on 32 bits, sign-extended. -/
def execRemuw (c : CoreId) (rd ra rb : Reg) (s : State) : Out :=
  s.alu c rd (fun k => sext (remU (lo32 (k.rd ra)) (lo32 (k.rd rb))))

end Sys2Proof.Machine
end

