-- ==== Sys2Proof/Machine/Csr.lean ====
section
/-! DEFINITION. Access to the chip CSRs: who may reach a block (R471, R472), what a read returns and a write changes
(R4-R8, R24, R479), the REJECT logs (R7, R473), the address error log (R23) and the snapshot pages (R385, R476). -/

namespace Sys2Proof

/-- Requester privilege (R472): status.PL, and PL0 for a guest. -/
def Requester.lvl (q : Requester) : Nat := if q.v then 0 else q.pl
/-- The DSE, or PL3 in service mode. -/
def Requester.svcOk (q : Requester) : Bool := q.dse || (q.svc && decide (q.lvl = 3))

end Sys2Proof

namespace Sys2Proof.Machine
open Sys2Proof

/-! ## Requesters and blocks -/

/-- The active DSE as a requester (R405, R406). -/
def State.dseReq (s : State) : Requester :=
  { pl := 3, v := false, svc := false, dse := true, router := routerOfStop (if s.flag dseBase 6 then 1 else 0) 15, agent := 0 }

/-- A core as a requester (R472). -/
def State.reqOf (s : State) (c : Nat) : Requester :=
  let k := s.core c
  { pl := k.pl, v := k.vf, svc := s.flag (s.tileOf c + 0x10000 + 8 * s.posOf c) 0, dse := false,
    router := routerOfTile (s.phys c / 2), agent := s.posOf c }

/-- The core record of a physical core: its logical core, or 1024 + the physical number of a core without one. -/
def State.coreOfPhys (s : State) (p : Nat) : Nat :=
  match findFrom (fun n => decide (s.phys n = p) && decide (s.lcState n ≠ 0)) 0 1024 with
  | some n => n
  | none => 1024 + p

/-- Whether an offset of a data-engine stop block lies in a BAR range, and which BAR (Table 11.9). -/
def barOf (off : Nat) : Option Nat :=
  if 0x800000 ≤ off ∧ off < 0x810000 then some 0
  else if 0xC00000 ≤ off ∧ off < 0xD00000 then some 1
  else if 0x900000 ≤ off ∧ off < 0x910000 then some 2
  else none

/-- The writable bits of a configuration register. -/
def State.cfgw (s : State) (fn off : Nat) : BitVec 32 := Map.get (cfgRst fn off) s.cfg (4096 * fn + off)
/-- Writable configuration bits set by the part. -/
def State.setCfg (s : State) (fn off : Nat) (v : BitVec 32) : State :=
  { s with cfg := Map.set (cfgRst fn off) s.cfg (4096 * fn + off) v }
/-- The address a BAR of a data-engine function holds. -/
def State.barAddr (s : State) (d bar : Nat) : Nat :=
  (s.cfgw (64 + d) (0x10 + 8 * bar)).toNat / 16 * 16 + (s.cfgw (64 + d) (0x14 + 8 * bar)).toNat * 2 ^ 32
/-- The assigned base of a BAR (Table 11.9). -/
def barBase (d bar : Nat) : Nat :=
  engBase d + (if bar = 0 then 0x800000 else if bar = 1 then 0xC00000 else 0x900000)
/-- Whether a BAR decodes (R327), and no function reset is in progress (Table 11.10). -/
def State.barOn (s : State) (d bar : Nat) : Bool :=
  (s.cfgw (64 + d) 0x04).getLsbD 1 && decide (s.barAddr d bar = barBase d bar) &&
    !(s.cfgw (64 + d) 0x68).getLsbD 21

/-- Whether a block accepts a request (Table 18.1, R472). -/
def State.csrAccepts (s : State) (pa : Nat) (write : Bool) (q : Requester) : Bool :=
  let l := q.lvl
  match region pa with
  | .tile _ off =>
    q.dse ||
    (if 0x80000 ≤ off ∧ off < 0xE0000 then q.svcOk
     else if write then
       (if (0x30000 ≤ off ∧ off < 0x41000) ∨ (0x70000 ≤ off ∧ off < 0x71000) ∨ (0xFF000 ≤ off ∧ off < 0xFF300)
        then decide (1 ≤ l)
        else if 0x50000 ≤ off ∧ off < 0x60000 then decide (3 ≤ l) else decide (2 ≤ l))
     else if 0x20000 ≤ off ∧ off < 0x24000 then decide (2 ≤ l) else decide (1 ≤ l))
  | .stop d st off =>
    match (if st = 14 then barOf off else none) with
    | some b => s.barOn d b
    | none =>
      q.dse ||
      (if (0x70000 ≤ off ∧ off < 0x71000) ∨ (8 ≤ st ∧ st < 14 ∧ 0x200000 ≤ off ∧ off < 0x200100) then decide (1 ≤ l)
       else if write && decide (0x50000 ≤ off ∧ off < 0x60000) then decide (3 ≤ l) else decide (2 ≤ l))
  | .dse off =>
    q.dse || decide (3 ≤ l) ||
      (!write && decide (1 ≤ l) && (decide (off < 8) || decide (0x10000 ≤ off ∧ off < 0x12040) ||
        decide (0x300 ≤ off ∧ off < 0x348)))
  | .pwr off => q.dse || decide (3 ≤ l) || (decide (2 ≤ l) && !decide (0x40 ≤ off ∧ off < 0x48))
  | .key _ => q.dse || decide (2 ≤ l)
  | .ras _ => q.dse || decide (2 ≤ l)
  | _ => false

/-! ## Logs -/

/-- An access of R23 is recorded in the address error log (Table 16.11). -/
def State.aerr (s : State) (pa : Nat) (write : Bool) (router agent : Nat) : State :=
  let n := s.fld (rasBase + 0x28) 3 0
  let a := rasBase + 0x2000 + 32 * n
  let full := decide (s.rdCsr a ≠ 0)
  let s1 := ((s.wrCsr a (BitVec.ofNat 64 (pa % 2 ^ 52))).wrCsr (a + 8)
    (BitVec.ofNat 64 (router % 1024 + agent % 8 * 2 ^ 10 + (if write then 2 ^ 13 else 0)))).wrCsr (a + 16) s.ctime
  let s2 := s1.putFld (rasBase + 0x28) 3 0 ((n + 1) % 16)
  if full then s2.putFlag (rasBase + 0x28) 4 true else s2

/-- A message-signalled interrupt of a unit to a physical vector (R220, R221): the outcome of R23 where the logical core is
UNASSIGNED or OFFLINE. -/
def State.sendMsi (s : State) (c v router agent : Nat) : State :=
  if s.lcState c = 0 ∨ s.lcState c = 3 then s.aerr (intBase + 0x1000 * c) true router agent else s.pend c v

/-- The message-signalled interrupt that a register of (LCORE [9:0], VECTOR [18:10], EN [19]) names is sent (R66, R95,
R259, R338, R386) by an agent of the register's stop. -/
def State.sendIrq (s : State) (a : Nat) (agent : Nat := 0) : State :=
  let router : Nat := match region a with
    | .stop d st _ => routerOfStop d st
    | _ => routerOfStop (if s.flag dseBase 6 then 1 else 0) 15
  if s.flag a 19 then s.sendMsi (s.fld a 9 0) (s.fld a 18 10) router agent else s

/-- A record for the audit ledger (R427, R428): its type, ctime, ACTOR, KEYIDX and the words of DATA. It joins the queue
of 256; beyond that it is counted as lost. -/
def State.ledgerBy (s : State) (type actor key : Nat) (info : List Nat) : State :=
  if 256 ≤ s.ledgQ.length then
    { s with dse := { s.dse with lost := Map.set 0 s.dse.lost type (Map.get 0 s.dse.lost type + 1) } }
  else { s with ledgQ := s.ledgQ ++ [type :: s.ctime.toNat :: actor :: key :: info] }

/-- A ledger record of the DSE itself. -/
def State.ledger (s : State) (type : Nat) (info : List Nat) : State := s.ledgerBy type 3 0 info

/-- The outcome of R23 for a requester. -/
def State.aerrQ (s : State) (pa : Nat) (write : Bool) (q : Requester) : State := s.aerr pa write q.router q.agent

/-- The REJECT log of a block. -/
def State.rejOf (s : State) (b : Nat) : RejLog := Map.get { ents := [], ovf := false, total := 0 } s.rej b
def State.setRej (s : State) (b : Nat) (r : RejLog) : State :=
  { s with rej := Map.set { ents := [], ovf := false, total := 0 } s.rej b r }

/-- A refusal recorded in a block's REJECT log (R7, R473): what word 0 names, the value, ctime, the cause and the
requester. -/
def State.reject (s : State) (b : Nat) (w0 v : Word) (cause : Nat) (q : Requester) : State :=
  let r := s.rejOf b
  let w3 : Word := BitVec.ofNat 64 (cause + q.router % 1024 * 2 ^ 8 + q.agent % 8 * 2 ^ 18 + q.lvl * 2 ^ 21 +
    (if q.dse then 2 ^ 23 else 0))
  let all := r.ents ++ [[w0, v, s.ctime, w3]]
  s.setRej b { ents := if 16 < all.length then all.tail else all, ovf := r.ovf || decide (16 < all.length),
               total := (r.total + 1) % 2 ^ 32 }

/-- A doubleword of a REJECT log by its offset from the log base (Table 18.2): none where no register lies. -/
def RejLog.word (r : RejLog) (off : Nat) : Option Word :=
  if off = 0 then some (BitVec.ofNat 64 (r.ents.length + (if r.ovf then 32 else 0) + r.total * 2 ^ 16))
  else if 0x100 ≤ off ∧ off < 0x300 then some ((r.ents.getD ((off - 0x100) / 32) []).getD ((off - 0x100) / 8 % 4) 0)
  else none

/-! ## Reading -/

/-- A core system register as it reads, before banking: status.SVC mirrors TILE_SVC, lcore and ctime are the part's
(R201, Table 7.7, R226). -/
def State.srVal (s : State) (c n : Nat) : Word :=
  let k := s.core c
  if n = 0x000 then putB (k.srv 0) 7 (s.flag (s.tileOf c + 0x10000 + 8 * s.posOf c) 0)
  else if n = 0x001 then
    BitVec.ofNat 64 (c + s.phys c * 2 ^ 10 + (if s.profile = 2 then 2 ^ 21 else 0))
  else if n = 0x002 then s.ctime
  else k.srv n

/-- The redirections applied in order to a slice number. -/
def State.redir (s : State) : List Nat → Nat → Nat
  | [], sl => sl
  | i :: is, sl =>
    let w := s.rdCsr (tileBase 0 + 0x40200 + 8 * i)
    State.redir s is (if bitB w 20 && decide (bitsN w 9 0 = sl) then bitsN w 19 10 else sl)

/-- The home slice of a line (R116). -/
def State.sliceOf (s : State) (line : Nat) : Nat :=
  s.redir (List.range 16) ((line % 2 ^ 16 ^^^ (line / 2 ^ 16 % 2 ^ 16) ^^^ (line / 2 ^ 32 % 2 ^ 10)) % 544)

/-- The value of a chip CSR as it reads: word 0 of DEN_INST mirrors DB_STATUS (Table 12.7), the copies of L3_REDIR and
of the home map are equal in every block (R117, R77), L3_LOCKSTAT counts the locked lines (Table 4.5), NMC_MERGE the
merge buffer's entries, PRT_TAGS what a port has outstanding and in quarantine, PRT_PWIN_STAT
the windows with reads of an old mapping, MESH_CTL the packets of the old epoch that the router's agents sent and the marks that its ports
await, SOR_CAP_STATUS shows the breach, landed data and a stall (Table 2.14), MESH_PROXY shows what its agent has outstanding (Table 5.11). -/
def State.regVal (s : State) (b : Nat) (r : RegRow) (ix : List Nat) (pa : Nat) : Word :=
  match r.id with
  | .DEN_INST => s.rdCsr (blockBase b + 0xC00018 + 0x1000 * ix.headD 0)
  | .L3_REDIR => s.rdCsr (tileBase 0 + 0x40200 + 8 * ix.headD 0)
  | .L3_HOMEMAP => s.rdCsr (tileBase 0 + 0x40100 + 8 * ix.headD 0)
  | .IOT_HOMEMAP => s.rdCsr (tileBase 0 + 0x40100 + 8 * ix.headD 0)
  | .SOR_CAP_STATUS =>
    let sv := fun a => (s.rdCsr (rasBase + a)).toNat
    putB (putB (putB (s.rdCsr pa) 0 (decide (sv 0x100050 < 4104 * sv 0x100058 + 4096 * sv 0x100068))) 1
      (decide (s.slots ≠ []))) 2 (s.homes.any (fun e => e.2.stalled))
  | .SOR_ELR_REVQ =>
    match s.coord.revs[ix.headD 0]? with
    | some r => BitVec.ofNat 64 (r.1.frame % 2 ^ 27 + r.1.count % 2 ^ 32 * 2 ^ 27)
    | none => 0
  | .NMC_MERGE => putW (s.rdCsr pa) 12 7 ((Map.get NearCh.reset s.near (6 * ((b - 544) / 16) + ((b - 544) % 16 - 8))).merge).length
  | .NMC_SPARE => putB (s.rdCsr pa) 28 (decide ((Map.get NearCh.reset s.near (6 * ((b - 544) / 16) + ((b - 544) % 16 - 8))).soft ≠ []))
  | .L3_LOCKSTAT =>
    putW (s.rdCsr pa) 18 4 (s.dir.filter (fun e => e.2.lock && decide (s.sliceOf e.1 = b))).length
  | .PRT_TAGS =>
    let p := 32 * ((b - 544) / 16) + 4 * ((b - 544) % 16) + ix.headD 0
    let x := Map.get Port.reset s.ports p
    if bitsN (s.rdCsr (blockBase b + 0x10000 + 0x1000 * ix.headD 0)) 1 0 = 1 then
      BitVec.ofNat 64 (x.out.length * 2 ^ 20 + x.quar.length * 2 ^ 33)
    else BitVec.ofNat 64 (x.out.length + x.quar.length * 2 ^ 10)
  | .PRT_PWIN_STAT =>
    let p := 32 * ((b - 544) / 16) + 4 * ((b - 544) % 16) + ix.headD 0
    let old (w : Nat) : Bool := s.ports.any (fun e => e.2.out.any (fun r => decide (r.carry = some (p, w, true))))
    BitVec.ofNat 64 (((List.range 8).map (fun w => if old w then 2 ^ w else 0)).sum)
  | .MESH_CTL =>
    let r := routerOfBlock b
    let w := s.rdCsr pa
    let old (p : Pkt) : Bool := decide (p.src.router = r) && p.epoch == bitB w 0
    let n := if bitB w 1 then (s.net.filter old).length +
      (s.bufs.filter (fun x => decide (x.router = r) && x.pkt.epoch == bitB w 0)).length else 0
    putW (putW w 23 8 n) 35 24 ((s.marks.filter (fun e => decide (e.1 / 16 = r))).map (fun e => e.2)).sum
  | .MESH_PROXY =>
    let a := 8 * routerOfBlock b + ix.headD 0
    let n := (s.outst.filter (fun e => decide (e.1 / 4096 = a))).length
    let st := (s.stale.filter (fun e => decide (e.1 / 4096 = a))).length
    let w := s.rdCsr pa
    putW (putW (putB w 2 (bitB w 0 && decide (n = 0))) 15 3 n) 60 48 st
  | _ => s.rdCsr pa

/-- Whether an uncore counter counts cycles or what the model does not count (Table 13.10): cycles of a router, slice, home agent, port
or engine, and a port's 64-byte units. -/
def State.pmcTimed (s : State) (b : Nat) (r : RegRow) (ix : List Nat) (pa : Nat) : Bool :=
  let sel := s.rdCsr (pa - 8)
  let ev := bitsN sel 7 0
  let st := (b - 544) % 16
  decide (r.id = .PMU_PMC) && bitB sel 8 &&
    (if 6 ≤ ix.headD 0 then decide (ev = 2)
      else if b < 544 then decide (ev = 0x0C)
      else if stopIs st .near then decide (ev = 0x0C ∨ ev = 0x0D)
      else if stopIs st .port then decide (ev = 3 ∨ ev = 4 ∨ ev = 9 ∨ ev = 0x0A)
      else decide (ev = 4 ∨ ev = 5))

/-- The value of a chip CSR as a read or a snapshot sees it: such a counter has grown by a free amount. -/
def State.regSee (s : State) (b : Nat) (r : RegRow) (ix : List Nat) (pa : Nat) : Word :=
  if s.pmcTimed b r ix pa then s.regVal b r ix pa + Config.freeWord (s.free + 2 ^ 64 * pa) else s.regVal b r ix pa

/-- Core system registers that hold a counter, an RO field or an RW1C field, and so have a shadow (R385). -/
def srShadowed (n : Nat) : Bool :=
  n = 0x000 || n = 0x001 || n = 0x002 || n = 0x070 || n = 0x071 || (0x100 ≤ n && n ≤ 0x107) || n = 0x131 ||
    n = 0x203 || n = 0x213 || n = 0x300 || n = 0x302 || (0x308 ≤ n && n ≤ 0x30F) || n = 0x332 || n = 0x334 || n = 0x402

/-- What a shadow word shadows (R385, Table 18.4). -/
inductive Shad where
  | seq | sr (pos n : Nat) | reg (off : Nat) | rejl (off : Nat) | none
  deriving DecidableEq, Repr

/-- A window of Table 18.4: the source range's start and length, and the window's base. -/
def inWin (off src len base : Nat) : Option Shad :=
  if base ≤ off ∧ off < base + len then some (.reg (src + (off - base))) else none

/-- The source of a shadow at an offset of a block. -/
def shadOf (b off : Nat) : Shad :=
  if off = snapOff b then .seq
  else if b < 544 then
    if 0xE4000 ≤ off ∧ off < 0xE5000 then .sr ((off - 0xE4000) / 0x800) (0x300 + (off - 0xE4000) % 0x800 / 8)
    else if 0xE8000 ≤ off ∧ off < 0xF0000 ∧ (off - 0xE8000) % 0x4000 < 0x2800 ∧
        ¬ (0x1800 ≤ (off - 0xE8000) % 0x4000 ∧ (off - 0xE8000) % 0x4000 < 0x2000) then
      .sr ((off - 0xE8000) / 0x4000) ((off - 0xE8000) % 0x4000 / 8)
    else if 0xE2000 ≤ off ∧ off < 0xE2300 then .rejl (off - 0xE2000)
    else ((inWin off 0x10000 0x200 0xE1000).orElse (fun _ => (inWin off 0x30000 0x100 0xE1200).orElse (fun _ =>
      (inWin off 0x40000 0x400 0xE1400).orElse (fun _ => (inWin off 0x50000 0x100 0xE1800).orElse (fun _ =>
      (inWin off 0x51900 0x100 0xE1900).orElse (fun _ => inWin off 0x70000 0x200 0xE1A00)))))).getD .none
  else
    let near := decide (b < 576) && stopIs ((b - 544) % 16) .near
    let eng := decide (b < 576) && stopIs ((b - 544) % 16) .eng
    if 0xF02000 ≤ off ∧ off < 0xF02300 then .rejl (off - 0xF02000)
    else if 0xF80000 ≤ off then .reg (off - 0xF80000)
    else if near ∧ 0xF01000 ≤ off ∧ off < 0xF01100 then .reg (0x200000 + (off - 0xF01000))
    else if eng ∧ 0xF10000 ≤ off ∧ off < 0xF20000 then .reg (0x800000 + (off - 0xF10000))
    else if eng ∧ 0xF20000 ≤ off ∧ off < 0xF21000 then
      .reg (0xC00000 + 0x1000 * ((off - 0xF20000) / 16) + (if off % 16 = 0 then 0x18 else 0x20))
    else if b = 579 ∧ 0xF40000 ≤ off ∧ off < 0xF42000 then .reg (0x100000 + (off - 0xF40000))
    else .none

/-- Whether a register has a shadow: it holds a counter, an RO field or an RW1C field (R385). -/
def RegRow.shadowed (r : RegRow) : Bool :=
  decide (r.id = .PMU_PMC) || r.flds.any (fun f => decide (f.ty = .RO) || decide (f.ty = .RW1C))

/-- A word of a block's snapshot page. -/
def State.shadow (s : State) (b off : Nat) : Word :=
  let sn := s.snap
  let seq := Map.get 0 sn.pages b
  let live := !Map.get false sn.clr (blockBase b + off) && decide (seq ≠ 0)
  match shadOf b off with
  | .seq => BitVec.ofNat 64 (seq % 2 ^ 32 + (if Map.get false sn.lates b then 2 ^ 32 else 0))
  | .sr p n => if srShadowed n && live then Map.get (srReset n) (Map.get [] sn.sr (2 * b + p)) n else 0
  | .rejl o => ((Map.get { ents := [], ovf := false, total := 0 } sn.rej b).word o).getD 0
  | .reg o =>
    match regIn (rowsOf b) o with
    | some (r, _) =>
      if r.shadowed && live then Map.get (csrReset sn.prof (blockBase b + o)) sn.csr (blockBase b + o) else 0
    | none => 0
  | .none => 0

/-- Whether the shadow at an offset is of a counter, and so clears on a read (type RC). -/
def shadRC (b off : Nat) : Bool :=
  match shadOf b off with
  | .sr _ n => n = 0x300 || (0x308 ≤ n && n ≤ 0x30F)
  | .reg o => match regIn (rowsOf b) o with
    | some (r, _) => decide (r.id = .PMU_PMC)
    | none => false
  | _ => false

/-- The physical core and byte of a fetch RAM that a tile-block offset names (R26). -/
def framOff (t off : Nat) : Option (Nat × Nat) :=
  if 0x80000 ≤ off ∧ off < 0x84000 then some (2 * t, off - 0x80000)
  else if 0xC0000 ≤ off ∧ off < 0xC4000 then some (2 * t + 1, off - 0xC0000)
  else none

/-- n bytes of a core's fetch RAM. -/
def Core.framN (k : Core) (o : Nat) : Nat → Nat
  | 0 => 0
  | n + 1 => (Map.get 0 k.fram o).toNat + 256 * Core.framN k (o + 1) n

/-- Bytes written to a core's fetch RAM. -/
def Core.framPut (k : Core) : List (Nat × Byte) → Core
  | [] => k
  | (o, b) :: l => Core.framPut { k with fram := Map.set 0 k.fram o b } l

/-- The core record that holds a physical core's fetch RAM: those of a pair hold the same bytes, kept with the pair (log entry
114). -/
def State.framCore (s : State) (p : Nat) : Nat := s.coreOfPhys (if s.profile = 2 then p / 2 * 2 else p)

/-- The doubleword at an 8-aligned address of a CSR block; none where no register lies. -/
def State.csrWord (s : State) (pa : Nat) : Option Word :=
  match blockNo pa with
  | none => none
  | some b =>
    let off := pa - blockBase b
    if snapOff b ≤ off ∧ off < snapOff b + snapSize b then some (s.shadow b off)
    else if rejectOff b ≤ off ∧ off < rejectOff b + 0x300 then (s.rejOf b).word (off - rejectOff b)
    else match (if b < 544 then framOff b off else none) with
      | some (p, o) => some (BitVec.ofNat 64 ((s.core (s.framCore p)).framN o 8))
      | none => match regIn (rowsOf b) off with
        | some (r, ix) => some (s.regSee b r ix pa)
        | none => none

/-- Whether what a read of a doubleword gives holds a free value. -/
def State.csrOpen (s : State) (pa : Nat) : Bool :=
  match blockNo pa with
  | none => false
  | some b => match regIn (rowsOf b) (pa - blockBase b) with
    | some (r, ix) => s.pmcTimed b r ix pa
    | none => false

/-- A read of a CSR block: the response status, the bytes read at their place in the access, and the state left (R23,
R24, R385, R479). -/
def State.csrRead (s : State) (pa size : Nat) (q : Requester) : Nat × Nat × State :=
  if (size = 4 ∨ size = 8) ∧ pa % size = 0 ∧ s.csrAccepts pa false q = true then
    match s.csrWord (pa / 8 * 8) with
    | some w =>
      let v := if size = 8 then w.toNat else (w.toNat / 2 ^ (8 * (pa % 8))) % 2 ^ 32
      let rc := match blockNo pa with
        | some b => shadRC b (pa / 8 * 8 - blockBase b)
        | none => false
      (0, v, if rc then { s with snap := { s.snap with clr := Map.set false s.snap.clr (pa / 8 * 8) true } }
        else if s.csrOpen (pa / 8 * 8) then s.bump else s)
    | none => (2, 256 ^ size - 1, s.aerrQ pa false q)
  else (2, 256 ^ size - 1, s.aerrQ pa false q)

/-- A head of a ring of 2^k slots passes its tail, or lies outside the ring (R9). -/
def badHead (size tail head new : Nat) : Bool :=
  decide (size ≤ new) || decide ((tail + size - head) % size < (new + size - head) % size)
/-- A tail of a ring passes its head, or lies outside the ring (R9). -/
def badTail (size tail head new : Nat) : Bool :=
  decide (size ≤ new) || decide ((new + size - head) % size < (tail + size - head) % size)

/-! ## Writing -/

/-- A write as a register sees it (R479): its address, block, row and instance numbers, the old value, the value formed
from the written bits, the bits covered, the value that an accepted write leaves, and the requester. A W1S bit that is
written as 1 stands in `val`; what it starts is the register's own. -/
structure CsrW where
  pa : Nat
  block : Nat
  row : RegRow
  ix : List Nat
  old : Word
  val : Word
  mask : Word
  new : Word
  req : Requester

/-- Whether a write covers any bit of a field. -/
def Fld.covered (f : Fld) (mask : Word) : Bool := decide (mask &&& maskW f.hi f.lo ≠ 0)

/-- The value formed from a write (R479): RW and RWL fields keep their uncovered bits, W1S and RW1C bits are 0 there. -/
def formVal (flds : List Fld) (old v mask : Word) : Word :=
  flds.foldl (fun acc f =>
    if f.ty = .RW ∨ f.ty = .RWL then acc ||| (old &&& ~~~ mask &&& maskW f.hi f.lo) else acc) (v &&& mask)

/-- The value that an accepted write leaves (R4): RW and RWL fields take the formed value, RW1C bits written as 1
clear, every other field keeps its value. -/
def newVal (flds : List Fld) (old v : Word) : Word :=
  flds.foldl (fun acc f =>
    let m := maskW f.hi f.lo
    match f.ty with
    | .RW => (acc &&& ~~~ m) ||| (v &&& m)
    | .RWL => (acc &&& ~~~ m) ||| (v &&& m)
    | .RW1C => acc &&& ~~~ (v &&& m)
    | _ => acc) old

/-- A covered field out of range (R6). -/
def badRange (flds : List Fld) (v mask : Word) : Bool :=
  flds.any (fun f => (decide (f.ty = .RW) || decide (f.ty = .RWL)) && f.covered mask &&
    (decide (bitsN v f.hi f.lo < f.mn) || decide (f.mx < bitsN v f.hi f.lo)))

/-- A covered field under a lock bit (R475). -/
def badLock (flds : List Fld) (mask : Word) (locked : Bool) : Bool :=
  locked && flds.any (fun f => decide (f.ty = .RWL) && f.covered mask)

/-- The lock bit of a block (Table 18.3). -/
def State.lockBit (s : State) (b : Nat) : Bool :=
  if b < 544 ∨ 576 ≤ b then false
  else if stopIs ((b - 544) % 16) .near then s.flag (blockBase b) 63
  else if stopIs ((b - 544) % 16) .eng then s.flag (blockBase b + 0x60000) 63
  else false

/-- The write as the register at its address sees it; none where no register lies. -/
def State.csrForm (s : State) (a : CsrReq) : Option CsrW :=
  let pa := a.pa / 8 * 8
  match regAt pa with
  | none => none
  | some (b, r, ix) =>
    let mask : Word := if a.size = 8 then BitVec.allOnes 64 else if a.pa % 8 = 0 then maskW 31 0 else maskW 63 32
    let v := if a.size = 8 then a.value else BitVec.ofNat 64 (a.value.toNat % 2 ^ 32 * 2 ^ (8 * (a.pa % 8)))
    let old := s.regVal b r ix pa
    let val := formVal r.flds old v mask
    some { pa := pa, block := b, row := r, ix := ix, old := old, val := val, mask := mask,
           new := newVal r.flds old val, req := a.req }

/-- The first cause that applies, in the order LOCKED, CONFLICT, RANGE (R473); `own` is the register's own check. -/
def State.csrCause (s : State) (w : CsrW) (own : Option Nat) : Option Nat :=
  if badLock w.row.flds w.mask (s.lockBit w.block) then some 2
  else if own = some 3 then some 3
  else if badRange w.row.flds w.val w.mask then some 1
  else own

/-- A refused write is logged, and changes nothing else (R6). -/
def State.refuse (s : State) (w : CsrW) (cause : Nat) : State :=
  s.reject w.block (BitVec.ofNat 64 w.pa) w.val cause w.req

/-- A write of a register: the outcome of R23 where the block does not accept it, a refusal by the register's checks,
or its effect over the state with the new value stored. Answers the response status and the state. -/
def State.csrWrite (s : State) (a : CsrReq) (own : CsrW → Option Nat) (eff : CsrW → State → State) : Nat × State :=
  if (a.size = 4 ∨ a.size = 8) ∧ a.pa % a.size = 0 ∧ s.csrAccepts a.pa true a.req = true then
    match s.csrForm a with
    | none => (2, s.aerrQ a.pa true a.req)
    | some w =>
      match s.csrCause w (own w) with
      | some cause => (0, s.refuse w cause)
      | none => (0, eff w (s.wrCsr w.pa w.new))
  else (2, s.aerrQ a.pa true a.req)

/-- A write of eight bytes to a register at an address. -/
def wr8 (pa : Nat) (v : Word) (q : Requester) : CsrReq := { pa := pa, size := 8, value := v, req := q }

/-- A write of a REJECT log (Table 18.2): OVERFLOW clears by 1, CLEAR empties the log; the rest is RO. -/
def State.rejectWrite (s : State) (a : CsrReq) : Nat × State :=
  match blockNo a.pa with
  | none => (2, s.aerrQ a.pa true a.req)
  | some b =>
    let off := a.pa / 8 * 8 - blockBase b - rejectOff b
    if (a.size = 4 ∨ a.size = 8) ∧ a.pa % a.size = 0 ∧ s.csrAccepts a.pa true a.req = true ∧
        ((s.rejOf b).word off).isSome = true then
      if off = 0 ∧ a.pa % 8 = 0 then
        let r := s.rejOf b
        (0, s.setRej b { r with ents := if bitB a.value 6 then [] else r.ents, ovf := r.ovf && !bitB a.value 5 })
      else (0, s)
    else (2, s.aerrQ a.pa true a.req)

end Sys2Proof.Machine
end

