-- ==== Sys2Proof/Machine/Remap.lean ====
section
/-! DEFINITION. Where system memory lies: the remap table as the start-up sequence lays it out (02_memory_tiers.md, R32
to R37, R480), and the fields of an entry (Table 2.2). -/

namespace Sys2Proof.Machine
open Sys2Proof

/-! ## The entry that the start-up sequence writes -/

/-- The far frame that the rotation over the ports reaches at a rank (R35): ports by ascending number, each port's
frames by ascending index; a port whose frames are used up leaves the rotation. -/
def rotAt : Nat → List (Nat × Nat) → Nat → Nat → Option (Nat × Nat)
  | 0, _, _, _ => none
  | fuel + 1, ports, lvl, rank =>
    match ports.map (fun p => p.2) with
    | [] => none
    | c :: cs =>
      let m := cs.foldl min c
      let n := ports.length
      if rank < n * (m - lvl) then some ((ports.getD (rank % n) (0, 0)).1, lvl + rank / n)
      else rotAt fuel (ports.filter (fun p => decide (m < p.2))) m (rank - n * (m - lvl))

/-- How many base frames below f are FAR at cold start. -/
def Layout.farRank (l : Layout) (f : Nat) : Nat :=
  ((List.range 12).map (fun h => (f + 11 - h) / 12 - l.nearNum.getD h 0)).sum

/-- A remap entry of a kind, port and location. -/
def mkEntry (kind port loc : Nat) : Word := BitVec.ofNat 64 (kind + port * 2 ^ 12 + loc * 2 ^ 18)

/-- The frame that stands in for frame i of a channel or port (16 + port). -/
def Layout.subTo (l : Layout) (k i : Nat) : Nat :=
  ((l.subst.find? (fun x => decide (x.1 = k ∧ x.2.1 = i))).map (fun x => x.2.2)).getD i
/-- The frame that frame i stands in for: itself, another, or none where it is retired. -/
def Layout.subFrom (l : Layout) (k i : Nat) : Option Nat :=
  if l.subst.any (fun x => decide (x.1 = k ∧ x.2.1 = i)) then none
  else some (((l.subst.find? (fun x => decide (x.1 = k ∧ x.2.2 = i))).map (fun x => x.2.1)).getD i)

/-- The remap entry that the cold start gives a frame (R35). -/
def Layout.entry (l : Layout) (f : Nat) : Word :=
  if l.base ≤ f then 0
  else if f / 12 < l.nearNum.getD (f % 12) 0 then
    mkEntry 1 0 (l.subTo (l.homeCh.getD (f % 12) 0) (l.nearFirst.getD (f % 12) 0 + f / 12))
  else match rotAt (l.ports.length + 1) l.ports 0 (l.farRank f) with
    | some (p, i) => mkEntry 2 p (l.subTo (16 + p) i)
    | none => 0

/-! ## Home agents and the remap cache (R32, R38) -/

/-- The channel whose stop hosts a home function, by the home map (Table 4.5). -/
def State.hostCh (s : State) (h : Nat) : Nat :=
  let w := s.rdCsr (tileBase 0 + 0x40100 + 8 * h)
  6 * bitsN w 0 0 + (bitsN w 4 1 - 8)

/-- A home agent, by the channel of its stop. -/
def State.hagt (s : State) (ch : Nat) : HAgent := Map.get HAgent.reset s.hagts ch
def State.modHagt (s : State) (ch : Nat) (f : HAgent → HAgent) : State :=
  { s with hagts := Map.set HAgent.reset s.hagts ch (f (s.hagt ch)) }

/-- Set of a frame in the remap cache (R38). -/
def rset (f : Nat) : Nat := f / 12 % 4096

/-- A frame's entry is in the remap cache of its home agent. -/
def State.rhit (s : State) (f : Nat) : Bool := (Map.get [] (s.hagt (s.hostCh (f % 12))).rcache (rset f)).contains f

/-- A home function. -/
def State.home (s : State) (h : Nat) : Home := Map.get Home.reset s.homes h
def State.setHome (s : State) (h : Nat) (x : Home) : State := { s with homes := Map.set Home.reset s.homes h x }
def State.modHome (s : State) (h : Nat) (f : Home → Home) : State := s.setHome h (f (s.home h))

/-- The migration of a frame. -/
def State.migOf (s : State) (f : Nat) : Option Mig := (s.home (f % 12)).migs.find? (fun m => decide (m.frame = f))

/-- The entry becomes the most recent of its set; a full set evicts its least recent entry that is not locked, and with it
writes back the share's copy (R38). -/
def State.rtouch (s : State) (f : Nat) : State :=
  let ch := s.hostCh (f % 12)
  let l := (Map.get [] (s.hagt ch).rcache (rset f)).filter (fun g => decide (g ≠ f))
  let out := if l.length < 8 then none else l.reverse.find? (fun g => (s.migOf g).isNone)
  let s1 := s.modHagt ch (fun x => { x with rcache := Map.set [] x.rcache (rset f) (f :: l.filter (fun g => decide (some g ≠ out))) })
  match out with
  | some g => { s1 with rstale := Map.set none s1.rstale g none }
  | none => s1

/-! ## Entries -/

/-- The remap entry of a frame (R37). -/
def State.entry (s : State) (f : Nat) : Word := Map.get (s.layout.entry f) s.remap f
/-- The remap entry of a frame written: in the cache where the entry lies there, and then the share still holds the old one
(R38). -/
def State.setEntry (s : State) (f : Nat) (e : Word) : State :=
  { s with remap := Map.set (s.layout.entry f) s.remap f e,
           rstale := if s.rhit f && (Map.get none s.rstale f).isNone && decide (e ≠ s.entry f) then Map.set none s.rstale f (some (s.entry f))
                     else s.rstale }
/-- What the share in DRAM holds for a frame (R37, R38). -/
def State.shareEntry (s : State) (f : Nat) : Word := (Map.get none s.rstale f).getD (s.entry f)

/-- Fields of a remap entry (Table 2.2). -/
def eKind (e : Word) : Nat := bitsN e 2 0
def ePin (e : Word) : Bool := bitB e 3
def ePinT (e : Word) : Nat := bitsN e 5 4
def eMig (e : Word) : Bool := bitB e 6
def eEpoch (e : Word) : Bool := bitB e 7
def eElastic (e : Word) : Bool := bitB e 8
def ePoisoned (e : Word) : Bool := bitB e 9
def eWeight (e : Word) : Nat := bitsN e 11 10
def ePort (e : Word) : Nat := bitsN e 17 12
def eLoc (e : Word) : Nat := bitsN e 47 18
def eHeat (e : Word) : Nat := bitsN e 55 48
def eHtag (e : Word) : Nat := bitsN e 61 56
def eClass (e : Word) : Nat := bitsN e 63 62

/-- Where an entry says its frame lies. -/
def ePlace (e : Word) : Place := { kind := eKind e, port := ePort e, loc := eLoc e }
/-- An entry moved to another place. -/
def eMove (e : Word) (p : Place) : Word := putW (putW (putW e 2 0 p.kind) 17 12 p.port) 47 18 p.loc

/-- The frame of an address. -/
def frameOf (pa : Nat) : Nat := pa / 2 ^ 21
/-- The home function of an address (R32). -/
def homeOf (pa : Nat) : Nat := frameOf pa % 12

/-- The channel in whose frame numbers the near frames of a home function are kept: the hosting one; a mirrored pair that
lost one half keeps the lost channel's numbers, whose mirror frames the survivor holds (R105, R108). -/
def State.nearBk (s : State) (h : Nat) : Nat :=
  if s.layout.homeCh.getD h 12 = h ∧ 2 ≤ s.fld (chBase (h ^^^ 1) + 0x7000) 1 0 ∧ s.hostCh h = h ^^^ 1 then h else s.hostCh h

/-- Whether a frame's data lies on a port whose far memory is lost (R444). -/
def State.farLost (s : State) (f : Nat) : Bool :=
  let e := s.entry f
  (decide (eKind e = 2) || decide (eKind e = 3)) && s.ras.lost.contains (ePort e)

/-- Whether a line carries poison (R98), or is read from a lost port (R444). -/
def State.poisoned (s : State) (line : Nat) : Bool := Map.get false s.poison line || s.farLost (line / 2 ^ 15)

/-! ## Coherence home (04_caches_and_ordering.md, R116, R130) -/

/-- The set of a line within its slice (R130). -/
def setOfLine (line : Nat) : Nat :=
  line % 2 ^ 11 ^^^ (line / 2 ^ 11 % 2 ^ 11) ^^^ (line / 2 ^ 22 % 2 ^ 11) ^^^ (line / 2 ^ 33 % 2 ^ 9)

/-- A slice's record of a line. -/
def State.dline (s : State) (line : Nat) : DirLine := Map.get DirLine.empty s.dir line

/-- The number of a line's set in the whole directory (R116, R130). -/
def State.dirSet (s : State) (line : Nat) : Nat := 2048 * s.sliceOf line + setOfLine line

/-- The record of a line changed. A line that private caches hold without a data way has a directory-only tag, which becomes the
most recently used of its set (R113). -/
def State.setDline (s : State) (line : Nat) (d : DirLine) : State :=
  let k := s.dirSet line
  let l := takeOut line (Map.get [] s.dtags k)
  { s with dir := Map.set DirLine.empty s.dir line d,
           dtags := Map.set [] s.dtags k (if d.st ≠ .U ∧ d.way = .none then line :: l else l) }

/-- An L2's record of a line, by physical core. -/
def State.l2line (s : State) (p line : Nat) : L2Line := Map.get L2Line.empty s.l2 (p * 2 ^ 42 + line)
/-- A record set; a line that leaves the L2 leaves the L1 data cache with it (R113). -/
def State.setL2 (s : State) (p line : Nat) (x : L2Line) : State :=
  { s with l2 := Map.set L2Line.empty s.l2 (p * 2 ^ 42 + line) { x with l1 := if x.st = .I then none else x.l1 } }

/-! ## Status of memory accesses (Table 5.4) -/

/-- Whether an agent of a router is fenced (R167). -/
def State.fencedAgt (s : State) (r a : Nat) : Bool :=
  s.flag ((if isTileRouter r then tileBase (tileOfRouter r) else stopBase (r % 36 / 35) (r / 36)) + 0x50010 + 8 * a) 0

/-- The status that a home agent answers a read of a frame with. -/
def State.homeStatus (s : State) (f : Nat) : Nat :=
  let e := s.entry f
  let ch := s.hostCh (f % 12)
  if s.fencedAgt (routerOfCh ch) 0 || (s.home (f % 12)).fenced then 3
  else if eKind e = 0 then 1
  else if s.farLost f then 0
  else if eKind e = 2 ∨ eKind e = 3 then
    let st := s.fld (portBase (ePort e) + 0x10008 + 0x1000 * (ePort e % 4)) 3 0
    if s.fencedAgt (routerOfPort (ePort e)) (ePort e % 4) then 3
    else if st = 2 ∨ st = 1 ∨ st = 3 then 0 else 5
  else 0

/-- The status that a core's read of a line meets. -/
def State.readStatus (s : State) (p line : Nat) : Nat :=
  let d := s.dline line
  if (s.l2line p line).st ≠ .I ∨ (s.l2line p line).evb.isSome then 0
  else if s.fencedAgt (routerOfTile (s.sliceOf line)) 2 then 3
  else match d.st with
    | .X _ => 0
    | _ => if d.way ≠ .none ∨ d.evb.isSome = true then 0 else s.homeStatus (line / 2 ^ 15)

end Sys2Proof.Machine
end

