-- ==== Sys2Proof/Machine/Net.lean ====
section
/-! DEFINITION. Packets in the mesh (05_mesh.md): agents, transaction identifiers, injection, responses, fences and
proxy sinks. -/

namespace Sys2Proof.Machine
open Sys2Proof

/-! ## Agents and classes -/

/-- Class of an opcode (Table 5.3). -/
def opCls : Op → Cls
  | .RdS | .RdX | .Upg | .RdZ | .RdNC | .WrF | .WrP | .FAtom | .Flush | .Clean | .PutS | .PutE | .PutM => .req0
  | .HRd | .HWrF | .HWrP | .HAtom | .HPut => .req1
  | .SeRd | .SeWr | .MsiWr | .PRd | .PWrF | .PWrP | .PAtom => .req2
  | .SnpS | .SnpX | .Inv => .snoop
  | .Data | .Grant | .Cmp | .WbGo | .WbStale | .WbAck | .WbData | .PutCancel | .SnpRsp | .SnpData | .InvAck => .resp
  | .BCAST | .BACK | .RWRITE | .RWACK | .MARK_ACK => .maint
  | .Mark c => if c = 0 then .req0 else if c = 1 then .req1 else if c = 2 then .req2 else if c = 3 then .snoop else .resp
  | .unlisted _ => .maint

/-- Number of a class. -/
def clsNo : Cls → Nat
  | .req0 => 0 | .req1 => 1 | .req2 => 2 | .snoop => 3 | .resp => 4 | .maint => 5

/-- Whether an opcode is a request. -/
def opIsReq (o : Op) : Bool := decide (clsNo (opCls o) < 3)
/-- Whether an opcode is a mark. -/
def opIsMark : Op → Bool
  | .Mark _ => true
  | _ => false
/-- Whether a response ends the transaction of its TXID at the requester: every response but those inside a
write-back, and the snoop answers, which the slice matches by line. -/
def opEnds : Op → Bool
  | .Data | .Grant | .Cmp | .WbAck | .WbStale => true
  | _ => false

/-- Base of the block that holds a router's registers. -/
def routerBase (r : Nat) : Nat :=
  if isTileRouter r then tileBase (tileOfRouter r) else stopBase (r % 36 / 35) (r / 36)

/-- A slice as an agent. -/
def sliceAgt (t : Nat) : Agt := { router := routerOfTile t, agent := 2 }
/-- A physical core's L2 as an agent. -/
def physAgt (p : Nat) : Agt := { router := routerOfTile (p / 2), agent := p % 2 }
/-- The physical core of an L2 agent. -/
def agtPhys (a : Agt) : Nat := 2 * tileOfRouter a.router + a.agent % 2
/-- A port as an agent. -/
def portAgt (p : Nat) : Agt := { router := routerOfPort p, agent := p % 4 }
/-- The engine as an agent of the mesh. -/
def engAgt (d : Nat) : Agt := { router := routerOfStop d 14, agent := 0 }
/-- The port of a port agent. -/
def agtPort (a : Agt) : Nat := 32 * (a.router % 36 / 35) + 4 * (a.router / 36) + a.agent % 4
/-- The active DSE as an agent (R405, R406). -/
def State.dseA (s : State) : Agt := { router := routerOfStop (if s.flag dseBase 6 then 1 else 0) 15, agent := 0 }
/-- The agent of the home function of an address. -/
def State.homeAgt (s : State) (pa : Nat) : Agt := { router := routerOfCh (s.hostCh (homeOf pa)), agent := 0 }
/-- The near channel of a home agent. -/
def agtCh (a : Agt) : Nat := 6 * (a.router % 36 / 35) + (a.router / 36 - 8)
/-- The agent of the CSR block that an address lies in. -/
def State.csrAgt (s : State) (pa : Nat) : Agt :=
  match region pa with
  | .tile t _ => { router := routerOfTile t, agent := 3 }
  | .stop d st _ => { router := routerOfStop d st, agent := 5 }
  | _ => s.dseA

/-! ## Transaction identifiers (R144, R168) -/

/-- Key of an agent's TXID. -/
def txKey (a : Agt) (t : Nat) : Nat := (8 * a.router + a.agent) * 4096 + t

/-- The lowest TXID of an agent that is neither outstanding nor stale; none while all 4,096 are taken (R144). -/
def State.freeTx (s : State) (a : Agt) : Option Nat :=
  findFrom (fun t => !Map.get false s.outst (txKey a t) && !Map.get false s.stale (txKey a t)) 0 4096

/-- How many keys of an agent a map holds. -/
def agtCount (m : Map Bool) (a : Agt) : Nat :=
  (Map.keep m (fun k _ => decide (k / 4096 = 8 * a.router + a.agent))).length

/-! ## Fences and proxy sinks (R167) -/

/-- The address of an agent's MESH_PROXY. -/
def proxyAddr (a : Agt) : Nat := routerBase a.router + 0x50010 + 8 * a.agent
def State.fenced (s : State) (a : Agt) : Bool := s.flag (proxyAddr a) 0
def State.proxied (s : State) (a : Agt) : Bool := s.flag (proxyAddr a) 1

/-! ## Injection (R164) -/

/-- Whether the route between two routers differs between the epochs (MESH_CHG). -/
def State.chg (s : State) (r d : Nat) : Bool := s.flag (routerBase r + 0x51800 + 8 * (d / 64)) (d % 64)

/-- The local port of a router that an agent injects through: the slice port of a tile is 1, every other port 0; the agents of a tile
that are neither core nor slice (3 and 7) use the core port (DESIGN CHOICE, log entry 124). -/
def portOfAgt (a : Agt) : Nat := if isTileRouter a.router && decide (a.agent = 2) then 1 else 0

/-- A packet that agent a injects: nothing leaves a proxied agent; while ARMED a packet to a changed destination
waits until every mark of its class is acknowledged (R164 step 2), and any other takes the new epoch. The agent is not
the packet's source when it forwards a request, which keeps its leg (R150), or snoops for a requester. -/
def State.injectAt (s : State) (a : Agt) (p : Pkt) : State :=
  let b := routerBase a.router
  let e := s.flag (b + 0x50000) 0
  if s.proxied a then s
  else if clsNo (opCls p.op) = 5 then { s with net := s.net ++ [{ p with epoch := e }] }
  else if s.flag (b + 0x50000) 1 then
    if s.chg a.router p.dst.router &&
        decide (0 < Map.get 0 s.marks ((2 * a.router + portOfAgt a) * 8 + clsNo (opCls p.op))) then
      { s with held := s.held ++ [(2 * a.router + portOfAgt a, p)] }
    else { s with net := s.net ++ [{ p with epoch := !e }] }
  else { s with net := s.net ++ [{ p with epoch := e }] }

/-- A packet injected by its source. -/
def State.inject (s : State) (p : Pkt) : State := s.injectAt p.src p

/-- Packets injected in order. -/
def State.injectAll (s : State) : List Pkt → State
  | [] => s
  | p :: ps => State.injectAll (s.inject p) ps

/-! ## Observation sideband (R380, R381) -/

/-- Opcode numbers (Table 5.3). -/
def opCode : Op → Nat
  | .RdS => 0x00 | .RdX => 0x01 | .Upg => 0x02 | .RdZ => 0x03 | .RdNC => 0x04 | .WrF => 0x05 | .WrP => 0x06
  | .FAtom => 0x07 | .Flush => 0x08 | .Clean => 0x09 | .PutS => 0x0A | .PutE => 0x0B | .PutM => 0x0C
  | .HRd => 0x10 | .HWrF => 0x11 | .HWrP => 0x12 | .HAtom => 0x13 | .HPut => 0x14
  | .SeRd => 0x20 | .SeWr => 0x21 | .MsiWr => 0x22 | .PRd => 0x23 | .PWrF => 0x24 | .PWrP => 0x25 | .PAtom => 0x26
  | .SnpS => 0x30 | .SnpX => 0x31 | .Inv => 0x32
  | .Data => 0x40 | .Grant => 0x41 | .Cmp => 0x42 | .WbGo => 0x43 | .WbStale => 0x44 | .WbAck => 0x45 | .WbData => 0x46
  | .PutCancel => 0x47 | .SnpRsp => 0x48 | .SnpData => 0x49 | .InvAck => 0x4A
  | .BCAST => 0x60 | .BACK => 0x61 | .RWRITE => 0x62 | .RWACK => 0x63 | .MARK_ACK => 0x64
  | .Mark c => if c.val < 4 then 0x10 * c.val + 0x0F else 0x5F
  | .unlisted n => n

/-- The bit of PMU_TAG_CTL that enables tagging of an opcode (Table 13.8). -/
def tagBit : Op → Nat
  | .RdS | .RdX | .RdNC => 5
  | .Upg | .RdZ => 6
  | .FAtom => 7
  | .Flush | .Clean => 9
  | o => if clsNo (opCls o) = 2 then 10 else 8

/-- The 16-bit LFSR of the samplers: x^16 + x^14 + x^13 + x^11 + 1 (R48). -/
def lfsrNext (x : Nat) : Nat :=
  let b (n : Nat) : Nat := x / 2 ^ n % 2
  (2 * x + (b 15 + b 13 + b 12 + b 10) % 2) % 2 ^ 16

/-- Whether an agent tags requests of an opcode: an L2 while its core samples (R381). -/
def State.tags (s : State) (a : Agt) (o : Op) : Bool :=
  isTileRouter a.router && decide (a.agent < 2) &&
    s.flag (routerBase a.router + 0x70100) 0 && s.flag (routerBase a.router + 0x70100) (tagBit o) &&
    bitB ((s.core (s.coreOfPhys (agtPhys a))).srv 0x333) 0

/-- A request tagged by the sampler of its agent: the sideband it leaves with, and the state. -/
def State.tag (s : State) (a : Agt) (o : Op) (t : Nat) : BitVec 160 × State :=
  if s.tags a o then
    let k := 8 * a.router + a.agent
    let x := lfsrNext (Map.get 1 s.tagLfsr k)
    let s1 := { s with tagLfsr := Map.set 1 s.tagLfsr k x }
    if x % 2 ^ s.fld (routerBase a.router + 0x70100) 4 1 = 0 then
      (1, { s1 with tagT0 := Map.set 0 s1.tagT0 (txKey a t) (s.ctime.toNat + 1) })
    else (0, s1)
  else (0, s)

/-- A field of the sideband replaced. -/
def putSide (x : BitVec 160) (hi lo v : Nat) : BitVec 160 :=
  let m := 2 ^ (hi + 1 - lo)
  BitVec.ofNat 160 (x.toNat - x.toNat / 2 ^ lo % m * 2 ^ lo + v % m * 2 ^ lo)

/-- SRC of a tagged packet set (Table 13.4). -/
def sideSrc (x : BitVec 160) (src : Nat) : BitVec 160 := if x.getLsbD 0 then putSide x 4 1 src else x
/-- LEG of a tagged packet set. -/
def sideLeg (x : BitVec 160) (leg : Nat) : BitVec 160 := if x.getLsbD 0 then putSide x 150 149 leg else x
/-- Stamp j of a tagged packet set to ctime[19:0]: 0 S_SLICE, 1 S_HA, 2 S_MEM, 3 S_MDATA; a reserved bit notes the visit. -/
def State.stamp4 (s : State) (x : BitVec 160) (j : Nat) : BitVec 160 :=
  if x.getLsbD 0 then putSide (putSide x (20 * j + 24) (20 * j + 5) (s.ctime.toNat % 2 ^ 20)) (151 + j) (151 + j) 1 else x

/-- The stamp of a packet that arrives at its agent: a slice or a target stamps S_SLICE, a home agent S_HA (R381). -/
def State.arrive (s : State) (p : Pkt) : Pkt :=
  if opIsReq p.op then { p with side := s.stamp4 p.side (if clsNo (opCls p.op) = 1 then 1 else 0) } else p

/-- The TAG record of a response that ends a tagged request (Table 13.7). -/
def State.tagRec (s : State) (r p : Pkt) (t0 : Nat) : List Word :=
  let now := s.ctime.toNat
  let d (j : Nat) : Nat :=
    if p.side.getLsbD (151 + j) then (p.side.toNat / 2 ^ (20 * j + 5) + 2 ^ 20 - t0 % 2 ^ 20) % 2 ^ 20 else 0xFFFFFFFF
  let done := min (now - t0) (2 ^ 32 - 1)
  let home := if inSysMem r.addr then r.addr / 2 ^ 21 % 12 else 15
  [BitVec.ofNat 64 (4 + opCode r.op % 128 * 2 ^ 4 + p.side.toNat / 2 % 16 * 2 ^ 11 + (if 2 ^ 20 ≤ done then 2 ^ 15 else 0) +
      p.txid % 4096 * 2 ^ 16 + r.src.router % 1024 * 2 ^ 28 + r.src.agent % 8 * 2 ^ 38 + home * 2 ^ 41 + p.status % 256 * 2 ^ 45),
    BitVec.ofNat 64 (r.addr / 64 * 64 % 2 ^ 52), BitVec.ofNat 64 t0, BitVec.ofNat 64 (d 0 + d 1 * 2 ^ 32),
    BitVec.ofNat 64 (d 2 + d 3 * 2 ^ 32), BitVec.ofNat 64 done, BitVec.ofNat 64 (p.side.toNat / 2 ^ 85), 0]

/-- The response to a tagged request reaches its L2: the TAG record joins the core's sample records. -/
def State.untag (s : State) (p : Pkt) : State :=
  let key := txKey p.dst p.txid
  match Map.get 0 s.tagT0 key, Map.get none s.reqs key with
  | n + 1, some r =>
    ({ s with tagT0 := Map.set 0 s.tagT0 key 0 }).modCore (s.coreOfPhys (agtPhys p.dst)) (fun k => k.pushSample (s.tagRec r p n))
  | _, _ => s

/-- A request injected under a new TXID of its source, which becomes outstanding; with every TXID taken it waits for one (R144). -/
def State.request (s0 : State) (p : Pkt) : State :=
  match s0.freeTx p.src with
  | none => { s0 with txwait := s0.txwait ++ [p] }
  | some t =>
    let (side, s) := if p.side = 0 then s0.tag p.src p.op t else (p.side, s0)
    ({ s with outst := Map.set false s.outst (txKey p.src t) true,
              reqs := Map.set none s.reqs (txKey p.src t) (some { p with txid := t, side := side }),
              reqAt := Map.set 0 s.reqAt (txKey p.src t) s.ctime.toNat }).inject
      { p with txid := t, side := side }

/-- The response to a request: from its destination to its source under its TXID; `addr` names the line it answers. -/
def rsp (q : Pkt) (op : Op) (status : Nat) : Pkt :=
  { op := op, src := q.dst, dst := q.src, txid := q.txid, addr := q.addr, repoch := q.repoch, status := status,
    side := sideLeg q.side 3, data := if status = 0 then 0 else BitVec.allOnes 512, poison := decide (status = 4) }

/-- The opcode that answers a request: data for reads and atomics, WbStale for an eviction, else a completion. For a status from a
fence or a proxy sink the spec names the status alone; that the opcodes are these is the model's choice (log entry 126). -/
def answerOp : Op → Op
  | .RdS | .RdX | .RdNC | .FAtom | .HRd | .HAtom | .SeRd | .PRd | .PAtom => .Data
  | .PutS | .PutE | .PutM | .HPut => .WbStale
  | _ => .Cmp

/-- A request answered with a status. -/
def State.answer (s : State) (q : Pkt) (status : Nat) : State := s.inject (rsp q (answerOp q.op) status)

/-! ## The tree of a broadcast (R162) -/

/-- The routers out of service. -/
def State.oosList (s : State) : List Nat := (List.range 576).filter (fun r => s.flag (routerBase r + 0x50000) 2)

/-- The next router from r toward the origin's router o: along the column to the origin's row, then along the row. -/
def bcUp (o r : Nat) : Nat :=
  if r / 36 = o / 36 then (if r % 36 < o % 36 then r + 1 else r - 1) else if r / 36 < o / 36 then r + 36 else r - 36

/-- The next router in service beyond a router of the origin's row. -/
def bcBeyond (oos : List Nat) (o : Nat) : Nat → Nat → Option Nat
  | 0, _ => none
  | f + 1, n =>
    if o % 36 < n % 36 then
      (if n % 36 = 35 then none else if oos.contains (n + 1) then bcBeyond oos o f (n + 1) else some (n + 1))
    else if n % 36 = 0 then none
    else if oos.contains (n - 1) then bcBeyond oos o f (n - 1) else some (n - 1)

/-- The parent of a router: where it is out of service, the next router in the copy's direction takes its place; with
none beyond it, its own parent does (DEDUCED, log entry 31). -/
def bcParent (oos : List Nat) (o : Nat) : Nat → Nat → Nat
  | 0, r => bcUp o r
  | f + 1, r =>
    let n := bcUp o r
    if n = o ∨ oos.contains n = false then n
    else if r / 36 = o / 36 ∨ n / 36 ≠ o / 36 then bcParent oos o f n
    else (bcBeyond oos o 36 n).getD (bcParent oos o f n)

/-- The children of a router. -/
def bcKids (oos : List Nat) (o r : Nat) : List Nat :=
  (List.range 576).filter (fun x => decide (x ≠ o) && !oos.contains x && decide (bcParent oos o 52 x = r))

/-- The agents of a router that an invalidation names (R250). -/
def bcAgents (r : Nat) : List Agt :=
  if isTileRouter r then [{ router := r, agent := 0 }, { router := r, agent := 1 }]
  else if r / 36 = 14 then [{ router := r, agent := 4 }] else []

/-- The routers that have nothing to wait for: they send their BACK at once. -/
def bcLeaves (oos : List Nat) (o : Nat) : List Nat :=
  (List.range 576).filter (fun r => (bcAgents r).isEmpty && decide (r ≠ o) && !oos.contains r && (bcKids oos o r).isEmpty)

/-- The BACK of a router to its parent, with its count and the broadcast. -/
def bcBack (oos : List Nat) (o r n id : Nat) : Pkt :=
  { op := .BACK, src := { router := r, agent := 7 }, dst := { router := bcParent oos o 52 r, agent := 7 }, txid := 0,
    addr := n, data := BitVec.ofNat 512 id }

/-- The number of an agent in a broadcast's list of acknowledgments. -/
def bcNo (a : Agt) : Nat := if isTileRouter a.router then agtPhys a else 1088 + a.router % 36 / 35

/-- The router of an acknowledging agent's number. -/
def bcRouter (n : Nat) : Nat := if n < 1088 then routerOfTile (n / 2) else routerOfStop (n - 1088) 14

/-- Whether a router's table of 32 broadcasts is full of others than this one: the copy waits (R163). -/
def State.bcFull (s : State) (id r : Nat) : Bool :=
  decide (32 ≤ (s.bcasts.filter (fun b => decide (b.id ≠ id) && !b.sent.contains r &&
    (b.acked.any (fun n => decide (bcRouter n = r)) ||
      b.backs.any (fun x => decide (bcParent s.oosList b.root 52 x.1 = r))))).length)

/-- The total BACK that the router of a broadcast's origin sends it, with its count (R162). -/
def backTo (a : Agt) (count : Nat) : Pkt :=
  { op := .BACK, src := { a with agent := 7 }, dst := a, txid := 0, addr := count }

/-! ## Uncore counters (R382, Table 13.10) -/

/-- The pairs of a block's counters that count an event each add 1, unless Keystone has frozen them; `flt` says whether
a filter admits the event. -/
def State.ucnt (s : State) (base lo hi ev : Nat) (flt : Nat → Bool) : State :=
  if bitB (s.rdCsr (keyBase + 0x10)) 32 then s
  else (List.range 8).foldl (fun (s : State) i =>
    let sel := s.rdCsr (base + 0x70000 + 16 * i)
    if decide (lo ≤ i) && decide (i < hi) && bitB sel 8 && decide (bitsN sel 7 0 = ev) && flt (bitsN sel 24 9) then
      s.wrCsr (base + 0x70008 + 16 * i) (s.rdCsr (base + 0x70008 + 16 * i) + 1)
    else s) s

/-- A router event: FILTER names a class and an output port (Table 13.10). -/
def State.rtrEv (s : State) (r ev cls out : Nat) : State :=
  s.ucnt (routerBase r) 6 8 ev (fun f => (!f.testBit 3 || decide (f % 8 = cls)) && (!f.testBit 7 || decide (f / 16 % 8 = out)))
/-- A router event counted n times. -/
def State.rtrEvN (s : State) (r ev cls out : Nat) : Nat → State
  | 0 => s
  | n + 1 => State.rtrEvN (s.rtrEv r ev cls out) r ev cls out n

/-- A router whose agents and children have all acknowledged sends one BACK with the sum of their counts: to its parent,
or, at the origin's router, to the origin. -/
def State.bcTry (s : State) (id r : Nat) : State :=
  match s.bcasts.find? (fun b => decide (b.id = id)) with
  | none => s
  | some b =>
    let oos := s.oosList
    let kids := bcKids oos b.root r
    if b.sent.contains r then s
    else if (bcAgents r).all (fun a => b.acked.contains (bcNo a)) && kids.all (fun x => b.backs.any (fun y => decide (y.1 = x))) then
      let n := (bcAgents r).length + (b.backs.map (fun y => if kids.contains y.1 then y.2 else 0)).sum
      let b1 := { b with sent := b.sent ++ [r], done := decide (r = b.root) }
      let p : Pkt :=
        if r = b.root then
          { backTo (match b.origin with
              | some c => physAgt (s.phys c)
              | none => s.dseA) n with data := BitVec.ofNat 512 id }
        else bcBack oos b.root r n id
      let s := s.rtrEv r 5 5 0
      { s with bcasts := s.bcasts.map (fun x => if x.id = id then b1 else x), net := s.net ++ [p] }
    else s

/-- Responses absorbed for an agent (MESH_PROXY.ABSORBED). -/
def State.absorb (s : State) (a : Agt) : State :=
  s.putFld (proxyAddr a) 47 16 (s.fld (proxyAddr a) 47 16 + 1)

/-- The packet taken out of the mesh: brought by the routers, or straight from where it was injected. -/
def State.take (s : State) (p : Pkt) : State :=
  if s.arrived.contains p then { s with arrived := takeOut p s.arrived } else { s with net := takeOut p s.net }

/-- Whether the mesh holds a packet with a property. -/
def State.inMesh (s : State) (f : Pkt → Bool) : Bool :=
  s.net.any f || s.arrived.any f || s.bufs.any (fun b => f b.pkt)

/-- Whether two packets keep their order (R151): one class, from one source to one destination. -/
def sameWay (p q : Pkt) : Bool := decide (q.src = p.src) && decide (q.dst = p.dst) && decide (clsNo (opCls q.op) = clsNo (opCls p.op))

/-- Whether a packet may not arrive yet: an earlier one of its class between the same agents has not arrived, or it is itself in a
router (R151). -/
def State.behind (s : State) (p : Pkt) : Bool :=
  if s.arrived.contains p then (s.arrived.takeWhile (fun q => decide (q ≠ p))).any (sameWay p)
  else s.arrived.any (sameWay p) || s.bufs.any (fun b => sameWay p b.pkt) ||
    (s.net.takeWhile (fun q => decide (q ≠ p))).any (sameWay p)

/-- A response whose TXID is stale clears its bit (R168). -/
def State.clearStale (s : State) (p : Pkt) : State :=
  { s with stale := Map.set false s.stale (txKey p.dst p.txid) false }

/-- Whether a response comes under a TXID of the agent it goes to; the other responses are matched by line. -/
def opAnswers (o : Op) : Bool := opEnds o || decide (o = .WbGo)

/-- A response ends its transaction: the TXID is free again, and a tagged request is recorded; a request that waits for a TXID of the
agent goes out. -/
def State.endTx (s0 : State) (p : Pkt) : State :=
  let s := s0.untag p
  let s1 := { s with outst := Map.set false s.outst (txKey p.dst p.txid) false,
                     reqs := Map.set none s.reqs (txKey p.dst p.txid) none }
  match s1.txwait.find? (fun q => decide (q.src = p.dst)) with
  | some q => ({ s1 with txwait := takeOut q s1.txwait }).request q
  | none => s1

/-- A packet delivered to the agent it names: it waits for those ahead of it (R151); else what a proxy sink or a fence answers (Table
5.10, R167), a stale response absorbed (R168), or the agent's own action f on the state without the packet. -/
def State.deliver (s : State) (p : Pkt) (f : State → State) : State :=
  let s1 := s.take p
  let old := opAnswers p.op && Map.get false s.stale (txKey p.dst p.txid)
  if s.behind p then s
  else if s.proxied p.dst then
    if opIsReq p.op then s1.inject { rsp p (answerOp p.op) 3 with src := { p.dst with agent := 7 } }
    else match p.op with
      | .SnpS | .SnpX => s1.inject { rsp p .SnpRsp 0 with src := { p.dst with agent := 7 }, dst := sliceAgt (s.sliceOf (p.addr / 64)) }
      | .Inv => s1.inject { rsp p .InvAck 0 with src := { p.dst with agent := 7 }, dst := sliceAgt (s.sliceOf (p.addr / 64)) }
      | _ => if clsNo (opCls p.op) = 4 then (if old then s1.clearStale p else s1).absorb p.dst else f s1
  else if s.fenced p.dst && opIsReq p.op then s1.inject { rsp p (answerOp p.op) 3 with src := { p.dst with agent := 7 } }
  else if old then (s1.clearStale p).absorb p.dst
  else f s1

end Sys2Proof.Machine
end

