-- ==== Sys2Proof/Machine/Ecam.lean ====
section
/-! DEFINITION. Configuration space (11_ports_and_endpoints.md, R322 to R327): which function an ECAM address names, what
its registers read and which bits a write changes. The layout inside a standard capability is that of the PCI Express
specification, which the spec names (log entry 27). -/

namespace Sys2Proof.Machine
open Sys2Proof

/-- The ports in a mode, ascending: 0 DISABLED, 1 CXL_MEM, 2 PCIE_RP (R307). -/
def State.portMode (s : State) (p : Nat) : Nat := s.fld (portBase p + 0x10000 + 0x1000 * (p % 4)) 1 0
def State.portLink (s : State) (p : Nat) : Nat := s.fld (portBase p + 0x10008 + 0x1000 * (p % 4)) 3 0
def State.rootPorts (s : State) : List Nat := (List.range 64).filter (fun p => decide (s.portMode p = 2))

/-- What an ECAM address names (R323, R324): a root port, a data-engine function, a bus behind a root port, or nothing. -/
inductive CfgTgt where
  | rootPort (p reg : Nat) | engine (d reg : Nat) | downstream (p bus : Nat) (type1 : Bool) | absent
  deriving DecidableEq, Repr

/-- The function that a segment's offset names. -/
def State.cfgTarget (s : State) (seg off : Nat) : CfgTgt :=
  let bus := off / 2 ^ 20
  let dev := off / 2 ^ 15 % 32
  let fn := off / 2 ^ 12 % 8
  let reg := off % 4096
  if seg = 0 then
    if bus ≠ 0 then .absent
    else if dev < 8 then
      match s.rootPorts[8 * dev + fn]? with
      | some p => .rootPort p reg
      | none => .absent
    else if (dev = 8 ∨ dev = 9) ∧ fn = 0 then .engine (dev - 8) reg
    else .absent
  else
    let p := 4 * (seg - 1) + bus / 64
    if s.portMode p ≠ 2 ∨ s.portLink p ≠ 2 then .absent
    else
      let sub := (s.cfgw p 0x18).toNat / 2 ^ 16 % 256
      let ari := (s.cfgw p 0x88).getLsbD 5
      if bus % 64 = 0 then
        (if dev = 0 || ari then .downstream p bus false else .absent)
      else if bus ≤ sub then .downstream p bus true
      else .absent

/-- Whether device dev of segment 0 has more than one root port. -/
def State.multiFn (s : State) (dev : Nat) : Bool := decide (8 * dev + 1 < s.rootPorts.length)

/-- Device number of a root port in segment 0. -/
def State.rootDev (s : State) (p : Nat) : Nat := (s.rootPorts.takeWhile (fun q => decide (q < p))).length / 8

/-- The RO bits of a root port's register, a dword (Table 11.6). -/
def State.rootRo (s : State) (p off : Nat) : BitVec 32 :=
  let link := s.rdCsr (portBase p + 0x10008 + 0x1000 * (p % 4))
  let mode := s.rdCsr (portBase p + 0x10000 + 0x1000 * (p % 4))
  let surprise : Nat := if bitB mode 7 then 2 ^ 5 else 0
  match off with
  | 0x00 => 0x5A201F5C
  | 0x04 => 0x00100000
  | 0x08 => 0x06040001
  | 0x0C => if s.multiFn (s.rootDev p) then 0x00810000 else 0x00010000
  | 0x18 => BitVec.ofNat 32 (64 * (p % 4) * 2 ^ 8)
  | 0x20 => 0x0000FFF0
  | 0x24 => 0x00010001
  | 0x34 => 0x00000040
  | 0x40 => 0x00034801
  | 0x48 => 0x01806005
  | 0x60 => 0x01420010
  | 0x64 => 0x00008002
  | 0x6C => BitVec.ofNat 32 (bitsN mode 4 2 + 8 / 2 ^ bitsN mode 6 5 * 2 ^ 4 + p * 2 ^ 24)
  | 0x70 => BitVec.ofNat 32 ((if bitsN link 3 0 = 2 then 2 ^ 29 else 0) + bitsN link 6 4 * 2 ^ 16 + bitsN link 10 7 * 2 ^ 20)
  | 0x74 => BitVec.ofNat 32 (0x5F + surprise + p * 2 ^ 19)
  | 0x84 => 0x000001A3
  | 0x100 => 0x18020001
  | 0x180 => 0x1901000D
  | 0x184 => 0x0000001F
  | 0x190 => 0x1C010019
  | 0x1C0 => 0x2201001D
  | 0x220 => 0x23010025
  | 0x230 => 0x26010026
  | 0x260 => 0x2901002A
  | 0x290 => 0x00010031
  | _ => 0

/-- The RW bits and the RW1C bits of a root port's register. -/
def rootMask (off : Nat) : BitVec 32 × BitVec 32 :=
  match off with
  | 0x04 => (0x00000146, 0xF9000000)
  | 0x0C => (0x000000FF, 0)
  | 0x18 => (0x00FF0000, 0)
  | 0x1C => (0, 0xF9000000)
  | 0x24 => (0xFFF0FFF0, 0)
  | 0x28 => (0xFFFFFFFF, 0)
  | 0x2C => (0xFFFFFFFF, 0)
  | 0x3C => (0x005300FF, 0)
  | 0x44 => (0x00000003, 0)
  | 0x48 => (0x00010000, 0)
  | 0x4C => (0xFFFFFFFC, 0)
  | 0x50 => (0xFFFFFFFF, 0)
  | 0x54 => (0x0000FFFF, 0)
  | 0x58 => (0x00000001, 0)
  | 0x68 => (0x00007FFF, 0x000F0000)
  | 0x70 => (0x000000F3, 0)
  | 0x78 => (0x00001FFF, 0x011F0000)
  | 0x7C => (0x0000001F, 0)
  | 0x80 => (0, 0x00010000)
  | 0x88 => (0x0000002F, 0)
  | 0x104 => (0, 0x07FFF030)
  | 0x108 => (0x07FFF030, 0)
  | 0x10C => (0x07FFF030, 0)
  | 0x110 => (0, 0x0000F1C1)
  | 0x114 => (0x0000F1C1, 0)
  | 0x118 => (0x00000140, 0)
  | 0x12C => (0x00000007, 0)
  | 0x130 => (0, 0x0000007F)
  | 0x184 => (0x001F0000, 0)
  | 0x1C4 => (0x003B0000, 0)
  | 0x1C8 => (0, 0x00000009)
  | _ => (0, 0)

/-- The RO bits of a data-engine function's register, a dword (Tables 11.7, 11.8). -/
def State.engRo (s : State) (off : Nat) : BitVec 32 :=
  match off with
  | 0x00 => 0x5A101F5C
  | 0x04 => 0x00100400
  | 0x08 => 0x12000001
  | 0x10 => 0x00000004
  | 0x18 => 0x00000004
  | 0x20 => 0x00000004
  | 0x2C => if s.fuses.assurance then 0x00021F5C else 0x00011F5C
  | 0x34 => 0x00000040
  | 0x40 => 0x00034801
  | 0x48 => 0x07FF6011
  | 0x4C => 0x00000004
  | 0x50 => 0x00008004
  | 0x60 => 0x00920010
  | 0x64 => 0x10008002
  | 0x100 => 0x15020001
  | 0x150 => 0x0001000B
  | 0x154 => 0x02010001
  | 0x158 => 0x00000100
  | 0x15C => 0x00008000
  | 0x160 => 0x00000020
  | _ => 0

/-- The RW bits and the RW1C bits of a data-engine function's register. -/
def engMask (off : Nat) : BitVec 32 × BitVec 32 :=
  match off with
  | 0x04 => (0x00000146, 0xC9000000)
  | 0x0C => (0x000000FF, 0)
  | 0x10 => (0xFFFF0000, 0)
  | 0x14 => (0x000FFFFF, 0)
  | 0x18 => (0xFFF00000, 0)
  | 0x1C => (0x000FFFFF, 0)
  | 0x20 => (0xFFFF0000, 0)
  | 0x24 => (0x000FFFFF, 0)
  | 0x3C => (0x000000FF, 0)
  | 0x44 => (0x00000003, 0)
  | 0x48 => (0xC0000000, 0)
  | 0x68 => (0x00007FFF, 0x000F0000)
  | 0x88 => (0x0000002F, 0)
  | 0x104 => (0, 0x07FFF030)
  | 0x108 => (0x07FFF030, 0)
  | 0x10C => (0x07FFF030, 0)
  | 0x110 => (0, 0x0000F1C1)
  | 0x114 => (0x0000F1C1, 0)
  | 0x118 => (0x00000140, 0)
  | 0x158 => (0x07FF0000, 0)
  | _ => (0, 0)

/-- A configuration register of a function (0..63 root port, 64 + d data engine) as it reads, a dword. -/
def State.cfgDword (s : State) (fn off : Nat) : BitVec 32 :=
  (if fn < 64 then s.rootRo fn off else s.engRo off) ||| s.cfgw fn off

/-- Base of a port's registers (Table 18.6). -/
def prtBase (p : Nat) : Nat := portBase p + 0x10000 + 0x1000 * (p % 4)

/-- A port error record is written, with its interrupt (R338, Table 11.12). -/
def State.prtLog (s : State) (p kind rid tag : Nat) (addr : Nat) : State :=
  let b := prtBase p
  let n := s.fld (b + 0xF8) 3 0
  let a := b + 0x100 + 32 * n
  let full := decide (s.rdCsr (a + 8) ≠ 0)
  let s1 := ((s.wrCsr a s.ctime).wrCsr (a + 8)
    (BitVec.ofNat 64 (kind + rid % 2 ^ 16 * 2 ^ 8 + tag % 2 ^ 14 * 2 ^ 24))).wrCsr (a + 16) (BitVec.ofNat 64 addr)
  let s2 := s1.putFld (b + 0xF8) 3 0 ((n + 1) % 16)
  (if full then s2.putFlag (b + 0xF8) 4 true else s2).sendIrq (b + 0x20) (p % 4)

/-- Whether an ECAM access is well formed and permitted (R322). -/
def cfgOk (q : Requester) (off size : Nat) : Bool :=
  (size = 1 || size = 2 || size = 4) && decide (off % size = 0) && (q.dse || decide (1 ≤ q.lvl))

end Sys2Proof.Machine
end

