-- ==== Sys2Proof/Machine/Heat.lean ====
section
/-! DEFINITION. Uncore counters (R382), and what every request that reaches a home agent does there: the heat of its frame
(02_memory_tiers.md, R47 to R51) and the home agent's error log (R36). -/

namespace Sys2Proof.Machine
open Sys2Proof

/-! ## Uncore counters (R382, Table 13.10) -/

/-- A slice event. -/
def State.sliceEv (s : State) (t ev : Nat) : State := s.ucnt (tileBase t) 0 6 ev (fun _ => true)
/-- A slice event counted n times. -/
def State.sliceEvN (s : State) (t ev : Nat) : Nat → State
  | 0 => s
  | n + 1 => State.sliceEvN (s.sliceEv t ev) t ev n
/-- A home-agent event, with its filter by home function. -/
def State.homeEv (s : State) (h ev : Nat) : State :=
  s.ucnt (chBase (s.hostCh h)) 0 6 ev (fun f => !f.testBit 4 || decide (f % 16 = h))

/-! ## Heat (R48, R49, Table 2.6) -/

/-- The decayed entry in epoch e. -/
def decay (en : Word) (e : Nat) : Word :=
  let elapsed := (e + 64 - eHtag en) % 64
  putW (putW en 55 48 (eHeat en / 2 ^ min elapsed 8)) 61 56 (e % 64)

/-- Class of a decayed heat: 0 HOT, 1 WARM, 2 COOL, 3 COLD. -/
def State.classOf (s : State) (heat : Nat) : Nat :=
  let a := rasBase + 0x100010
  if s.fld a 7 0 ≤ heat then 0 else if s.fld a 15 8 ≤ heat then 1 else if s.fld a 23 16 < heat then 2 else 3

/-- Mode, and whether a class counts as HOT or WARM for promotion under WEIGHT (R51, Table 2.7). -/
def State.sorMode (s : State) : Nat := s.fld (rasBase + 0x100000) 1 0
def hotter (en : Word) (cls : Nat) : Nat := if eWeight en = 1 then cls - 1 else cls

/-- Whether an automatic promotion of a FAR or COMPRESSED frame of a class is called for (Table 2.7, R51). -/
def State.wantsPromote (s : State) (en : Word) (cls : Nat) : Bool :=
  let m := s.sorMode
  let c := hotter en cls
  decide (m ≠ 3) && decide (eKind en = 2 ∨ eKind en = 3) && decide (eWeight en ≠ 2) &&
    !(ePin en && decide (ePinT en = 1)) && (decide (c = 0) || (decide (m = 1) && decide (c ≤ 1)))

/-- An automatic action queued: a frame has at most one, and a later one replaces it (R52). -/
def State.queueAct (s : State) (h : Nat) (a : Action) : State :=
  s.modHome h (fun x => { x with acts := x.acts.filter (fun b => !(b.auto && decide (b.frame = a.frame))) ++ [a] })

/-- A request for a frame arrives: the sampling register steps; a sampled request decays the entry and adds to HEAT, and
one that raises HEAT to HOT queues the promotion (R48, R50). -/
def State.heat (s : State) (h f : Nat) : State :=
  let x := lfsrNext (s.hagt (s.hostCh h)).lfsr
  let s1 := s.modHagt (s.hostCh h) (fun y => { y with lfsr := x })
  if x % 2 ^ s.fld (rasBase + 0x100008) 31 28 = 0 then
    let en := decay (s1.entry f) s1.coord.epoch
    let old := eHeat en
    let en1 := putW en 55 48 (min 255 (old + 1))
    let hot := s.fld (rasBase + 0x100010) 7 0
    let s2 := (s1.setEntry f en1).homeEv h 0x11
    if old < hot ∧ hot ≤ eHeat en1 ∧ (eKind en = 2 ∨ eKind en = 3) then
      let s3 := s2.setEntry f (putW en1 63 62 0)
      if s3.wantsPromote en1 0 then s3.queueAct h { frame := f, dest := 0, port := none, auto := true, cmd := none } else s3
    else s2
  else s1

/-- A record of a home agent's error log: cause, frame or address, requester or block (R36). -/
def State.hlog (s : State) (h cause x who : Nat) : State := { s with homeLog := s.homeLog ++ [[h, cause, x, who, s.ctime.toNat]] }

end Sys2Proof.Machine
end

