-- ==== Sys2Proof/Machine/Translate.lean ====
section
/-! DEFINITION. Translation of a core's accesses and the checks of Table 6.9 (08_translation.md, R227 to R234, R240,
R245; 06_panath_base_isa.md, R185, R186). -/

namespace Sys2Proof.Machine
open Sys2Proof

/-- The regimes of Table 8.1. -/
inductive Regime where
  | physical | host | guest | guestPhys | handler
  deriving DecidableEq, Repr

/-- xlat as the current regime sees it: the guest copy while V = 1 (R229, Table 8.2). -/
def Core.xlat (k : Core) : Word := k.srv (bk k.vf 0x200)

/-- The regime of an access: the first row of Table 8.1 that applies. -/
def Core.regime (k : Core) (fetch : Bool) : Regime :=
  if !fetch && k.shb && bitB k.xlat 2 then .handler
  else if k.pl = 3 then .physical
  else if k.pl = 2 then (if bitB (k.srv 0x200) 1 then .host else .physical)
  else if k.vf then (if bitB k.xlat 0 then .guest else .guestPhys)
  else if bitB (k.srv 0x200) 0 then .host else .physical

/-- log2 of a page size code (Table 8.2). -/
def pageBits (size : Nat) : Nat :=
  if size = 0 then 12 else if size = 1 then 16 else if size = 2 then 21 else if size = 3 then 30 else 39

/-- VMID of the current regime, and its ASID. -/
def Core.curVmid (k : Core) : Nat := if k.vf then bitsN (k.srv 0x210) 8 0 else 0
def Core.curAsid (k : Core) : Nat := bitsN (k.srv (bk k.vf 0x201)) 15 0

/-- Bits of a reference entry (Table 8.3). -/
def rV (e : Word) : Bool := bitB e 0
def rT (e : Word) : Bool := bitB e 1
def rR (e : Word) : Bool := bitB e 2
def rW (e : Word) : Bool := bitB e 3
def rX (e : Word) : Bool := bitB e 4
def rU (e : Word) : Bool := bitB e 5
def rG (e : Word) : Bool := bitB e 6
def rA (e : Word) : Bool := bitB e 7
def rD (e : Word) : Bool := bitB e 8
def rSE (e : Word) : Bool := bitB e 10
def rCONT (e : Word) : Bool := bitB e 11
/-- Whether an RSV bit of an entry is 1: [9] and [57:52], and [11:2] of a table pointer. -/
def rRsv (e : Word) : Bool :=
  bitB e 9 || decide (bitsN e 57 52 ≠ 0) || (rV e && rT e && decide (bitsN e 11 2 ≠ 0))

/-- Whether an L2 TLB entry matches a page number va[56:12] (R234). -/
def TlbEntry.hits (e : TlbEntry) (guest : Bool) (vmid asid vpn : Nat) : Bool :=
  rV e.val && e.guest == guest && (!guest || decide (e.vmid = vmid)) && (rG e.val || decide (e.asid = asid)) &&
    decide (e.vpn / 2 ^ (pageBits e.size - 12) = vpn / 2 ^ (pageBits e.size - 12))

/-- The L2 TLB entry that covers an address in the current regime, with its index. -/
def Core.findTlb (k : Core) (va : Nat) : Option (Nat × TlbEntry) :=
  k.tlb.findSome? (fun e => match e.2 with
    | some t => if t.hits k.vf k.curVmid k.curAsid (va / 2 ^ 12 % 2 ^ 45) then some (e.1, t) else none
    | none => none)

/-- The stage-2 TLB entry that covers a GPA for a VMID, with its index. -/
def Core.findS2 (k : Core) (vmid gpa : Nat) : Option (Nat × TlbEntry) :=
  k.s2tlb.findSome? (fun e => match e.2 with
    | some t => if rV t.val && decide (t.vmid = vmid) &&
        decide (t.vpn / 2 ^ (pageBits t.size - 12) = gpa / 2 ^ pageBits t.size) then some (e.1, t) else none
    | none => none)

/-- The address an entry of a page size maps an address to. -/
def mapAddr (val : Word) (size va : Nat) : Nat :=
  bitsN val 51 12 * 2 ^ 12 / 2 ^ pageBits size * 2 ^ pageBits size + va % 2 ^ pageBits size

/-- What an access needs of its entries and where it may go (R185, R189, R192, R232, Table 6.9): ACC of Table 7.5, the
rights, whether it must be aligned (ATOM major), whether a side-effect page or region is an ACCESS_FAULT, and whether
a clear dirty-permit bit is a MODIFY_TRAP. -/
structure Acc where
  acc : Nat
  r : Bool
  w : Bool
  x : Bool
  atom : Bool
  noSe : Bool
  modify : Bool

/-- The access kinds of R232. -/
def accFetch : Acc := { acc := 0, r := false, w := false, x := true, atom := false, noSe := false, modify := false }
def accLoad : Acc := { acc := 1, r := true, w := false, x := false, atom := false, noSe := false, modify := false }
def accStore : Acc := { acc := 2, r := false, w := true, x := false, atom := false, noSe := false, modify := true }
def accLdaq : Acc := { accLoad with atom := true }
def accStrl : Acc := { accStore with atom := true }
def accLL : Acc := { acc := 3, r := true, w := true, x := false, atom := true, noSe := true, modify := false }
def accAtom : Acc := { acc := 3, r := true, w := true, x := false, atom := true, noSe := true, modify := true }
def accFlush : Acc := { accLoad with noSe := true }
def accZero : Acc := { accStore with noSe := true }

/-- A page of an access after translation: the physical address of the access's first byte in it, the entry, whether the
entry is checked, and whether it is a stage-2 entry. -/
structure PageTr where
  pa : Nat
  val : Word
  free : Bool
  s2 : Bool

/-- s2_cause of a refill (Table 8.2). -/
def s2cause (perm : Bool) (source withheld : Nat) : Word :=
  BitVec.ofNat 64 ((if perm then 1 else 0) + source * 2 + withheld * 8)

/-- SOURCE of an S2_REFILL in a regime (R240, R245). -/
def Regime.source (r : Regime) : Nat := if r = .handler then 1 else 2

/-- Translation of one page of an access (order 4 of Table 6.9). -/
def Core.lookPage (k : Core) (rg : Regime) (va : Word) (acc : Nat) (page2 : Bool) : Except Exc PageTr :=
  let info := tinfoOf 0 acc page2 0
  match rg with
  | .physical => .ok { pa := va.toNat % 2 ^ 52, val := 0, free := true, s2 := false }
  | .handler =>
    if k.vf then
      match k.findS2 (bitsN (k.srv 0x210) 8 0) (va.toNat % 2 ^ 52) with
      | some (_, e) => .ok { pa := mapAddr e.val e.size (va.toNat % 2 ^ 52), val := e.val, free := false, s2 := true }
      | none => .error { code := 0x10, addr := BitVec.ofNat 64 (va.toNat % 2 ^ 52), info := info, s2cause := s2cause false 1 0 }
    else .ok { pa := va.toNat % 2 ^ 52, val := 0, free := true, s2 := false }
  | .guestPhys =>
    match k.findS2 (bitsN (k.srv 0x210) 8 0) (va.toNat % 2 ^ 52) with
    | some (_, e) => .ok { pa := mapAddr e.val e.size (va.toNat % 2 ^ 52), val := e.val, free := false, s2 := true }
    | none => .error { code := 0x10, addr := BitVec.ofNat 64 (va.toNat % 2 ^ 52), info := info, s2cause := s2cause false 2 0 }
  | _ =>
    match k.findTlb va.toNat with
    | some (_, e) => .ok { pa := mapAddr e.val e.size va.toNat, val := e.val, free := false, s2 := false }
    | none => .error { code := 0x04, addr := va, info := info }

/-- The right check of one page (order 5): PERM_FAULT, or S2_REFILL with the rights that stage 2 withholds. -/
def Core.permPage (k : Core) (rg : Regime) (p : PageTr) (va : Word) (a : Acc) (page2 : Bool) : Option Exc :=
  let info := tinfoOf 0 a.acc page2 0
  if p.free then none
  else if p.s2 then
    let held := (if a.r && !rR p.val then 1 else 0) + (if a.w && !rW p.val then 2 else 0) +
      (if a.x && !rX p.val then 4 else 0) + (if a.modify && !rD p.val then 8 else 0)
    if held = 0 then none
    else some { code := 0x10, addr := BitVec.ofNat 64 (va.toNat % 2 ^ 52), info := info, s2cause := s2cause true rg.source held }
  else if (a.r && !rR p.val) || (a.w && !rW p.val) || (a.x && !rX p.val) || (decide (k.pl = 0) && !rU p.val) then
    some { code := 0x05, addr := va, info := info }
  else none

/-- Whether a page of an access is side-effect: by its physical address, or by SE (R22, R247). -/
def PageTr.se (p : PageTr) : Bool := !inSysMem p.pa || (!p.free && rSE p.val)

/-- A translated access: the physical address of each byte, whether it is side-effect, whether through an SE entry, and
its pages. -/
structure Xl where
  pas : List Nat
  se : Bool
  pages : List PageTr

/-- The addresses of n bytes from an address. -/
def spanN (a : Nat) (n : Nat) : List Nat := (List.range n).map (fun i => a + i)

/-- Whether an address is canonical for a regime (order 3, R228). -/
def canonOk (rg : Regime) (va : Word) : Bool :=
  match rg with
  | .handler => true
  | .physical => decide (bitsN va 63 52 = 0)
  | .guestPhys => decide (bitsN va 63 52 = 0)
  | _ => decide (bitsN va 63 56 = 0) || decide (bitsN va 63 56 = 255)

/-- The checks of Table 6.9, in order, for an access of n bytes at va: orders 2 to 4, 6 and 7 always, orders 5 and 8 only
with `full` (R190). -/
def Core.xlate (k : Core) (a : Acc) (va : Word) (n : Nat) (full : Bool := true) : Except Exc Xl :=
  let rg := k.regime (a.acc == 0)
  let info := tinfoOf 0 a.acc false 0
  if a.atom && decide (va.toNat % n ≠ 0) then .error { code := 0x06, addr := va, info := info }
  else if !canonOk rg va || !canonOk rg (va + BitVec.ofNat 64 (n - 1)) then
    .error { code := 0x03, addr := va, info := info }
  else
    let n1 := min n (4096 - va.toNat % 4096)
    let va2 := va + BitVec.ofNat 64 n1
    match k.lookPage rg va a.acc false with
    | .error e => .error e
    | .ok p1 =>
      match (if n1 < n then (k.lookPage rg va2 a.acc true).map (fun p => [p]) else .ok []) with
      | .error e => .error e
      | .ok ps2 =>
        let perm := (k.permPage rg p1 va a false).orElse (fun _ => ps2.findSome? (fun p => k.permPage rg p va2 a true))
        match (if full then perm else none) with
        | some e => .error e
        | none =>
          let se := p1.se || ps2.any PageTr.se
          if se && decide (va.toNat % n ≠ 0) then .error { code := 0x06, addr := va, info := info }
          else if se && a.noSe then .error { code := 0x07, addr := va, info := info }
          else
            let clean (p : PageTr) : Bool := a.modify && !p.free && !p.s2 && !rD p.val
            if full && clean p1 then .error { code := 0x08, addr := va, info := info }
            else if full && ps2.any clean then .error { code := 0x08, addr := va2, info := tinfoOf 0 a.acc true 0 }
            else .ok { pas := spanN p1.pa n1 ++ (ps2.map (fun p => spanN p.pa (n - n1))).flatten, se := se,
                       pages := p1 :: ps2 }

/-- The index of the entry that translates a data address in the current regime, plus 4096 for a stage-2 entry. -/
def Core.tlbIx (k : Core) (va : Word) : Option Nat :=
  let s2 := (k.findS2 (bitsN (k.srv 0x210) 8 0) (va.toNat % 2 ^ 52)).map (fun e => 4096 + e.1)
  match k.regime false with
  | .host => (k.findTlb va.toNat).map (fun e => e.1)
  | .guest => (k.findTlb va.toNat).map (fun e => e.1)
  | .guestPhys => s2
  | .handler => if k.vf then s2 else none
  | .physical => none

/-- The entries that translated accesses at these addresses count as recently used (R233; what sets the mark is a DESIGN CHOICE, log
entry 129). -/
def State.usedTlb (s : State) (c : Nat) (vas : List Word) : State :=
  let ix := vas.filterMap (s.core c).tlbIx
  { s with nru := ix.foldl (fun m i => Map.set false m (8192 * c + i) true) s.nru }
/-- As usedTlb, of the first and the last byte of an access. -/
def State.usedSpan (s : State) (c : Nat) (va : Word) (n : Nat) : State := s.usedTlb c [va, va + BitVec.ofNat 64 (n - 1)]

/-- The addresses that entries translated for an access, with VMID and ASID (R250). -/
def Core.trOf (k : Core) (x : Xl) (va : Word) : List (Nat × Nat × Nat) :=
  if x.pages.all (fun p => p.free) then []
  else [va.toNat, va.toNat + (x.pas.length - 1)].map (fun a => (a % 2 ^ 64, k.curVmid, k.curAsid))

/-- The lines that an access touches, lowest page first. -/
def Xl.lines (x : Xl) : List Nat := (x.pas.map (fun a => a / 64)).eraseDups

end Sys2Proof.Machine
end

