-- ==== Sys2Proof/Machine/Device.lean ====
section
/-! DEFINITION. What devices and units do to the part in one step: device accesses to system memory
(Table 4.3), the interrupt target window (R220 to R222), a root port's errors (R337, R338), and the answers of a device behind
a root port. -/

namespace Sys2Proof.Machine
open Sys2Proof

/-! ## Copies recalled -/

/-- The core record that runs on a physical core: of a lockstepped pair, the logical core (R281). -/
def State.runsOn (s : State) (p : Nat) : Nat :=
  if s.profile = 2 then s.coreOfPhys (p / 2 * 2) else s.coreOfPhys p

/-- A core loses a line: its L2's copy is gone, an eviction-buffer entry goes stale (Table 4.4), and a reservation on it
is cleared (R141). -/
def State.loseLine (s : State) (p line : Nat) : State :=
  let x := s.l2line p line
  let s1 := s.setL2 p line { x with st := .I, wn := 0, evb := x.evb.map (fun e => (e.1, e.2.1, true)) }
  let c := s.runsOn p
  if (s1.core c).resv = some line then s1.modCore c (fun k => { k with resv := none, hold := none }) else s1

/-! ## The L1 data cache (Table 4.1, R113, R141) -/

/-- The bit of a set's tree that stands for a node, 1 the root. -/
def treeBit (t n : Nat) : Bool := t.testBit (n - 1)
/-- The tree after a use of way w: each node on its path points to the other side. -/
def treeUse (t w : Nat) : Nat :=
  let nodes := [(1, w / 4 % 2), (2 + w / 4 % 2, w / 2 % 2), (4 + w / 2 % 4, w % 2)]
  nodes.foldl (fun t x => t - (if treeBit t x.1 then 2 ^ (x.1 - 1) else 0) + (if x.2 = 0 then 2 ^ (x.1 - 1) else 0)) t
/-- The way that the tree points to. -/
def treeWay (t : Nat) : Nat :=
  let b (n : Nat) : Nat := if treeBit t n then 1 else 0
  let i := b 1
  let j := b (2 + i)
  4 * i + 2 * j + b (4 + 2 * i + j)

/-- The lines of a physical core's L1 data cache in a line's set of 8, with their ways. -/
def State.l1Mates (s : State) (p line : Nat) : List (Nat × Nat) :=
  s.l2.filterMap (fun e => if e.1 / 2 ^ 42 = p ∧ e.1 % 128 = line % 128 then e.2.l1.map (fun w => (e.1 % 2 ^ 42, w)) else none)

/-- A line leaves the L1 data cache of core c, on physical core p: a reservation of it is cleared (R141). -/
def State.l1Lose (s : State) (c p line : Nat) : State :=
  let s1 := s.setL2 p line { s.l2line p line with l1 := none }
  if (s1.core c).resv = some line then s1.modCore c (fun k => { k with resv := none, hold := none }) else s1

/-- A load or store of core c, on physical core p, uses a line that its L2 holds: it fills the L1 data cache, in the lowest empty way or in place of the line
that the tree names, whose loss clears a reservation of it (R141, Table 4.1; log entry 118). -/
def State.l1Use (s : State) (c p line : Nat) : State :=
  let x := s.l2line p line
  if x.st = .I then s
  else
    let key := 128 * p + line % 128
    let t := Map.get 0 s.plru key
    let used (s : State) (w : Nat) : State := { s with plru := Map.set 0 s.plru key (treeUse t w) }
    match x.l1 with
    | some w => used s w
    | none =>
      let mates := s.l1Mates p line
      let w := ((List.range 8).find? (fun w => !mates.any (fun m => decide (m.2 = w)))).getD (treeWay t)
      let s1 := match mates.find? (fun m => decide (m.2 = w)) with
        | some (l, _) => s.l1Lose c p l
        | none => s
      used (s1.setL2 p line { s1.l2line p line with l1 := some w }) w

/-- Lines used in turn. -/
def State.l1UseAll (s : State) (c p : Nat) (lines : List Nat) : State := lines.foldl (fun (s : State) l => s.l1Use c p l) s

/-- The physical cores that a directory state may mean (R121): the pointers, every core of the marked groups, the owner. -/
def DirSt.copies : DirSt → List Nat
  | .U => []
  | .S l => l
  | .SC g => ((List.range 68).filter (fun j => g.getLsbD j)).flatMap (fun j => spanN (16 * j) 16)
  | .X o => [o]

/-- Every copy but one core's is lost. -/
def State.loseOthers (s : State) (p line : Nat) : List Nat → State
  | [] => s
  | q :: qs => State.loseOthers (if q = p then s else s.loseLine q line) p line qs

/-- Whether a core holds a line under a load-linked (R142), so that snoops for it wait. -/
def State.heldBy (s : State) (p : Nat) (line : Nat) : Bool :=
  (s.dline line).st.copies.any (fun q => decide (q ≠ p) &&
    (let k := s.core (s.runsOn q)
     k.hold.isSome && decide (k.resv = some line)))

/-- Whether an L2 has a line in M, in the cache or in an eviction-buffer entry that is not stale. -/
def L2Line.dirty (x : L2Line) : Bool := decide (x.st = .M) || x.evb.any (fun e => !e.2.2 && decide (e.1 = .M))

/-- Whether a private copy of a line is modified. -/
def State.copyDirty (s : State) (line : Nat) : Bool := (s.dline line).st.copies.any (fun o => (s.l2line o line).dirty)

/-- A slice's record of a line changed. -/
def State.modDir (s : State) (line : Nat) (f : DirLine → DirLine) : State := s.setDline line (f (s.dline line))

/-- The agent of a line's slice. -/
def State.homeSlice (s : State) (line : Nat) : Agt := sliceAgt (s.sliceOf line)

/-- A packet from the line's slice. -/
def State.fromSlice (s : State) (line : Nat) (op : Op) (dst : Agt) (txid : Nat) : Pkt :=
  { op := op, src := s.homeSlice line, dst := dst, txid := txid, addr := 64 * line }

/-! ## Ways and tags (R112, R113, R125, Table 4.1)

A fill takes the lowest-numbered enabled way that is empty, else the way of a victim. The prediction bits of "2-bit re-reference
prediction" are not given: the victim is a free choice among the lines that may be replaced (log entry 118). -/

/-- The entries of a slice's eviction buffer in use. -/
def State.slicePuts (s : State) (t : Nat) : Nat := (s.dir.filter (fun e => e.2.evb.isSome && decide (s.sliceOf e.1 = t))).length

/-- A DIRTY line moves to the slice's eviction buffer and a Put goes to the home agent (Table 4.4). -/
def State.slicePutHome (s : State) (l : Nat) : State :=
  (s.modDir l (fun d => { d with way := .none, wn := 0, evb := some false })).request
    { s.fromSlice l .HPut (s.homeAgt (64 * l)) 0 with poison := s.poisoned l }

/-- A directory tag evicted: every private copy goes; dirty data goes to the home agent (Table 4.3). -/
def State.evictTag (s : State) (l : Nat) : State :=
  let s1 := ((s.sliceEv (s.sliceOf l) 0xE).loseOthers 1088 l (s.dline l).st.copies).modDir l (fun d => { d with st := .U })
  if s.copyDirty l then s1.slicePutHome l else s1

/-- A set has 32 directory-only tags: one more evicts the least recently used that no transaction uses; it waits while the
eviction buffer has no entry for modified data. -/
def State.capTags (s : State) (line : Nat) : State :=
  let l := Map.get [] s.dtags (s.dirSet line)
  if l.length ≤ 32 then s
  else match l.reverse.find? (fun v => (s.dline v).busy.isNone && (s.dline v).evb.isNone &&
      (!s.copyDirty v || decide (s.slicePuts (s.sliceOf line) < 16))) with
    | some v => s.evictTag v
    | none => s

/-- The data ways of a slice that are not disabled. -/
def State.l3Ways (s : State) (t : Nat) : List Nat := (List.range 16).filter (fun i => !s.flag (tileBase t + 0x40000) i)

/-- The lines with a data way in a line's set. -/
def State.setMates (s : State) (line : Nat) : List (Nat × DirLine) :=
  s.dir.filter (fun e => decide (e.2.way ≠ .none) && decide (s.dirSet e.1 = s.dirSet line))

/-- The lines that a fill may replace: unlocked, in an enabled way, with no transaction; a DIRTY one needs an entry of the eviction
buffer. -/
def State.victims (s : State) (line : Nat) : List (Nat × DirLine) :=
  (s.setMates line).filter (fun e => (s.l3Ways (s.sliceOf line)).contains e.2.wn && !e.2.lock && e.2.busy.isNone && e.2.evb.isNone &&
    (decide (e.2.way = .clean) || decide (s.slicePuts (s.sliceOf line) < 16)))

/-- A way for a line in its set; a victim that private caches hold keeps a directory-only tag (R113). -/
def State.sliceWay (s : State) (line : Nat) : Option (Nat × State) :=
  match (s.l3Ways (s.sliceOf line)).find? (fun i => !(s.setMates line).any (fun e => decide (e.2.wn = i))) with
  | some i => some (i, s)
  | none => match (s.victims line)[s.draw (s.victims line).length]? with
    | some (v, d) =>
      let s1 := if d.way = .dirty then s.bump.slicePutHome v else s.bump.modDir v (fun d => { d with way := .none, wn := 0 })
      some (d.wn, s1.capTags line)
    | none => none

/-- A line's data way set to a state. A line without one takes a way of its set; where none can be had, clean data is not kept and
dirty data waits for the home agent in the eviction buffer. -/
def State.setWay (s : State) (line : Nat) (w : Way) : State :=
  if w = .none then s.modDir line (fun d => { d with way := .none, wn := 0 })
  else if (s.dline line).way ≠ .none then s.modDir line (fun d => { d with way := w })
  else match s.sliceWay line with
    | some (i, s1) => s1.modDir line (fun d => { d with way := w, wn := i })
    | none => if w = .dirty then s.slicePutHome line else s

/-- A CLEAN data way where the line had none (Table 4.3, "filled into a data way"). -/
def State.fillClean (s : State) (line : Nat) : State := if (s.dline line).way = .none then s.setWay line .clean else s

/-- Whether a request that fills a data way can have one now. -/
def State.hasRoom (s : State) (line : Nat) : Bool := decide ((s.dline line).way ≠ .none) || (s.sliceWay line).isSome

/-- A line leaves an L2 through its eviction buffer of 32 entries, and a Put goes to its slice; a reservation on it is cleared
(R125, R141). -/
def State.l2Evict (s : State) (p l : Nat) : Option State :=
  let x := s.l2line p l
  let n := (s.l2.filter (fun e => decide (e.1 / 2 ^ 42 = p) && e.2.evb.isSome)).length
  if x.st = .I ∨ x.evb.isSome ∨ 32 ≤ n then none
  else
    let op : Op := match x.st with | .M => .PutM | .E => .PutE | _ => .PutS
    some (((s.loseLine p l).setL2 p l { x with st := .I, wn := 0, evb := some (x.st, false, false) }).request
      { op := op, src := physAgt p, dst := s.homeSlice l, txid := 0, addr := 64 * l })

/-- The ways of an L2 that are not disabled. -/
def State.l2Ways (s : State) (p : Nat) : List Nat := (List.range 16).filter (fun i => !s.flag (tileBase (p / 2) + 0x30000 + 8 * (p % 2)) i)

/-- The lines of a core's L2 in a line's set of 1,024; the set is the low bits of the line address (log entry 118). -/
def State.l2Mates (s : State) (p line : Nat) : List (Nat × L2Line) :=
  s.l2.filter (fun e => decide (e.1 / 2 ^ 42 = p) && decide (e.2.st ≠ .I) && decide (e.1 % 1024 = line % 1024))

/-- A way of an L2 for a line: its own, an empty enabled one, or that of a victim, which is evicted; a line that a load-linked holds
is no victim. None while the eviction buffer is full. -/
def State.l2Way (s : State) (p line : Nat) : Option (Nat × State) :=
  let mates := s.l2Mates p line
  if (s.l2line p line).st ≠ .I then some ((s.l2line p line).wn, s)
  else match (s.l2Ways p).find? (fun i => !mates.any (fun e => decide (e.2.wn = i))) with
  | some i => some (i, s)
  | none =>
    let k := s.core (s.runsOn p)
    let vs := mates.filter (fun e => (s.l2Ways p).contains e.2.wn && !(k.hold.isSome && decide (k.resv = some (e.1 % 2 ^ 42))))
    match vs[s.draw vs.length]? with
    | some (key, x) => (s.bump.l2Evict p (key % 2 ^ 42)).map (fun t => (x.wn, t))
    | none => none

/-- A line installed in an L2 in a state. -/
def State.l2Put (s : State) (p line : Nat) (st : Mesi) : Option State :=
  match s.l2Way p line with
  | some (n, s1) => some (s1.setL2 p line { s1.l2line p line with st := st, wn := n })
  | none => none

/-! ## Device accesses in one step

The DSE, the home agents, the engines and the cores' own units read and write system memory as devices do (RdNC, WrF and
WrP of Table 4.3). Here such an access takes one step at the line's slice: the copies that its row names are recalled, a read
binds its value, and a write's bytes are performed. What the access is to the home agent follows: a read that reaches it
counts there and is logged, and a write that finds no data way goes on as a packet, the line waiting for its answer
(log entry 22). -/

/-- Status of a device access to a line that goes to the home agent, by the state of the slice (Table 4.3). -/
def State.dmaStatus (s : State) (line : Nat) : Nat :=
  let d := s.dline line
  if !inSysMem (64 * line) then 2
  else if s.fencedAgt (routerOfTile (s.sliceOf line)) 2 then 3
  else match d.st with
    | .X _ => 0
    | _ => if d.way ≠ .none ∨ d.evb.isSome = true then 0 else s.homeStatus (line / 2 ^ 15)

/-- The lines of n bytes at pa. -/
def dmaLines (pa n : Nat) : List Nat := spanN (pa / 64) ((pa + n + 63) / 64 - pa / 64)

/-- A device read of n bytes at pa: its status (0x100 for poisoned data) and its value. -/
def State.dmaRead (s : State) (pa n : Nat) : Nat × Nat :=
  let ls := dmaLines pa n
  match ls.find? (fun l => decide (s.dmaStatus l ≠ 0)) with
  | some l => (s.dmaStatus l, 0)
  | none => if ls.any s.poisoned then (0x100, 0) else (0, s.rdN pa n)

/-- An agent as a log names it. -/
def agtNo (a : Agt) : Nat := 8 * a.router + a.agent

/-- A read of a frame that reaches its home agent: counted, sampled, the entry in the remap cache, and logged when the frame
is UNBACKED (R36, R38, R48). -/
def State.homeSees (s : State) (f who : Nat) : State :=
  let h := f % 12
  if s.homeStatus f = 3 then s
  else
    let s1 := ((s.homeEv h 1).heat h f).rtouch f
    if eKind (s.entry f) = 0 then s1.hlog h 1 f who else s1

/-- SnpS of an owner for a device: it keeps S, and dirty data enters the data way (Table 4.3). -/
def State.dmaSnp (s : State) (line o : Nat) : State :=
  let x := s.l2line o line
  let s1 := if x.st = .I then s.loseLine o line else s.setL2 o line { x with st := .S }
  let s2 := s1.modDir line (fun d => { d with st := if x.st = .I then .U else .S [o] })
  if x.dirty then s2.setWay line .dirty else s2

/-- A device read of a line, at its slice: SnpS to an owner; without data in the slice the read reaches the home agent; an
accepted eviction serves it and the line is installed as CLEAN (Tables 4.3 and 4.4). -/
def State.dmaSee (s : State) (a : Agt) (line : Nat) : State :=
  let d := s.dline line
  if !inSysMem (64 * line) || s.fencedAgt (routerOfTile (s.sliceOf line)) 2 then s
  else match d.st, d.way, d.evb with
    | .X o, _, _ => if s.heldBy 1088 line then s else s.dmaSnp line o
    | _, .none, some true => s.setWay line .clean
    | _, .none, none => s.homeSees (line / 2 ^ 15) (agtNo a)
    | _, _, _ => s

/-- What a device read of n bytes at pa leaves behind. -/
def State.dmaSeen (s : State) (a : Agt) (pa n : Nat) : State := (dmaLines pa n).foldl (fun (s : State) l => s.dmaSee a l) s

/-- A request that stands at its slice already takes a TXID of its agent. -/
def State.takeTx (s : State) (p : Pkt) (t : Nat) : Pkt × State :=
  let q := { p with txid := t }
  (q, { s with outst := Map.set false s.outst (txKey q.src t) true, reqs := Map.set none s.reqs (txKey q.src t) (some q),
               reqAt := Map.set 0 s.reqAt (txKey q.src t) s.ctime.toNat })

/-- A device write of a line at its slice, its bytes performed: copies are lost, an owner's dirty data stays in the data way
unless the whole line is written, and the line is DIRTY there; without a data way the write goes to the home agent; a line
that is busy takes it in its turn (R122, Table 4.3). -/
def State.dmaPut (s : State) (a : Agt) (line : Nat) (full : Bool) (mask : Nat) : State :=
  let q : Pkt := { op := if full then .WrF else .WrP, src := a, dst := sliceAgt (s.sliceOf line), txid := 0, addr := 64 * line,
                   mask := mask, data := s.rdLine line, dirty := true }
  let d := s.dline line
  match s.freeTx a with
  | none => { s with txwait := s.txwait ++ [q] }
  | some t =>
  if d.busy.isSome || !d.held.isEmpty || decide (d.evb = some true) then
    let (r, s1) := s.takeTx q t
    s1.setDline line { s1.dline line with held := d.held ++ [r] }
  else
    let s1 := s.loseOthers 1088 line d.st.copies
    if d.way ≠ .none ∨ (s.copyDirty line = true ∧ full = false) ∨ d.evb.isSome = true then
      let s2 := (s1.modDir line (fun d => { d with st := .U, evb := none })).setWay line .dirty
      if d.evb.isSome then
        s2.inject { op := .PutCancel, src := q.dst, dst := s.homeAgt (64 * line), txid := 0, addr := 64 * line }
      else s2
    else
      let (r, s2) := s1.takeTx q t
      (((s2.sliceEv (s.sliceOf line) 3).setDline line { s2.dline line with st := .U, busy := some (r, .home) }).request
        { q with op := if full then .HWrF else .HWrP, src := q.dst, dst := s.homeAgt (64 * line) })

/-- The bytes of a line that a write of n bytes at pa covers. -/
def dmaMask (pa n line : Nat) : Nat :=
  ((List.range 64).map (fun i => if pa ≤ 64 * line + i ∧ 64 * line + i < pa + n then 2 ^ i else 0)).sum

/-- A device write whose line a core holds for a load-linked (R142) waits as a packet at the line's slice. -/
def State.dmaSend (s : State) (a : Agt) (line : Nat) (full : Bool) (mask : Nat) (d : Line) (poison : Bool) : State :=
  s.request { op := if full then .WrF else .WrP, src := a, dst := sliceAgt (s.sliceOf line), txid := 0, addr := 64 * line,
              mask := mask, data := d, poison := poison }

/-- A device write of n bytes at pa by an agent: its status; a write to a frame that answers with a status is dropped, which an
UNBACKED frame's home agent logs (R36). A line written whole loses its poison (R115). -/
def State.dmaWrite (s : State) (a : Agt) (pa v n : Nat) : Nat × State :=
  let ls := dmaLines pa n
  match ls.find? (fun l => decide (s.dmaStatus l ≠ 0) || s.farLost (l / 32768)) with
  | some l =>
    if s.dmaStatus l = 0 then (5, s) else (s.dmaStatus l, if s.dmaStatus l = 1 then s.homeSees (l / 2 ^ 15) (agtNo a) else s)
  | none =>
    let whole (l : Nat) : Bool := decide (pa ≤ 64 * l ∧ 64 * l + 64 ≤ pa + n)
    let u := s.wrN pa v n
    let put (s : State) (l : Nat) : State := (if whole l then s.setPoison l false else s).dmaPut a l (whole l) (dmaMask pa n l)
    if ls.any (s.heldBy 1088) then
      (0, ls.foldl (fun (s : State) l =>
        if s.heldBy 1088 l then s.dmaSend a l (whole l) (dmaMask pa n l) (u.rdLine l) false
        else put (s.wrCells (maskCells l (u.rdLine l) (dmaMask pa n l))) l) s)
    else (0, ls.foldl put u)

/-! ## Tagging by a front end (R381) -/

/-- The words of a record as one line. -/
def wordsLine (ws : List Word) : Nat := (ws.zipIdx.map (fun x => x.1.toNat * 2 ^ (64 * x.2))).sum

/-- A request that the agent of a port cluster or data engine makes in one step meets the sampler of its stop block: one
that is chosen leaves a TAG record in the front end's ring, unless the ring is full. Its TXID, times and legs are free. -/
def State.tagIo (s : State) (a : Agt) (op : Op) (pa status : Nat) : State :=
  let b := routerBase a.router + 0x70100
  if !s.flag b 0 || !s.flag b (tagBit op) || bitB (s.rdCsr (keyBase + 0x10)) 32 then s
  else
    let k := 8 * a.router + a.agent
    let x := lfsrNext (Map.get 1 s.tagLfsr k)
    let s1 := { s with tagLfsr := Map.set 1 s.tagLfsr k x }
    let tail := (s.rdCsr (b + 0x18)).toNat
    let size := 2 ^ s.fld (b + 8) 4 0
    if x % 2 ^ s.fld b 4 1 ≠ 0 ∨ (tail + 1) % size = (s.rdCsr (b + 0x10)).toNat then s1
    else
      let f (i : Nat) : Word := Config.freeWord (s.free + 2 ^ 64 * (2 ^ 60 + i))
      let src : Nat := match op with
        | .RdNC | .FAtom => 1 + (f 0).toNat / 2 ^ 16 % 14
        | _ => 0
      let w0 := 4 + opCode op % 128 * 2 ^ 4 + (if status = 0 then src else 15) * 2 ^ 11 + (if bitB (f 0) 15 then 2 ^ 15 else 0) +
        (f 0).toNat % 4096 * 2 ^ 16 + a.router % 1024 * 2 ^ 28 + a.agent % 8 * 2 ^ 38 + pa / 2 ^ 21 % 12 * 2 ^ 41 + status % 256 * 2 ^ 45
      let w := s1.bump.dmaWrite a (bitsN (s.rdCsr (b + 8)) 51 12 * 2 ^ 12 + 64 * tail)
        (wordsLine [BitVec.ofNat 64 w0, BitVec.ofNat 64 (pa / 64 * 64), s.ctime, f 1, f 2, BitVec.ofNat 64 ((f 3).toNat % 2 ^ 32), f 4, 0]) 64
      if w.1 = 0 then w.2.wrCsr (b + 0x18) (BitVec.ofNat 64 ((tail + 1) % size)) else w.2

/-! ## Interrupt target window (R220 to R222) -/

/-- A posted write to a slot that is valid (R222 step 3): the vector's PEND bit, and the notification of a slot that is not
current on a core that runs its guest. -/
def State.postPend (s : State) (c sl v : Nat) : State :=
  let ctl := s.rdCsr (s.slotAddr c sl 0x80)
  let s1 := s.putFlag (s.slotAddr c sl (8 * (v / 64))) (v % 64) true
  let k := s1.core c
  let current := decide (k.slotCur = some sl) && k.vf
  if !current && bitB ctl 10 && bitB (s1.rdCsr (s.slotAddr c sl (0x40 + 8 * (v / 64)))) (v % 64) &&
      decide (bitsN ctl 29 26 < v / 32) then s1.pend c (bitsN ctl 9 1)
  else s1.wake c

/-- A posted write of a requester (its router, its agent, the address it wrote) that reaches a slot, forwarded or not: none where it has
the outcome of R23, some 1 where the slot forwards it. -/
def State.postAt (s : State) (c sl v : Nat) (fwd : Bool) (q : Nat × Nat × Nat) : Option Nat × State :=
  if s.lcState c = 0 ∨ s.lcState c = 3 then (none, s)
  else if s.lcState c = 2 then (some 0, s.modCore c (fun k => { k with heldMsi := k.heldMsi ++ [{ slot := some sl, vec := v, fwd := fwd, router := q.1, agent := q.2.1, addr := q.2.2 }] }))
  else
    let ctl := s.rdCsr (s.slotAddr c sl 0x80)
    if bitB ctl 11 then (if fwd then (none, s) else (some 1, s))
    else if !bitB ctl 0 then (none, s)
    else (some 0, s.postPend c sl v)

/-- A posted write (R222): one with REDIR = 1 is forwarded once. -/
def State.postWrite (s : State) (c sl v : Nat) (q : Nat × Nat × Nat) : Bool × State :=
  match s.postAt c sl v false q with
  | (none, s1) => (false, s1)
  | (some 0, s1) => (true, s1)
  | (some _, _) =>
    let ctl := s.rdCsr (s.slotAddr c sl 0x80)
    let r := s.postAt (bitsN ctl 21 12) (bitsN ctl 25 22) v true q
    (r.1.isSome, r.2)

/-- A write to the interrupt target window at offset o: the status, and the state (R220, R221, Table 7.11). -/
def State.winWrite (s : State) (o size v router agent : Nat) : Nat × State :=
  let c := o / 2 ^ 12 % 2 ^ 10
  let bad : Nat × State := (2, s.aerr (intBase + o) true router agent)
  if size ≠ 4 ∨ o % 4 ≠ 0 ∨ 512 ≤ v ∨ o / 2 ^ 22 % 2 ^ 9 ≠ 0 ∨ o % 2 ^ 8 ≠ 0 then bad
  else if o / 2 ^ 31 = 0 then
    (if o / 2 ^ 8 % 16 ≠ 0 ∨ s.lcState c = 0 ∨ s.lcState c = 3 then bad else (0, s.pend c v))
  else
    match s.postWrite c (o / 2 ^ 8 % 16) v (router, agent, intBase + o) with
    | (true, s1) => (0, s1)
    | (false, _) => bad

/-- A message-signalled write of a root port or a data-engine function (R327, R337): to the interrupt window or to system
memory; false for any other address. -/
def State.msgWrite (s : State) (addr data : Nat) (a : Agt) : Bool × State :=
  match region addr with
  | .intWin o => let r := s.winWrite o 4 data a.router a.agent; (true, r.2)
  | .sysMem => (true, (s.dmaWrite a addr data 4).2)
  | _ => (false, s)

/-! ## Ports -/

/-- A port. -/
def State.port (s : State) (p : Nat) : Port := Map.get Port.reset s.ports p
def State.setPort (s : State) (p : Nat) (x : Port) : State := { s with ports := Map.set Port.reset s.ports p x }
def State.modPort (s : State) (p : Nat) (f : Port → Port) : State := s.setPort p (f (s.port p))

/-- A port event (Table 13.10). -/
def State.portEv (s : State) (p ev : Nat) : State := s.ucnt (portBase p) 0 6 ev (fun f => decide (f % 4 = p % 4))

/-- PRT_LINK.STATE, SPEED and WIDTH set. -/
def State.setLink (s : State) (p st : Nat) : State :=
  let s1 := s.putFld (prtBase p + 8) 3 0 st
  if st = 2 then s1 else s1.putFld (prtBase p + 8) 6 4 0

/-- A port event of Table 11.12: its record and its fault report (R337, R430). -/
def State.portFault (s : State) (p kind rid tag addr sev : Nat) : State :=
  (s.prtLog p kind rid tag addr).report 0x21 p 0 sev addr

/-- What a port sends to its device. -/
def State.toDevice (s : State) (p : Nat) (x : List Nat) : State := s.modPort p (fun y => { y with sent := y.sent ++ [x] })

/-! ## Root port events (R337) -/

/-- The root port's MSI (Table 11.6): sent when enabled; one that is masked stays pending. -/
def State.rootMsi (s : State) (p : Nat) : State :=
  if !(s.cfgw p 0x48).getLsbD 16 then s
  else if (s.cfgw p 0x58).getLsbD 0 then s.setCfg p 0x5C 1
  else (s.msgWrite ((s.cfgw p 0x4C).toNat + (s.cfgw p 0x50).toNat * 2 ^ 32) ((s.cfgw p 0x54).toNat % 2 ^ 16) (portAgt p)).2

/-- Bits of a configuration register set by the part. -/
def State.cfgOr (s : State) (fn off : Nat) (v : BitVec 32) : State := s.setCfg fn off (s.cfgw fn off ||| v)
/-- Bits of a configuration register cleared by the part. -/
def State.cfgClear (s : State) (fn off : Nat) (v : BitVec 32) : State := s.setCfg fn off (s.cfgw fn off &&& ~~~ v)

/-- An uncorrectable error in the AER registers of a root port: its status bit, Device Status and Root Error Status by
its severity, and the MSI that Root Error Command enables. Answers whether the error is fatal and not masked. -/
def State.aerUnc (s : State) (p bit : Nat) : Bool × State :=
  let b : BitVec 32 := BitVec.ofNat 32 (2 ^ bit)
  let s1 := s.cfgOr p 0x104 b
  if s.cfgw p 0x108 &&& b ≠ 0 then (false, s1)
  else
    let fatal := decide (s.cfgw p 0x10C &&& b ≠ 0)
    let s2 := (s1.cfgOr p 0x68 (if fatal then 0x40000 else 0x20000)).cfgOr p 0x130 (if fatal then 0x44 else 0x24)
    (fatal, if (s.cfgw p 0x12C).getLsbD (if fatal then 2 else 1) then s2.rootMsi p else s2)

/-! ## Requests to a device in one step -/

/-- The lowest link tag neither outstanding nor in quarantine. -/
def Port.freeTag (x : Port) (n : Nat) : Option Nat :=
  findFrom (fun t => !x.out.any (fun r => decide (r.tag = t)) && !x.quar.contains t) 0 n

/-- Whether a root port's window decodes an address, whatever the link does (R317). -/
def State.mmioHit (s : State) (p pa : Nat) : Bool :=
  let w := (s.cfgw p 0x24).toNat
  let lo := w / 16 % 2 ^ 12 * 2 ^ 20 + (s.cfgw p 0x28).toNat * 2 ^ 32
  let hi := w / 2 ^ 20 % 2 ^ 12 * 2 ^ 20 + 0xFFFFF + (s.cfgw p 0x2C).toNat * 2 ^ 32
  decide (lo ≤ pa) && decide (pa ≤ hi) && (s.cfgw p 0x04).getLsbD 1

/-- Whether a root port's window decodes an address and its link is UP (R317). -/
def State.mmioDecodes (s : State) (p pa : Nat) : Bool := s.mmioHit p pa && decide (s.portLink p = 2)

/-- Whether a request waits in a root port's buffers (R310, R321): the link retrains, requests wait already, or a non-posted
one finds no tag free or 256 in quarantine. -/
def State.portWaits (s : State) (p : Nat) (posted : Bool) : Bool :=
  let x := s.port p
  decide (s.portLink p = 3) || !x.wait.isEmpty || (!posted && ((x.freeTag 768).isNone || decide (256 ≤ x.quar.length)))

/-- What a device makes of a non-posted request sent in one step, a free choice: it completes (status 0, or 0x100 for data
with EP = 1), with Unsupported Request or Completer Abort, or, for a configuration request, is retried until RRS_MS passes
(PORT_ERROR); or it exceeds its timeout and its tag enters quarantine (R320, R321, R338). -/
def State.devAnswer (s0 : State) (p pa : Nat) (write cfg : Bool) : Nat × State :=
  let s := ((s0.portEv p 0x01).portEv p (if write then 0x06 else 0x05)).bump
  let back := s.portEv p 0x02
  let tag := ((s.port p).freeTag 768).getD 0
  match s0.draw (if cfg then 6 else 5) with
  | 0 => (0, back)
  | 1 => if write then (0, back) else (0x100, back.prtLog p 9 0 tag pa)
  | 2 => (5, back.portFault p 5 0 tag pa 0)
  | 3 => (5, back.portFault p 6 0 tag pa 0)
  | 4 => (4, (((s.modPort p (fun x => { x with quar := x.quar ++ [tag] })).portFault p 3 0 tag pa 3).aerUnc p 14).2)
  | _ => (5, back.portFault p 0x0D 0 tag pa 0)

/-- A configuration read (R322-R324): the status (0x100 for poisoned data), the value, the state. What answers behind a root
port is a device: its data is free (devAnswer). -/
def State.cfgRead (s : State) (seg off size : Nat) (q : Requester) : Nat × Nat × State :=
  let pa := 0x8000000000000 + seg * 2 ^ 28 + off
  if cfgOk q off size then
    let part (w : BitVec 32) : Nat := w.toNat / 2 ^ (8 * (off % 4)) % 256 ^ size
    match s.cfgTarget seg off with
    | .rootPort p reg => (0, part (s.cfgDword p (reg / 4 * 4)), s)
    | .engine d reg => (0, part (s.cfgDword (64 + d) (reg / 4 * 4)), s)
    | .absent => (0, 256 ^ size - 1, s)
    | .downstream p _ _ =>
      let r := s.devAnswer p pa false true
      (r.1, if r.1 = 0 then (Config.freeWord s.free).toNat % 256 ^ size else 256 ^ size - 1, r.2)
  else (2, 256 ^ size - 1, s.aerrQ pa false q)

/-- The agent that a side-effect access arrives for (Table 5.1): a router's own registers are agent 7's, which is in no domain. -/
def State.tgtAgt (s : State) (pa : Nat) : Option Agt :=
  let block (off : Nat) : Option Agt := if 0x50000 ≤ off ∧ off < 0x52000 then none else some (s.csrAgt pa)
  match region pa with
  | .mmio p => some (portAgt p)
  | .ecam seg off => match s.cfgTarget seg off with
    | .rootPort p _ => some (portAgt p)
    | .downstream p _ _ => some (portAgt p)
    | .engine d _ => some (engAgt d)
    | .absent => none
  | .intWin o => some (physAgt (s.phys (o / 0x1000 % 2 ^ 10)))
  | .tile _ off => block off
  | .stop _ _ off => block off
  | .dse _ => some s.dseA
  | .pwr _ => some s.dseA
  | .key _ => some s.dseA
  | .ras _ => some s.dseA
  | .fram _ => none
  | .sysMem => none
  | .reserved => none

/-- Whether the agent that a side-effect access arrives for is fenced or has a proxy sink: the access is answered with
DOMAIN_OFFLINE (R167, Table 5.10). -/
def State.tgtFenced (s : State) (pa : Nat) : Bool :=
  match s.tgtAgt pa with
  | some a => s.fenced a || s.proxied a
  | none => false

/-- Whether a core's side-effect read waits at its root port. -/
def State.seReadWaits (s : State) (c pa size : Nat) : Bool :=
  match region pa with
  | .mmio p => decide (s.portMode p = 2) && s.mmioHit p pa && decide (s.portLink p = 2 ∨ s.portLink p = 3) && s.portWaits p false
  | .ecam seg off =>
    cfgOk (s.reqOf c) off size && (match s.cfgTarget seg off with
      | .downstream p _ _ => s.portWaits p false
      | _ => false)
  | _ => false

end Sys2Proof.Machine
end

