-- ==== Sys2Proof/Machine/Mem.lean ====
section
/-! DEFINITION. A core's accesses to memory: its L2's copies of lines and the requests they need (04_caches_and_ordering.md),
the store buffer and forwarding (R274, R275), side-effect reads (R22, R139, R241), and what a load, a store and an
atomic do once translated. -/

namespace Sys2Proof.Machine
open Sys2Proof

/-! ## Private copies -/

/-- Whether another core holds the line under a load-linked (R142), so that snoops for it wait. -/
def State.heldElsewhere (s : State) (p line : Nat) : Bool := s.heldBy p line

/-- What an access to a line through the slice comes to: it waits, it is answered with a status, or it is done. -/
inductive Got where
  | wait
  | bad (status : Nat)
  | ok (s : State)

/-- A request of an L2 or a far atomic meets the slice's eviction buffer (Table 4.4): an eviction that is not yet accepted is
cancelled, and the line returns to a data way as DIRTY; an accepted one serves it, and the line is installed as CLEAN. -/
def State.pullBack (s : State) (line : Nat) : State :=
  match (s.dline line).evb with
  | none => s
  | some true => s.fillClean line
  | some false =>
    ((s.modDir line (fun d => { d with evb := none })).setWay line .dirty).inject
      { op := .PutCancel, src := sliceAgt (s.sliceOf line), dst := s.homeAgt (64 * line), txid := 0, addr := 64 * line }

/-- Whether a request for a line finds its data at the slice or at an owner, so that no home agent is asked. -/
def State.dataHere (s : State) (line : Nat) : Bool :=
  let d := s.dline line
  decide (d.way ≠ .none) || d.evb.isSome || (match d.st with
    | .X _ => true
    | _ => false)

/-- The status with which an L2's last request for a line ended is used up. -/
def State.clearErr (s : State) (p line : Nat) : State :=
  let x := s.l2line p line
  if x.err = 0 then s else s.setL2 p line { x with err := 0 }

/-- Ownership of a line given to a physical core by its slice in one step: every other copy is lost, the directory names the core,
and the line is in M in its L2. -/
def State.giveM (s : State) (p line : Nat) (fill : Bool) : Got :=
  let d := s.dline line
  let s1 := s.loseOthers p line d.st.copies
  let s2 := if fill && decide (d.st = .U) then s1.fillClean line else s1
  let s3 := (s2.modDir line (fun d => { d with st := .X p })).capTags line
  match s3.l2Put p line .M with
  | some s4 => .ok (s4.setL2 p line { s4.l2line p line with evb := none, miss := none, err := 0 })
  | none => .wait

/-- A line obtained in M by a physical core, as the RdX and Upg rows of Table 4.3 give, in one step: E becomes M with no
message; otherwise every other copy is invalidated and M granted. It waits while the slice is busy with the line, the
core's own eviction of it is past WbGo (Table 4.4), another core holds it (R142), or the L2 has no place for it. A request for the
line that has ended with a status gives that status. -/
def State.takeM (s0 : State) (p line : Nat) : Got :=
  let x := s0.l2line p line
  if x.st = .M then .ok s0
  else if x.st = .E then .ok (s0.setL2 p line { x with st := .M })
  else if x.err ≠ 0 then .bad x.err
  else
    let s := s0.pullBack line
    if (s.dline line).busy.isSome || s.heldElsewhere p line || (x.evb.any (fun e => e.2.1)) then .wait
    else
      let st := if x.st = .S then 0 else s.readStatus p line
      if st ≠ 0 then .bad st
      else (if x.st = .S || s.dataHere line then s else s.homeSees (line / 2 ^ 15) (agtNo (physAgt p))).giveM p line true

/-- A line obtained in M for CZERO: ownership without data, so no home agent is asked and no data way is filled (R128). -/
def State.takeZ (s0 : State) (p line : Nat) : Got :=
  let x := s0.l2line p line
  if x.st = .M then .ok s0
  else if x.st = .E then .ok (s0.setL2 p line { x with st := .M })
  else if x.err ≠ 0 then .bad x.err
  else
    let s := s0.pullBack line
    if (s.dline line).busy.isSome || s.heldElsewhere p line || (x.evb.any (fun e => e.2.1)) then .wait
    else if s.fenced (sliceAgt (s.sliceOf line)) then .bad 3
    else s.giveM p line false

/-- Lines obtained in M in turn; all must be obtained. -/
def State.takeAllM (s : State) (p : Nat) : List Nat → Got
  | [] => .ok s
  | l :: ls =>
    match s.takeM p l with
    | .wait => .wait
    | .bad st => .bad st
    | .ok s' => State.takeAllM s' p ls

/-- Streams of an L2 after a miss of a line (R119): one that the line continues goes on with it, else a new one takes the place of
the least recently used. -/
def trainStream (l : List (Nat × Int)) (line : Nat) : List (Nat × Int) :=
  let near (e : Nat × Int) : Bool := decide ((line : Int) = e.1 + 1) || decide ((line : Int) = e.1 - 1)
  match l.find? near with
  | some e => (line, (line : Int) - e.1) :: takeOut e l
  | none => ((line, 1) :: l).take 16

/-- A load's address met by the stride prefetcher (R119): its stride is the step from the address before. -/
def trainLoad (l : List (Nat × Nat × Int)) (pc pa : Nat) : List (Nat × Nat × Int) :=
  match l.find? (fun e => decide (e.1 = pc)) with
  | some e => (pc, pa, (pa : Int) - e.2.1) :: takeOut e l
  | none => ((pc, pa, 0) :: l).take 32

/-- The prefetchers of a physical core. -/
def State.pf (s : State) (p : Nat) : Pf := Map.get Pf.reset s.pfs p
def State.modPf (s : State) (p : Nat) (f : Pf → Pf) : State := { s with pfs := Map.set Pf.reset s.pfs p (f (s.pf p)) }

/-- The requests that an L2 has outstanding: 96 at most (Table 4.1). -/
def State.misses (s : State) (p : Nat) : Nat := (s.l2.filter (fun e => decide (e.1 / 2 ^ 42 = p) && e.2.miss.isSome)).length

/-- An L2 sends a request for a line to its slice; DETAIL, which no request uses, marks a prefetch, whose UNBACKED answer the home
agent does not log (R36). -/
def State.ask (s : State) (c p line : Nat) (op : Op) (pf : Bool) : State :=
  ((s.setL2 p line { s.l2line p line with miss := some op, pf := pf }).request
    { op := op, src := physAgt p, dst := sliceAgt (s.sliceOf line), txid := 0, addr := 64 * line,
      detail := if pf then 1 else 0 }).count c [0x15]
    (s.core c).pl (s.core c).vf

/-- An L2 needs a line for a load or a store: a request to the slice unless one is outstanding or 96 are; an eviction of the line
that is not yet accepted is cancelled where the line's set has a way for it (Table 4.4). -/
def State.need (s : State) (c p line : Nat) (op : Op) : State :=
  let x := s.l2line p line
  match x.evb with
  | some (st, false, false) =>
    match (s.l2Ways p).find? (fun i => !(s.l2Mates p line).any (fun e => decide (e.2.wn = i))) with
    | some i =>
      (s.setL2 p line { x with st := st, wn := i, evb := none }).inject
        { op := .PutCancel, src := physAgt p, dst := sliceAgt (s.sliceOf line), txid := 0, addr := 64 * line }
    | none => s
  | _ =>
    if x.miss.isSome then s.setL2 p line { x with pf := false }
    else if 96 ≤ s.misses p then s
    else (s.modPf p (fun y => { y with streams := trainStream y.streams line })).ask c p line op false

/-- The copies a read of lines needs. -/
def State.needReads (s : State) (c p : Nat) : List Nat → State
  | [] => s
  | l :: ls => State.needReads (if (s.l2line p l).st = .I then s.need c p l .RdS else s) c p ls

/-- The ownership that a store to lines asks for ahead of time (R274). -/
def State.needStores (s : State) (c p : Nat) : List Nat → State
  | [] => s
  | l :: ls =>
    let st := (s.l2line p l).st
    State.needStores
      (if st = .I then (if ((s.l2line p l).evb.any (fun e => e.2.1)) then s else s.need c p l .RdX)
       else if st = .S then s.need c p l .Upg else s) c p ls

/-- Data source of a read of a line (Table 13.4): 2 stands for the L1 or the L2. -/
def State.loadSrc (s : State) (p line : Nat) : Nat :=
  let d := s.dline line
  if (s.l2line p line).st ≠ .I then 2
  else if (s.l2line p line).evb.isSome then 8
  else match d.st with
    | .X o => if (s.l2line o line).st = .M then 7 else 6
    | _ =>
      if d.evb.isSome then 8
      else if d.way ≠ .none then
        (if d.lock then 14 else if s.sliceOf line = p / 2 then 4 else 5)
      else
        let e := s.entry (line / 2 ^ 15)
        if eKind e = 1 then 9
        else if eKind e = 2 then 10
        else if eKind e = 3 ∧ bitsN (Map.get 0 s.dirPages (512 * (line / 2 ^ 15) + line / 64 % 512)) 1 0 = 1 then 11
        else 12

/-- The event of a load's data source (Table 13.3, codes 0x28 to 0x2C). -/
def srcEvents (src : Nat) : List Nat :=
  if src = 4 ∨ src = 5 ∨ src = 8 ∨ src = 14 then [0x28]
  else if src = 6 ∨ src = 7 then [0x29]
  else if src = 9 then [0x2A]
  else if src = 10 then [0x2B]
  else if src = 11 ∨ src = 12 then [0x2C]
  else []

/-! ## Store buffer (R274, R275) -/

/-- The bytes of a list of addresses, little-endian. -/
def State.rdPas (s : State) : List Nat → Nat
  | [] => 0
  | a :: l => (s.rdByte a).toNat + 256 * State.rdPas s l

/-- The bytes of a value at a list of addresses. -/
def cellsAt : List Nat → Nat → List (Nat × Byte)
  | [], _ => []
  | a :: l, v => (a, BitVec.ofNat 8 v) :: cellsAt l (v / 256)

/-- The byte that a store's cells give an address. -/
def cellAt? (cs : List (Nat × Byte)) (a : Nat) : Option Byte := (cs.find? (fun e => e.1 == a)).map (fun e => e.2)

/-- Whether an entry holds data of an address. -/
def StEntry.touches (e : StEntry) (a : Nat) : Bool := e.cells.any (fun x => x.1 == a)
/-- Whether an entry is of a line. -/
def StEntry.onLine (e : StEntry) (line : Nat) : Bool :=
  decide (e.pa / 64 = line) || e.cells.any (fun x => x.1 / 64 == line)

/-- What forwarding gives a load (Table 9.5). -/
inductive Fwd where
  | none
  | wait
  | val (v : Nat)

/-- The value of the bytes that an entry covers. -/
def fwdVal (cs : List (Nat × Byte)) : List Nat → Nat
  | [] => 0
  | a :: l => ((cellAt? cs a).getD 0).toNat + 256 * fwdVal cs l

/-- The youngest older store that overlaps a load's bytes decides (Table 9.5); CFLUSH and CCLEAN hold no data. -/
def forward (buf : List StEntry) (pas : List Nat) : Fwd :=
  match buf.reverse.find? (fun e => pas.any e.touches) with
  | .none => .none
  | some e => if pas.all e.touches then .val (fwdVal e.cells pas) else .wait

/-! ## Side-effect reads -/

/-- Whether an access to a fetch RAM quarter is permitted (R213). -/
def Core.framOk (k : Core) (off : Nat) : Bool :=
  let f := bitsN (k.srv 0x060) (4 * (off / 4096) + 3) (4 * (off / 4096))
  let g := f.testBit 2
  decide (f % 4 ≤ k.pl) && (if k.vf then g else (!g || decide (2 ≤ k.pl)))

/-- A read of a side-effect region by a core: status (0x100 for poisoned data), value, state. A device behind a root port
answers with free data (devAnswer); a fenced agent's router answers DOMAIN_OFFLINE with all-ones data (R167). -/
def State.seRead (s : State) (c pa size : Nat) : Nat × Nat × State :=
  let q := s.reqOf c
  if s.tgtFenced pa then (3, 256 ^ size - 1, s)
  else match region pa with
  | .fram off =>
    if (s.core c).framOk off && decide (size ≤ 8) then (0, (s.core c).framN off size, s)
    else (2, 256 ^ size - 1, s.aerrQ pa false q)
  | .ecam seg off => s.cfgRead seg off size q
  | .mmio p =>
    if s.portMode p ≠ 2 then (2, 256 ^ size - 1, s.aerrQ pa false q)
    else if s.mmioDecodes p pa then
      let r := s.devAnswer p pa false false
      (r.1, if r.1 = 0 then (Config.freeLine s.free).toNat % 256 ^ size else 256 ^ size - 1, r.2)
    else (5, 256 ^ size - 1, s.prtLog p 0x07 0 0 pa)
  | .intWin _ => (2, 256 ^ size - 1, s.aerrQ pa false q)
  | .reserved => (2, 256 ^ size - 1, s.aerrQ pa false q)
  | .sysMem => (2, 256 ^ size - 1, s)
  | _ => s.csrRead pa size q

/-! ## Loads -/

/-- A BUS_ERROR of an access (Table 6.9, order 9). -/
def busError (va : Word) (status acc : Nat) : Exc := { code := 0x09, addr := va, info := tinfoOf status acc false 0 }

/-- The first status other than OK that a read of lines meets: that with which a request for the line has ended, or the home
agent's. -/
def State.firstBad (s : State) (p : Nat) : List Nat → Nat
  | [] => 0
  | l :: ls =>
    let e := (s.l2line p l).err
    let st := if e ≠ 0 then e else s.readStatus p l
    if st ≠ 0 then st else State.firstBad s p ls

/-- What a read that a status ends leaves behind: the status of an ended request is used up, and the home agent of an UNBACKED frame
logs the read (R36). -/
def State.sawBad (s : State) (p : Nat) : List Nat → State
  | [] => s
  | l :: ls =>
    if (s.l2line p l).err ≠ 0 then s.clearErr p l
    else if s.readStatus p l = 1 then s.homeSees (l / 2 ^ 15) (agtNo (physAgt p))
    else State.sawBad s p ls

/-- What a data read of a core comes to, once translated: it waits, it raises an exception, or it binds a value; with the
events it counts and its data source. -/
inductive Bound where
  | wait
  | exc (e : Exc) (s : State)
  | val (v src : Nat) (evs : List Nat) (s : State)

/-- The read of system memory by a core, without forwarding. -/
def State.readSys (s : State) (c : Nat) (va : Word) (pas lines : List Nat) (acc : Nat) : Bound :=
  let p := s.phys c
  let src := s.loadSrc p (lines.headD 0)
  let st := s.firstBad p lines
  let s1 := s.needReads c p lines
  if st ≠ 0 then .exc (busError va st acc) (s.sawBad p lines)
  else if lines.any s.poisoned then .exc { code := 0x18, addr := va, info := tinfoOf 0 acc false 0 } s1
  else .val (s.rdPas pas) src (srcEvents src) (s1.l1UseAll c p lines)

/-- A load, LDAQ or vector element read binds (R135, R139, R241, R275, Table 9.5). -/
def State.bindLoad (s : State) (c : Nat) (va : Word) (n : Nat) (x : Xl) (acc : Nat) : Bound :=
  let k := s.core c
  let pa := x.pas.headD 0
  if x.se then
    let isFram := match region pa with | .fram _ => true | _ => false
    if k.shb && (!isFram || x.pages.any (fun p => !p.free && rSE p.val)) then .exc (busError va 2 acc) s
    else if k.sbuf.any (fun e => decide (e.kind = .sideEffect) || x.pas.any e.touches) then .wait
    else if inSysMem pa then s.readSys c va x.pas x.lines acc
    else if s.seReadWaits c pa n then .wait
    else
      match s.seRead c pa n with
      | (0, v, s1) => .val v 13 [] s1
      | (0x100, _, s1) => .exc { code := 0x18, addr := va, info := tinfoOf 0 acc false 0 } s1
      | (st, _, s1) => .exc (busError va st acc) s1
  else
    match forward k.sbuf x.pas with
    | .wait => .wait
    | .val v => .val v 1 [0x1A] s
    | .none => s.readSys c va x.pas x.lines acc

/-- A load of n bytes at va: the checks of Table 6.9, the value bound, the register written by f. -/
def State.load (s : State) (c : Nat) (va : Word) (n : Nat) (a : Acc) (f : Nat → Core → Core) : State :=
  match (s.core c).xlate a va n with
  | .error e => s.trap c e
  | .ok x =>
    if a.atom && (s.core c).sbuf.any (fun e => decide (e.kind = .rel)) then s
    else match s.bindLoad c va n x a.acc with
      | .wait => s
      | .exc e s1 => s1.trap c e
      | .val v src evs s1 =>
        let s2 := if x.se then s1
          else s1.modPf (s.phys c) (fun y => { y with loads := trainLoad y.loads (s.core c).pc.toNat (x.pas.headD 0) })
        ((s2.usedSpan c va n).modCore c (fun k => (f v k).adv)).retire c ([evLd] ++ evs) false
          { pc := (s.core c).pc, va := va, pa := x.pas.headD 0, src := src, load := true }

/-! ## Stores -/

/-- A store enters the store buffer and retires (R274): the buffer holds 96 entries. -/
def State.store (s : State) (c : Nat) (va : Word) (n v : Nat) (a : Acc) (kind : StKind) : State :=
  match (s.core c).xlate a va n with
  | .error e => s.trap c e
  | .ok x =>
    let k := s.core c
    if 96 ≤ k.sbuf.length then s
    else
      let e : StEntry := { kind := if x.se then .sideEffect else kind, pa := x.pas.headD 0, size := n,
                           cells := cellsAt x.pas v, pl := k.pl, v := k.vf, tr := k.trOf x va, marks := [] }
      let s1 := if x.se then s else s.needStores c (s.phys c) x.lines
      ((s1.usedSpan c va n).modCore c (fun k => { k with sbuf := k.sbuf ++ [e] }.adv)).retire c [evSt] false
        { pc := k.pc, va := va, pa := x.pas.headD 0 }

/-- Whether the store buffer lets a later store-like operation on a line go ahead at once: no older entry of the line,
and no older fence entry, store-release or side-effect store; with a release form, no older entry at all. -/
def Core.sbufClear (k : Core) (line : Nat) (rl : Bool) : Bool :=
  if rl then k.sbuf.isEmpty
  else !k.sbuf.any (fun e => e.onLine line || decide (e.kind = .fence) || decide (e.kind = .rel) ||
    decide (e.kind = .sideEffect) || decide (e.kind = .flush) || decide (e.kind = .clean))

/-! ## Atomics at the slice (R126, R189) -/

/-- The operation of a far atomic on a size in bytes (Table 6.12, R146): 0 ADD, 1 SWAP, 2 CAS, 3 to 6 the minima and
maxima. -/
def atomOp (op size old rb cmp : Nat) : Nat :=
  let m := 256 ^ size
  let o := old % m
  let b := rb % m
  let sg (x : Nat) : Int := if m / 2 ≤ x then (x : Int) - m else x
  if op = 0 then (o + b) % m
  else if op = 1 then b
  else if op = 2 then (if o = cmp % m then b else o)
  else if op = 3 then (if sg b < sg o then b else o)
  else if op = 4 then (if sg o < sg b then b else o)
  else if op = 5 then min o b
  else max o b

/-- Whether the slice performs a far atomic by itself: it holds the line's data, or an owner does (R126). -/
def State.atomHere (s : State) (line : Nat) : Bool := s.dataHere line

/-- A far atomic that the slice performs by itself, in one step: it waits while the slice is busy with the line, an accepted eviction
of it is under way, or a core holds it; else the old value, and the state with every copy recalled, the new value stored and the
line DIRTY in a data way. -/
def State.farAtomic (s0 : State) (p pa op size rb cmp : Nat) : Got × Nat :=
  let line := pa / 64
  let s := s0.pullBack line
  let d := s.dline line
  let old := s.rdN pa size
  if d.busy.isSome || s.heldElsewhere p line || decide (d.evb = some true) then (.wait, 0)
  else if s.fenced (sliceAgt (s.sliceOf line)) then (.bad 3, 0)
  else
    let s1 := s.loseOthers 1088 line d.st.copies
    let s2 := (s1.modDir line (fun d => { d with st := .U })).setWay line .dirty
    if s.poisoned line then (.ok s2, old)
    else (.ok (s2.wrN pa (atomOp op size old rb cmp) size), old)

/-- The data field of a far atomic (R146). -/
def atomData (op size off rb cmp : Nat) : Line :=
  BitVec.ofNat 512 (rb % 2 ^ 64 + cmp % 2 ^ 64 * 2 ^ 64 + off % 64 * 2 ^ 128 + (if size = 8 then 2 ^ 134 else 0) + op * 2 ^ 135)

/-- A far atomic of a core sent to its slice, which passes it to the home agent where nothing else holds the line's data (R126); the
instruction waits for the answer. -/
def State.sendAtomic (s : State) (c pa op size rb cmp : Nat) (tr : List (Nat × Nat × Nat)) : State :=
  let line := pa / 64
  (s.modCore c (fun k => { k with far := some { pa := pa, size := size, ans := none, tr := tr, marks := [] } })).request
    { op := .FAtom, src := physAgt (s.phys c), dst := sliceAgt (s.sliceOf line), txid := 0, addr := 64 * line,
      data := atomData op size (pa % 64) rb cmp }

end Sys2Proof.Machine
end

