-- ==== Sys2Proof/Machine/Atomic.lean ====
section
/-! DEFINITION. Load-linked, store-conditional and the far atomics (06_panath_base_isa.md, R188 to R190;
04_caches_and_ordering.md, R126, R140 to R142). -/

namespace Sys2Proof.Machine
open Sys2Proof

/-- LL: the line of ra obtained in M, by an RdX that waits its turn at the slice where it must (R122, R142), rd := sext(value), the reservation set (R190). Sizes 4 and 8 only. -/
def execLl (c : CoreId) (rd ra : Reg) (sz : BitVec 2) (aq : Bool) (s : State) : Out :=
  .next (s.run c (
    let k := s.core c
    let n := sizeOf' sz
    let va := k.rd ra
    let p := s.phys c
    if n < 4 then s.illegal c
    else match k.xlate accLL va n with
      | .error e => s.trap c e
      | .ok x =>
        let line := x.pas.headD 0 / 64
        match forward k.sbuf x.pas with
        | .wait => s
        | fw =>
          match s.takeM p line with
          | .wait => s.needStores c p [line]
          | .bad st => (s.sawBad p [line]).trap c (busError va st 3)
          | .ok s1 =>
            let (v, hit) := match fw with
              | .val v => (v, true)
              | _ => (s.rdPas x.pas, false)
            if !hit && s.poisoned line then s1.trap c { code := 0x18, addr := va, info := tinfoOf 0 3 false 0 }
            else
              let src := if hit then 1 else s.loadSrc p line
              (((s1.l1Use c p line).usedSpan c va n).modCore c (fun k => { (k.wr rd (sxN n v)).adv with resv := some line, hold := some 0 })).retire c
                ([evLd, evAtom] ++ (if hit then [0x1A] else srcEvents src)) true
                { pc := k.pc, va := va, pa := x.pas.headD 0, src := src, load := true }))

/-- SC: orders 1 to 4, 6 and 7 of Table 6.9 always; with a valid reservation of its line, orders 5, 8 and 9, the store
performed and rd := 0; otherwise rd := 1. The reservation is cleared either way (R190). -/
def execSc (c : CoreId) (rd ra rb : Reg) (sz : BitVec 2) (rl : Bool) (s : State) : Out :=
  .next (s.run c (
    let k := s.core c
    let n := sizeOf' sz
    let va := k.rd ra
    let done (s1 : State) (r : Word) (evs : List Nat) (pa : Nat) : State :=
      ((s1.usedSpan c va n).modCore c (fun k => { (k.wr rd r).adv with resv := none, hold := none })).retire c evs true
        { pc := k.pc, va := va, pa := pa }
    if n < 4 then s.illegal c
    else match k.xlate accAtom va n false with
      | .error e => s.trap c e
      | .ok x =>
        let pa := x.pas.headD 0
        if k.resv = some (pa / 64) then
          match k.xlate accAtom va n with
          | .error e => s.trap c e
          | .ok _ =>
            if !k.sbufClear (pa / 64) rl then s
            else match s.takeM (s.phys c) (pa / 64) with
              | .wait => s
              | .bad st => (s.sawBad (s.phys c) [pa / 64]).trap c (busError va st 3)
              | .ok s1 => done ((s1.l1Use c (s.phys c) (pa / 64)).wrN pa (lowN n (k.rd rb)) n) 0 [evAtom] pa
        else done s 1 [evAtom, evScFail] pa))

/-- A far atomic that waits for its answer goes on when the answer has come (R126, R127, R189): a status raises BUS_ERROR,
ATOMIC_UNKNOWN among them, a poisoned old value raises POISON; else rd := the old value, sign-extended. -/
def State.atomicEnd (s : State) (c rd : Nat) (va : Word) (n : Nat) : State :=
  match (s.core c).far with
  | some { pa := pa, size := size, ans := some (st, poison, old), .. } =>
    let s1 := s.modCore c (fun k => { k with far := none })
    if size ≠ n then s
    else if st ≠ 0 then s1.trap c (busError va st 3)
    else if poison then s1.trap c { code := 0x18, addr := va, info := tinfoOf 0 3 false 0 }
    else ((s1.usedSpan c va n).modCore c (fun k => (k.wr rd (sxN n old)).adv)).retire c [evAtom] false { pc := (s.core c).pc, va := va, pa := pa }
  | _ => s

/-- A far atomic (R189): operation op of R146 on mem[ra], rd := the old value, sign-extended. Where the slice performs it by itself
it takes one step; else it is sent, and completes when its answer has come. -/
def State.atomic (s : State) (c rd ra rb op : Nat) (sz : BitVec 2) (rl : Bool) : Out :=
  let k := s.core c
  let n := sizeOf' sz
  let va := k.rd ra
  .next (if k.far.isSome && decide (k.run = .running) then s.atomicEnd c rd va n
  else s.run c (
    if n < 4 then s.illegal c
    else match k.xlate accAtom va n with
      | .error e => s.trap c e
      | .ok x =>
        let pa := x.pas.headD 0
        if !k.sbufClear (pa / 64) rl then s
        else if !s.atomHere (pa / 64) then s.sendAtomic c pa op n (k.rd rb).toNat (k.rd rd).toNat (k.trOf x va)
        else match s.farAtomic (s.phys c) pa op n (k.rd rb).toNat (k.rd rd).toNat with
          | (.wait, _) => s
          | (.bad st, _) => s.trap c (busError va st 3)
          | (.ok s1, old) =>
            if s.poisoned (pa / 64) then s1.trap c { code := 0x18, addr := va, info := tinfoOf 0 3 false 0 }
            else ((s1.usedSpan c va n).modCore c (fun k => (k.wr rd (sxN n old)).adv)).retire c [evAtom] false
              { pc := k.pc, va := va, pa := pa }))

/-- AADD: new := old + rb. -/
def execAadd (c : CoreId) (rd ra rb : Reg) (sz : BitVec 2) (aq rl : Bool) (s : State) : Out :=
  s.atomic c rd ra rb 0 sz rl
/-- ASWAP: new := rb. -/
def execAswap (c : CoreId) (rd ra rb : Reg) (sz : BitVec 2) (aq rl : Bool) (s : State) : Out :=
  s.atomic c rd ra rb 1 sz rl
/-- ACAS: new := rb when old = rd. -/
def execAcas (c : CoreId) (rd ra rb : Reg) (sz : BitVec 2) (aq rl : Bool) (s : State) : Out :=
  s.atomic c rd ra rb 2 sz rl
/-- AMIN: signed minimum. -/
def execAmin (c : CoreId) (rd ra rb : Reg) (sz : BitVec 2) (aq rl : Bool) (s : State) : Out :=
  s.atomic c rd ra rb 3 sz rl
/-- AMAX: signed maximum. -/
def execAmax (c : CoreId) (rd ra rb : Reg) (sz : BitVec 2) (aq rl : Bool) (s : State) : Out :=
  s.atomic c rd ra rb 4 sz rl
/-- AMINU: unsigned minimum. -/
def execAminu (c : CoreId) (rd ra rb : Reg) (sz : BitVec 2) (aq rl : Bool) (s : State) : Out :=
  s.atomic c rd ra rb 5 sz rl
/-- AMAXU: unsigned maximum. -/
def execAmaxu (c : CoreId) (rd ra rb : Reg) (sz : BitVec 2) (aq rl : Bool) (s : State) : Out :=
  s.atomic c rd ra rb 6 sz rl

end Sys2Proof.Machine
end

