-- ==== Sys2Proof/Machine/Branch.lean ====
section
/-! DEFINITION. Control transfer (06_panath_base_isa.md, R179 to R181) and the predictors it trains
(09_core_pipeline.md, R263 to R267). -/

namespace Sys2Proof.Machine
open Sys2Proof

/-! ## Prediction -/

/-- Index of the direction counter of a branch (R264). -/
def Core.ctrIdx (k : Core) : Nat :=
  bitsN (k.pc >>> 2) 15 0 ^^^ bitsN k.hist 15 0 ^^^ bitsN k.hist 31 16 ^^^ bitsN k.hist 47 32 ^^^ bitsN k.hist 63 48

/-- A direction counter trained: up on taken, down on not taken, saturating (R266). -/
def ctrTrain (x : BitVec 2) (taken : Bool) : BitVec 2 :=
  if taken then (if x = 3 then 3 else x + 1) else (if x = 0 then 0 else x - 1)

/-- Set and partial tag of a pc in the main BTB (R263). -/
def btbSet (pc : Word) : Nat := bitsN pc 12 2
def btbTag (pc : Word) : Nat := bitsN pc 28 13

/-- The way of the main BTB that holds a pc, with its entry. -/
def Core.btbFind (k : Core) (pc : Word) : Option (Nat × BtbEntry) :=
  (List.range 4).findSome? (fun w =>
    match Map.get none k.btb (4 * btbSet pc + w) with
    | some e => if e.tag = btbTag pc then some (w, e) else none
    | none => none)

/-- The target the two levels predict for a pc: the zero-bubble level first, while TILE_PIPECFG.ZB_EN = 1. -/
def State.btbTarget (s : State) (c : Nat) : Option Word :=
  let k := s.core c
  let zb := if s.flag (s.tileOf c + 0x10040 + 8 * s.posOf c) 1 then k.zb.find? (fun e => e.1 = k.pc) else none
  match zb with
  | some e => some e.2
  | none => (k.btbFind k.pc).map (fun e => e.2.target)

/-- A taken branch or jump at pc allocates or updates its main-BTB and zero-bubble entries (R266): the spec names no
victim way, so the way is a free choice. -/
def State.trainTaken (s : State) (c : Nat) (pc : Word) (kind : Nat) (target : Word) : State :=
  let k := s.core c
  let way := match k.btbFind pc with
    | some (w, _) => w
    | none => s.draw 4
  s.bump.modCore c (fun k => { k with
    btb := Map.set none k.btb (4 * btbSet pc + way) (some { tag := btbTag pc, kind := kind, target := target }),
    zb := ((pc, target) :: k.zb.filter (fun e => e.1 ≠ pc)).take 512 })

/-- The return stack with an address pushed: a push onto a full stack loses the oldest (R265). -/
def rsPush (l : List Word) (a : Word) : List Word := (a :: l).take 48

/-! ## Branches (Table 6.7) -/

/-- A conditional branch: its counter is trained, its predicted direction enters the history, and a mispredict
restores the history saved before it. -/
def State.branch (s : State) (c : Nat) (taken : Core → Bool) (off : BitVec 12) : Out :=
  .next (s.run c (
    let k := s.core c
    let t := taken k
    let n := Map.get 1 k.ctr k.ctrIdx
    let pred := decide (2 ≤ n.toNat)
    let k1 := { k with
      ctr := Map.set 1 k.ctr k.ctrIdx (ctrTrain n t),
      hist := if pred = t then (k.hist <<< 1) ||| b2w pred else k.hist,
      pc := if t then brTarget k.pc off else k.pc + 4 }
    let s1 := s.setCore c k1
    let s2 := if t then s1.trainTaken c k.pc 0 (brTarget k.pc off) else s1
    s2.retire c (if pred = t then [evBr] else [evBr, evBrMisp, 0x10]) true { pc := k.pc }))

/-- BEQ. -/
def execBeq (c : CoreId) (ra rb : Reg) (off : BitVec 12) (s : State) : Out :=
  s.branch c (fun k => decide (k.rd ra = k.rd rb)) off
/-- BNE. -/
def execBne (c : CoreId) (ra rb : Reg) (off : BitVec 12) (s : State) : Out :=
  s.branch c (fun k => decide (k.rd ra ≠ k.rd rb)) off
/-- BLT, signed. -/
def execBlt (c : CoreId) (ra rb : Reg) (off : BitVec 12) (s : State) : Out :=
  s.branch c (fun k => (k.rd ra).slt (k.rd rb)) off
/-- BGE, signed. -/
def execBge (c : CoreId) (ra rb : Reg) (off : BitVec 12) (s : State) : Out :=
  s.branch c (fun k => !(k.rd ra).slt (k.rd rb)) off
/-- BLTU. -/
def execBltu (c : CoreId) (ra rb : Reg) (off : BitVec 12) (s : State) : Out :=
  s.branch c (fun k => (k.rd ra).ult (k.rd rb)) off
/-- BGEU. -/
def execBgeu (c : CoreId) (ra rb : Reg) (off : BitVec 12) (s : State) : Out :=
  s.branch c (fun k => !(k.rd ra).ult (k.rd rb)) off

/-! ## Jumps (R179) -/

/-- A jump whose target is encoded: link register written when it is a call, the target taken. A jump that a BTB level
predicts shifts 1 into the history (R264). -/
def State.jumpTo (s : State) (c : Nat) (call : Bool) (off : BitVec 27) : Out :=
  .next (s.run c (
    let k := s.core c
    let t := jTarget k.pc off
    let k1 := if call then { (k.wr 30 (k.pc + 4)) with rstack := rsPush k.rstack (k.pc + 4) } else k
    let k2 := { k1 with
      hist := if (s.btbTarget c).isSome then (k.hist <<< 1) ||| 1 else k.hist,
      pc := t }
    ((s.setCore c k2).trainTaken c k.pc (if call then 2 else 1) t).retire c [evBr] true { pc := k.pc }))

/-- J: pc := pc + sext(off) * 4. -/
def execJ (c : CoreId) (off : BitVec 27) (s : State) : Out := s.jumpTo c false off
/-- JAL: g30 := pc + 4, then the jump. -/
def execJal (c : CoreId) (off : BitVec 27) (s : State) : Out := s.jumpTo c true off

/-- JALR: t := ra + sext(imm), rd := pc + 4, pc := t; ALIGN_FAULT when t is not a multiple of 4. The hints of R181
drive the return stack whatever was predicted; a target other than the prediction is a mispredict, which restores the history to what
it was before (R267, DEDUCED, log entry 68). -/
def execJalr (c : CoreId) (rd ra : Reg) (imm : BitVec 17) (s : State) : Out :=
  .next (s.run c (
    let k := s.core c
    let t := k.rd ra + immS imm
    if bitsN t 1 0 ≠ 0 then s.trap c { code := 0x06, addr := t }
    else
      let ret := decide (rd.val = 0 ∧ ra.val = 30)
      let call := decide (rd.val = 30)
      let pops := decide (ra.val = 30 ∧ (rd.val = 0 ∨ rd.val = 30))
      let pred : Option Word := match ret, k.rstack with
        | true, a :: _ => some a
        | true, [] => (k.btbFind k.pc).map (fun e => e.2.target)
        | false, _ => s.btbTarget c
      let ok := decide (pred = some t)
      let st1 := if pops then k.rstack.tail else k.rstack
      let st2 := if call then rsPush st1 (k.pc + 4) else st1
      let k1 := k.wr rd (k.pc + 4)
      let k2 := { k1 with
        hist := if ok then (k.hist <<< 1) ||| 1 else k.hist,
        rstack := st2,
        pc := t }
      ((s.setCore c k2).trainTaken c k.pc (if ret then 3 else if call then 2 else 4) t).retire c
        (if ok then [evBr] else [evBr, evBrMisp, 0x10]) true { pc := k.pc }))

end Sys2Proof.Machine
end

