-- ==== Sys2Proof/Machine/Chive.lean ====
section
/-! DEFINITION. Byte lists and check values (12_data_engine.md, R359), and the Chive block format: the decoder of R42 to
R45, and the encoder of R46 over the predictors that its own search finds. -/

namespace Sys2Proof.Machine
open Sys2Proof

/-! ## Byte lists -/

/-- Bytes of a number, little-endian. -/
def bytesOf (v n : Nat) : List Byte := (cellsOf 0 v n).map (fun x => x.2)
/-- The number that bytes spell, little-endian. -/
def numOf : List Byte → Nat
  | [] => 0
  | b :: l => b.toNat + 256 * numOf l

/-! ## Check values (R359, R43) -/

/-- A reflected CRC-32 register after one bit, and after a byte. -/
def crcBit (poly c : BitVec 32) : BitVec 32 := if c.getLsbD 0 then (c >>> 1) ^^^ poly else c >>> 1
def crcByte (poly c : BitVec 32) (b : Byte) : BitVec 32 :=
  (List.range 8).foldl (fun c _ => crcBit poly c) (c ^^^ b.zeroExtend 32)
/-- A check value continued over bytes: the polynomial as reflected, the value so far with its final inversion. -/
def crcFrom (poly : BitVec 32) (c : Nat) (l : List Byte) : Nat :=
  (~~~ (l.foldl (crcByte poly) (~~~ (BitVec.ofNat 32 c)))).toNat
/-- CRC-32C (0x1EDC6F41 reflected), and CRC-32 (0x04C11DB7 reflected), of a stream so far with value c. -/
def crc32c (c : Nat) (l : List Byte) : Nat := crcFrom 0x82F63B78 c l
def crc32 (c : Nat) (l : List Byte) : Nat := crcFrom 0xEDB88320 c l
/-- CRC-8 with polynomial 0x07, unreflected, from 0 (R43). -/
def crc8 (l : List Byte) : Byte :=
  l.foldl (fun c b => (List.range 8).foldl (fun c _ => if c.getLsbD 7 then (c <<< 1) ^^^ 7 else c <<< 1) (c ^^^ b)) 0

/-! ## Predictors (Table 2.5, R44) -/

/-- A predictor: byte offset of row 0's field, row stride, width in bytes, step per row (32 bits), value of row 0. -/
structure ChivePred where
  off : Nat
  stride : Nat
  width : Nat
  delta : Nat
  base : Nat
  deriving DecidableEq, Repr

/-- The predictor that 16 bytes spell; none where R45 makes the block invalid. -/
def chivePred (l : List Byte) : Option ChivePred :=
  let w := BitVec.ofNat 64 (numOf (l.take 8))
  let p : ChivePred := { off := bitsN w 11 0, stride := bitsN w 23 12, width := 2 ^ bitsN w 25 24, delta := bitsN w 63 32,
                         base := numOf ((l.drop 8).take 8) }
  if bitsN w 31 26 ≠ 0 ∨ p.stride = 0 ∨ p.stride < p.width ∨ 4096 < p.off + p.width then none else some p

/-- The predicted byte at position a: the lowest predictor that covers it, else 0 (R44). -/
def chivePredict : List ChivePred → Nat → Byte
  | [], _ => 0
  | p :: ps, a =>
    let r := (a - p.off) / p.stride
    let start := p.off + r * p.stride
    if p.off ≤ a ∧ (a - p.off) % p.stride < p.width ∧ start + p.width ≤ 4096 then
      let v := BitVec.ofNat 64 p.base + BitVec.ofNat 64 r * (BitVec.ofNat 32 p.delta).signExtend 64
      BitVec.ofNat 8 (v.toNat / 256 ^ (a - start))
    else chivePredict ps a

/-- The 16 bytes of a predictor. -/
def ChivePred.bytes (p : ChivePred) : List Byte :=
  bytesOf (p.off + p.stride * 2 ^ 12 + Nat.log2 p.width * 2 ^ 24 + p.delta * 2 ^ 32) 8 ++ bytesOf p.base 8

/-! ## Line codes (R43) -/

/-- The n bytes of a line from position a, residual bytes taken where the mask's bits from i are 1. -/
def chiveFill (ps : List ChivePred) (mask a : Nat) : Nat → Nat → List Byte → Option (List Byte)
  | _, 0, _ => some []
  | i, n + 1, l =>
    if mask.testBit i then
      match l with
      | [] => none
      | b :: l' => (chiveFill ps mask a (i + 1) n l').map (fun r => (b ^^^ chivePredict ps (a + i)) :: r)
    else (chiveFill ps mask a (i + 1) n l).map (fun r => chivePredict ps (a + i) :: r)

/-- Line j decoded from what stands at its code; none where the code is malformed or runs past the payload. -/
def chiveLine (ps : List ChivePred) (j : Nat) : List Byte → Option (List Byte)
  | [] => none
  | m :: rest =>
    if m = 0 then chiveFill ps 0 (64 * j) 0 64 []
    else if m = 1 then
      (if rest.length < 8 then none else chiveFill ps (numOf (rest.take 8)) (64 * j) 0 64 (rest.drop 8))
    else if m = 2 then (if rest.length < 64 then none else some (rest.take 64))
    else none

/-- Line j encoded: MODE 0 where the prediction is exact, else MASKED or LITERAL. -/
def chiveCode (ps : List ChivePred) (lit : Bool) (j : Nat) (line : List Byte) : List Byte :=
  let res := List.zipWith (fun b i => b ^^^ chivePredict ps (64 * j + i)) line (List.range 64)
  let mask := (List.zipWith (fun (b : Byte) i => if b = 0 then 0 else 2 ^ i) res (List.range 64)).sum
  if mask = 0 then [0] else if lit then 2 :: line else 1 :: (bytesOf mask 8 ++ res.filter (fun b => decide (b ≠ 0)))

/-! ## Block images (R42, R45, R46) -/

/-- The parts of a block image that the checks of R45 on header word, predictors and line offsets let pass: its predictors,
line offsets, line checks, payload and BCRC. -/
structure ChiveImg where
  preds : List ChivePred
  offs : List Nat
  checks : List Byte
  pay : List Byte
  bcrc : Nat
  deriving DecidableEq, Repr

/-- The parts of an image of a number of sectors; none where it is invalid. -/
def chiveHead (nsec : Nat) (img : List Byte) : Option ChiveImg :=
  let w := BitVec.ofNat 64 (numOf (img.take 8))
  let np := bitsN w 12 8
  let len := bitsN w 27 16
  let size := 168 + 16 * np + len
  let offs := (List.range 64).map (fun j => numOf (((img.drop (8 + 16 * np)).take 96)) / 2 ^ (12 * j) % 2 ^ 12)
  let preds := (List.range np).filterMap (fun k => chivePred ((img.drop (8 + 16 * k)).take 16))
  if bitsN w 3 0 ≠ 1 ∨ bitsN w 6 4 ≠ nsec ∨ bitsN w 7 7 ≠ 0 ∨ bitsN w 15 13 ≠ 0 ∨ bitsN w 31 28 ≠ 0 ∨ 16 < np ∨
      size ≤ 512 * (nsec - 1) ∨ 512 * nsec < size ∨ preds.length ≠ np ∨ offs.any (fun o => decide (len < o)) then none
  else some { preds := preds, offs := offs, checks := (img.drop (104 + 16 * np)).take 64,
              pay := (img.drop (168 + 16 * np)).take len, bcrc := bitsN w 63 32 }

/-- The lines from j on, decoded and checked. -/
def chiveLines (x : ChiveImg) (j : Nat) : Nat → Option (List Byte)
  | 0 => some []
  | n + 1 =>
    match chiveLine x.preds j (x.pay.drop (x.offs.getD j 0)) with
    | some l => if crc8 l = x.checks.getD j 0 then (chiveLines x (j + 1) n).map (fun r => l ++ r) else none
    | none => none

/-- A whole-block decode (R45): 0 and the 4,096 bytes; 1 where the image is invalid; 2 where only BCRC fails, with the
bytes decoded. -/
def chiveDecode (nsec : Nat) (img : List Byte) : Nat × List Byte :=
  match chiveHead nsec img with
  | none => (1, [])
  | some x =>
    match chiveLines x 0 64 with
    | none => (1, [])
    | some bs => (if crc32c 0 bs = x.bcrc then 0 else 2, bs)

/-- A predictor that the encoder's search considers (R46): 4 or 8 bytes wide, a stride that is a multiple of 8 from 8 to
512. -/
def chiveFind (x : List Nat) : ChivePred :=
  let w := if x.getD 0 0 % 2 = 0 then 4 else 8
  { off := x.getD 1 0 % (4097 - w), stride := 8 * (1 + x.getD 2 0 % 64), width := w, delta := x.getD 3 0 % 2 ^ 32,
    base := x.getD 4 0 % 2 ^ 64 }

/-- The image of a block under predictors and a choice of MASKED or LITERAL for each line. -/
def chiveImage (ps : List ChivePred) (lits : Nat) (blk : List Byte) : List Byte :=
  let lines := (List.range 64).map (fun j => (blk.drop (64 * j)).take 64)
  let codes := List.zipWith (fun l j => chiveCode ps (lits.testBit j) j l) lines (List.range 64)
  let pay := codes.flatten
  let offs := (List.range 64).map (fun j => (codes.take j).flatten.length)
  let size := 168 + 16 * ps.length + pay.length
  let nsec := (size + 511) / 512
  bytesOf (1 + nsec * 2 ^ 4 + ps.length * 2 ^ 8 + pay.length * 2 ^ 16 + crc32c 0 blk * 2 ^ 32) 8 ++
    ps.flatMap ChivePred.bytes ++
    bytesOf ((List.zipWith (fun o j => o * 2 ^ (12 * j)) offs (List.range 64)).sum) 96 ++ lines.map crc8 ++ pay ++
    List.replicate (512 * nsec - size) 0

/-- The encoder's image of a block: none where it would need more than 7 sectors (R46). Which predictors it finds and which
lines it stores as LITERAL is its own. -/
def chiveEncode (blk : List Byte) : Option (List Byte) :=
  let x := Config.chivePlan blk
  let img := chiveImage ((x.1.take 16).map chiveFind) x.2 blk
  if img.length ≤ 3584 then some img else none

end Sys2Proof.Machine
end

