-- ==== Sys2Proof/Machine/Toll.lean ====
section
/-! DEFINITION. Toll requests and grants (14_power_and_clocks.md, R392 to R394, R396, R398). -/

namespace Sys2Proof.Machine
open Sys2Proof

/-- A power controller. -/
def State.toll (s : State) (k : Nat) : Toll := Map.get Toll.reset s.tolls k
def State.setToll (s : State) (k : Nat) (t : Toll) : State := { s with tolls := Map.set Toll.reset s.tolls k t }

/-- A data engine and a unit of it. -/
def State.eng (s : State) (d : Nat) : Engine := Map.get Engine.reset s.engs d
def State.setEng (s : State) (d : Nat) (e : Engine) : State := { s with engs := Map.set Engine.reset s.engs d e }
def Engine.unit (e : Engine) (u : Nat) : EUnit := Map.get EUnit.reset e.units u
def Engine.setUnit (e : Engine) (u : Nat) (x : EUnit) : Engine := { e with units := Map.set EUnit.reset e.units u x }
def State.setUnit (s : State) (d u : Nat) (x : EUnit) : State := s.setEng d ((s.eng d).setUnit u x)

/-- Class of a unit: 0 COMP, 1 DECOMP, 2 CHIVE, 3 MOVE (Table 12.1). -/
def unitClass (u : Nat) : Nat := if u < 4 then 0 else if u < 12 then 1 else if u < 16 then 2 else 3

/-- The controller of a requester (Table 14.3). -/
def State.tollCtl (s : State) : TollWho → Nat
  | .vector p => dieOfTile (p / 2)
  | .unit d _ => 8 + d
  | .mig h => 8 + s.hostCh h / 6
  | .speed p => 8 + p / 32

/-- Cost of a requester in credits (Table 14.3): a pair costs twice the vector cost. -/
def State.tollCost (s : State) : TollWho → Nat
  | .vector _ => bitsN (s.rdCsr (pwrBase + 0x10)) 7 0 * (if s.profile = 2 then 2 else 1)
  | .unit _ u =>
    let c := unitClass u
    bitsN (s.rdCsr (pwrBase + 0x10)) (8 * c + 15) (8 * c + 8)
  | .mig _ => bitsN (s.rdCsr (pwrBase + 0x10)) 47 40
  | .speed _ => 0

/-- Addresses of PWR_DIE_CFG and PWR_DIE_STAT of a controller. -/
def dieCfgA (k : Nat) : Nat := pwrBase + 0x100 + 16 * k
def dieStatA (k : Nat) : Nat := pwrBase + 0x108 + 16 * k

/-- Whether a die is HOT (R400). -/
def State.dieHot (s : State) (k : Nat) : Bool := s.flag (dieStatA k) 50

/-- The pool that a controller grants from: POOL, less what thermal control has taken; 0 on a HOT I/O die (R399,
R400). -/
def State.poolOf (s : State) (k : Nat) : Nat :=
  let pool := s.fld (dieCfgA k) 23 14
  if 8 ≤ k then (if s.dieHot k then 0 else pool * (4 - min 4 (Map.get 0 s.poolCut k)) / 4) else pool

/-- The count registers of a controller follow its queue and its grants. -/
def State.tollStat (s : State) (k : Nat) : State :=
  let t := s.toll k
  let held := (t.held.map (fun x => s.tollCost x.1)).sum
  (s.putFld (dieStatA k) 23 14 held).putFld (dieStatA k) 31 24 t.queue.length

/-- The vector units of a physical core's governing register move to a state (R305). -/
def State.vpwrSet (s : State) (p st : Nat) : State :=
  let s1 := s.putFld (tileBase (p / 2) + 0x100C0 + 8 * (p % 2)) 1 0 st
  if s.profile = 2 then s1.putFld (tileBase (p / 2) + 0x100C0 + 8 * (1 - p % 2)) 1 0 st else s1

/-- A grant arrives at its requester. -/
def State.tollGive (s : State) : TollWho → State
  | .vector p => s.vpwrSet p 2
  | .unit d u => s.setUnit d u { (s.eng d).unit u with grant := true, slow := false }
  | .mig h => s.modHome h (fun x => { x with grant := true })
  | .speed _ => s

/-- A grant is withdrawn from its holder (Table 14.3): a unit and a home function go on at a quarter of their rate and request
again. -/
def State.tollTake (s : State) (w : TollWho) : State :=
  match w with
  | .vector p => s.vpwrSet p 0
  | .unit d u =>
    let x := (s.eng d).unit u
    s.setUnit d u { x with grant := false, slow := x.slow || (x.grant && x.job.isSome) }
  | .mig h => s.modHome h (fun x => { x with grant := false })
  | .speed _ => s

/-- Whether a requester asks again after a withdrawal (Table 14.3). -/
def TollWho.again : TollWho → Bool
  | .unit _ _ => true
  | .mig _ => true
  | _ => false

/-- A physical core as a requester. -/
def vecWho (p : Nat) : TollWho := .vector (Fin.ofNat 1088 p)

/-- The requester that asks: position 0 of a lockstepped pair asks for both cores (Table 14.3). -/
def State.tollAs (s : State) (w : TollWho) : TollWho :=
  match w with
  | .vector p => if s.profile = 2 then vecWho (p.val / 2 * 2) else w
  | _ => w

/-- A holder returns its grant, or gives up its request: the credit is free at once (R393). -/
def State.grantReturn (s : State) (w0 : TollWho) : State :=
  let w := s.tollAs w0
  let k := s.tollCtl w
  let t := s.toll k
  (s.setToll k { t with queue := t.queue.filter (fun x => decide (x.1 ≠ w)), held := t.held.filter (fun x => decide (x.1 ≠ w)) }).tollStat k

/-- A request joins its controller's queue (R392, R393): each requester has at most one request or grant. A HOT compute
die refuses a vector request (R400), and a fenced domain's request is refused (R402). -/
def State.tollEnqueue (s : State) (w0 : TollWho) : State :=
  let w := s.tollAs w0
  let k := s.tollCtl w
  let t := s.toll k
  let has := t.queue.any (fun x => decide (x.1 = w)) || t.held.any (fun x => decide (x.1 = w))
  let refused : Bool := match w with
    | .vector p => s.dieHot k || s.fenced (physAgt p)
    | .unit d _ => s.fenced { router := routerOfStop d 14, agent := 0 }
    | .mig h => s.fenced { router := routerOfCh (s.hostCh h), agent := 0 }
    | .speed p => s.fenced (portAgt p)
  match w with
  | .speed p =>
    if refused || t.slotQ.contains p.val || t.slots.contains p.val then s
    else s.setToll k { t with slotQ := t.slotQ ++ [p.val] }
  | _ =>
    if has then s
    else if refused then s.tollTake w
    else (s.setToll k { t with queue := t.queue ++ [(w, s.ctime.toNat)] }).tollStat k

end Sys2Proof.Machine
end

