-- ==== Sys2Proof/Machine/Uncore.lean ====
section
/-! DEFINITION. The data field of atomics and side-effect accesses (R146), and what a device
write and a far atomic do to a line. -/

namespace Sys2Proof

/-! ## The data field (R146) -/

/-- Fields of an atomic's data: operand, compare value, byte offset, size in bytes, operation. -/
def Pkt.aOp (p : Pkt) : Nat × Nat × Nat × Nat × Nat :=
  let d := p.data.toNat
  (d % 2 ^ 64, d / 2 ^ 64 % 2 ^ 64, d / 2 ^ 128 % 64, if d.testBit 134 then 8 else 4, d / 2 ^ 135 % 16)
/-- Fields of a side-effect access: byte offset, size in bytes, the written bytes at their place. -/
def Pkt.seOp (p : Pkt) : Nat × Nat × Nat :=
  let d := p.data.toNat
  (d / 2 ^ 128 % 64, 2 ^ (d / 2 ^ 134 % 8), d % 2 ^ 128)

/-- The line of a packet. -/
def Pkt.line (p : Pkt) : Nat := p.addr / 64

/-- The tile of a slice agent. -/
def Pkt.sliceT (p : Pkt) : Nat := Machine.tileOfRouter p.dst.router

end Sys2Proof

namespace Sys2Proof.Machine
open Sys2Proof

/-! ## Writes of a line -/

/-- Bytes written by a device write (R146): a full line, or those of the mask; a full line sets the poison mark to the
packet's (R115). A write of bytes that the line holds already (Pkt.dirty) changes none. -/
def State.devWrite (s : State) (line : Nat) (q : Pkt) (full : Bool) : State :=
  if q.dirty then s
  else if full then (s.wrLine line q.data).setPoison line q.poison else s.wrCells (maskCells line q.data q.mask)

/-- A far atomic performed on a line (R126): the old value as data; a poisoned line is left unchanged. -/
def State.doAtomic (s : State) (line : Nat) (q : Pkt) : State × Nat :=
  let (opd, cmp, off, size, op) := q.aOp
  let old := s.rdN (64 * line + off) size
  (if s.poisoned line then s else s.wrN (64 * line + off) (atomOp op size old opd cmp) size, old)

end Sys2Proof.Machine
end

