-- ==== Sys2Proof/Machine/Pool.lean ====
section
/-! DEFINITION. Where frames lie: near frames, the far pool, sector frames, directory pages and landing slots
(02_memory_tiers.md, R33 to R41), and the accounting of saved space (R64). Which of several free places is taken is
this model's: the lowest (log entry 21). -/

namespace Sys2Proof.Machine
open Sys2Proof

/-! ## Near frames -/

/-- The system frame behind a near frame at cold start (R35). -/
def Layout.nearSys (l : Layout) (ch c : Nat) : Option Nat :=
  (l.subFrom ch c).bind (fun cf => ((List.range 12).find? (fun h => decide (l.homeCh.getD h 12 = ch ∧ l.nearFirst.getD h 0 ≤ cf ∧
      cf < l.nearFirst.getD h 0 + l.nearNum.getD h 0 ∧ 12 * (cf - l.nearFirst.getD h 0) + h < l.base))).map
    (fun h => 12 * (cf - l.nearFirst.getD h 0) + h))

/-- The system frame behind a near frame (R99). -/
def State.sysOf (s : State) (ch cf : Nat) : Option Nat := Map.get (s.layout.nearSys ch cf) s.nearSys (2 ^ 16 * ch + cf)
def State.setSys (s : State) (ch cf : Nat) (f : Option Nat) : State :=
  { s with nearSys := Map.set (s.layout.nearSys ch cf) s.nearSys (2 ^ 16 * ch + cf) f }

/-- A near channel. -/
def State.nch (s : State) (ch : Nat) : NearCh := Map.get NearCh.reset s.near ch
def State.setNch (s : State) (ch : Nat) (x : NearCh) : State := { s with near := Map.set NearCh.reset s.near ch x }
def State.modNch (s : State) (ch : Nat) (f : NearCh → NearCh) : State := s.setNch ch (f (s.nch ch))

/-- The frames of a channel on which near frames may lie. -/
def State.nearSpan (s : State) (ch : Nat) : List Nat :=
  (List.range (s.layout.nearHi.getD ch 0)).drop (s.layout.nearLo.getD ch 0)

/-- Whether a near frame is free. -/
def State.nearFree (s : State) (ch cf : Nat) : Bool :=
  (s.sysOf ch cf).isNone && !(s.nch ch).withheld.contains cf &&
    !s.homes.any (fun e => e.2.migs.any (fun m => decide (m.dest.kind = 1 ∧ m.dest.loc = cf ∧ s.nearBk e.1 = ch)))

/-- The frames on which a home function's near frames may lie: those of its channel; where one channel of a pair has
carried both home functions since start-up in the assurance profile, its half of them (R106). -/
def State.nearSpanOf (s : State) (h : Nat) : List Nat :=
  let ch := s.nearBk h
  let lo := s.layout.nearLo.getD ch 0
  let n := (s.layout.nearHi.getD ch 0 - lo) / 2
  if s.profile = 2 ∧ s.layout.homeCh.getD (ch ^^^ 1) 12 = ch then
    (s.nearSpan ch).filter (fun cf => if h = ch then decide (cf < lo + n) else decide (lo + n ≤ cf))
  else s.nearSpan ch

/-- Whether a channel is being evacuated, so that no near frame is placed on it (R77). -/
def State.nearShut (s : State) (ch : Nat) : Bool := decide (s.coord.evac = some (true, ch))

/-- Frames that home function h reserves on its channel (R34). -/
def resFrames (h : Nat) : Nat := 43 + (if h < 8 then 171 else 170)

/-- Free frames of a channel that wait for the shares of its evacuated partner (R77). -/
def State.nearKeep (s : State) (ch : Nat) : Nat :=
  if s.coord.evac = some (true, ch ^^^ 1) ∧ s.profile ≠ 2 then resFrames (ch ^^^ 1) else 0

/-- The free near frames of a home function, how many there are, and the one that is placed next. -/
def State.freeNears (s : State) (h : Nat) : List Nat := (s.nearSpanOf h).filter (fun cf => s.nearFree (s.nearBk h) cf)
def State.freeNearCount (s : State) (h : Nat) : Nat := (s.freeNears h).length
def State.freeNear (s : State) (h : Nat) : Option Nat :=
  if s.nearShut (s.nearBk h) then none else ((s.freeNears h).drop (s.nearKeep (s.nearBk h))).head?
/-- Free near frames of a channel. -/
def State.freeOn (s : State) (ch : Nat) : List Nat := (s.nearSpan ch).filter (fun cf => s.nearFree ch cf)

/-! ## The far pool (R35, R39) -/

/-- Frames that a port adds to far memory. -/
def Layout.portFrames (l : Layout) (p : Nat) : Nat :=
  (((l.added ++ l.ports).find? (fun q => decide (q.1 = p))).map (fun q => q.2)).getD 0
/-- The far frames of a port's device that the part numbers: those of far memory and the retired ones. -/
def Layout.portSpan (l : Layout) (p : Nat) : Nat :=
  l.portFrames p + (l.subst.filter (fun x => decide (x.1 = 16 + p))).length
/-- The ports of far memory. -/
def Layout.farPorts (l : Layout) : List Nat := ((l.ports ++ l.added).map (fun q => q.1)).eraseDups
/-- The rank at which the rotation over the ports reaches far frame i of port p. -/
def Layout.farRankOf (l : Layout) (p i : Nat) : Nat :=
  (l.ports.map (fun q => min q.2 i + (if q.1 < p ∧ i < q.2 then 1 else 0))).sum
/-- A far frame at cold start: plain where the rotation reaches it, withheld where it is retired, else in the pool. -/
def Layout.farUse (l : Layout) (p j : Nat) : FarUse :=
  match l.subFrom (16 + p) j with
  | none => .withheld
  | some i => if l.ports.any (fun q => decide (q.1 = p)) && decide (l.farRankOf p i < l.farRank l.base) then .plain else .free

/-- What a far frame holds. -/
def State.far (s : State) (p i : Nat) : FarUse := Map.get (s.layout.farUse p i) s.farUse (2 ^ 21 * p + i)

/-- Address of SOR_FREE_FAR. -/
def freeFarA : Nat := rasBase + 0x100060

/-- What a far frame holds, changed; a frame that FRAME_RETIRE names is withheld when it is
freed (R444); SOR_FREE_FAR counts the frames of the pool. -/
def State.setFar (s : State) (p i : Nat) (v : FarUse) : State :=
  let u := if v = .free ∧ s.dse.gone.contains [10, p, i] = true then .withheld else v
  let n := s.fld freeFarA 27 0
  let n1 := if s.far p i = .free then n - 1 else n
  let n2 := if u = .free then n1 + 1 else n1
  ({ s with farUse := Map.set (s.layout.farUse p i) s.farUse (2 ^ 21 * p + i) u }).putFld freeFarA 27 0 n2

/-- Whether a port takes allocations: trained, not closed by an evacuation, not fenced (R33). -/
def State.portUsable (s : State) (p : Nat) : Bool :=
  let st := s.fld (portBase p + 0x10008 + 0x1000 * (p % 4)) 3 0
  decide (0 < s.layout.portFrames p) && decide (st = 2 ∨ st = 3) && !s.coord.closed.contains p && !s.fenced (portAgt p)

/-- A free far frame of a port. -/
def State.freeFar (s : State) (p : Nat) : Option Nat :=
  findFrom (fun i => decide (s.far p i = .free)) 0 (s.layout.portSpan p)

/-- Sectors a far frame has in use. -/
def FarUse.used : FarUse → List Nat
  | .sectors _ l => l
  | _ => []

/-- Whether sectors i .. i + n - 1 of a sector frame are free (R39, R40). -/
def fitsAt (used : List Nat) (i n : Nat) (page : Bool) : Bool :=
  decide (i + n ≤ 4096) && (!page || decide (i % 8 = 0)) && (List.range n).all (fun j => !used.contains (i + j))

/-- A run of n free sectors on a port for a home function: in its open sector frames, else in a new one from the pool.
Answers the index of the first sector in the port. -/
def State.allocSec (s : State) (h p n : Nat) (page : Bool) : Option (Nat × State) :=
  let start (used : List Nat) : Option Nat := findFrom (fun i => decide (1 ≤ i) && fitsAt used i n page) 0 4096
  let opens : List (Nat × Nat) := s.farUse.filterMap (fun e =>
    match e.2 with
    | .sectors h' used => if h' = h ∧ e.1 / 2 ^ 21 = p then (start used).map (fun i => (e.1 % 2 ^ 21, i)) else none
    | _ => none)
  match opens with
  | (ff, i) :: _ => some (4096 * ff + i, s.setFar p ff (.sectors h ((s.far p ff).used ++ (List.range n).map (fun j => i + j))))
  | [] =>
    match s.freeFar p with
    | some ff =>
      let i := if page then 8 else 1
      some (4096 * ff + i, s.setFar p ff (.sectors h ((List.range n).map (fun j => i + j))))
    | none => none

/-- Sectors freed; a sector frame with none left in use returns to the pool (R39). -/
def State.freeSec (s : State) (p sec n : Nat) : State :=
  let ff := sec / 4096
  match s.far p ff with
  | .sectors h used =>
    let l := used.filter (fun i => !decide (sec % 4096 ≤ i ∧ i < sec % 4096 + n))
    s.setFar p ff (if l.isEmpty then .free else .sectors h l)
  | _ => s

/-! ## Directory entries (Table 2.3) -/

/-- A directory entry: BKIND, NSEC, SECTOR. -/
def mkDirEnt (kind nsec sec : Nat) : Word := BitVec.ofNat 64 (kind + nsec * 4 + sec * 64)
def dKind (w : Word) : Nat := bitsN w 1 0
def dNsec (w : Word) : Nat := bitsN w 5 2
def dSector (w : Word) : Nat := bitsN w 38 6

/-- Key of a block among the directory entries, and of a directory line of 8 entries (R61). -/
def blkKey (f b : Nat) : Nat := 512 * f + b
def dirLine (f b : Nat) : Nat := 64 * f + b / 8

/-- The directory entry of a block of a frame. -/
def State.dirEnt (s : State) (f b : Nat) : Word := Map.get 0 s.dirPages (blkKey f b)
/-- A directory entry written; the image and the cached header of a block that it no longer names are gone. -/
def State.setDirEnt (s : State) (f b : Nat) (w : Word) : State :=
  let s1 := { s with dirPages := Map.set 0 s.dirPages (blkKey f b) w,
                     images := if dKind w = 1 then s.images else Map.set [] s.images (blkKey f b) [] }
  s1.modHagt (s.hostCh (f % 12)) (fun x => { x with hdrs := x.hdrs.filter (fun k => decide (k ≠ blkKey f b)) })

/-- The blocks of a frame that are not ZERO. -/
def State.dirBlocks (s : State) (f : Nat) : List (Nat × Word) :=
  (s.dirPages.filter (fun e => decide (e.1 / 512 = f))).map (fun e => (e.1 % 512, e.2))

/-- A frame's directory without any entry. -/
def State.clearDir (s : State) (f : Nat) : State :=
  let s1 := { s with dirPages := s.dirPages.filter (fun e => decide (e.1 / 512 ≠ f)),
                     images := s.images.filter (fun e => decide (e.1 / 512 ≠ f)) }
  s1.modHagt (s.hostCh (f % 12)) (fun x => { x with hdrs := x.hdrs.filter (fun k => decide (k / 512 ≠ f)),
                                                    dirs := x.dirs.filter (fun k => decide (k / 64 ≠ f)) })

/-! ## Landing slots (R34, R70) -/

/-- Landing slots of a home function's share: 512 in each of its 171 or 170 frames. -/
def slotCount (h : Nat) : Nat := 512 * (if h < 8 then 171 else 170)
/-- A free landing slot. -/
def State.freeSlot (s : State) (h : Nat) : Option Nat :=
  findFrom (fun i => !Map.get false s.slots (2 ^ 17 * h + i)) 0 (slotCount h)
/-- A landing slot taken or freed. -/
def State.setSlot (s : State) (h i : Nat) (b : Bool) : State := { s with slots := Map.set false s.slots (2 ^ 17 * h + i) b }

/-! ## Accounting (R64) -/

/-- Sectors that a frame uses, as R64 counts them. -/
def State.useOf (s : State) (f : Nat) : Nat :=
  match eKind (s.entry f) with
  | 1 => 4096
  | 2 => 4096
  | 3 => 8 + ((s.dirBlocks f).map (fun b => if dKind b.2 = 3 then 8 else dNsec b.2)).sum
  | 5 => 8 + ((s.dirBlocks f).map (fun b => if dKind b.2 = 3 then 8 else dNsec b.2)).sum
  | _ => 0

/-- Addresses of SOR_SAVED, SOR_GRANTED and SOR_RESERVE, SOR_CAP_FAR, SOR_CAP_BASE. -/
def savedA : Nat := rasBase + 0x100050
def grantedA : Nat := rasBase + 0x100058
def reserveA : Nat := rasBase + 0x100068
def capFarA : Nat := rasBase + 0x100040
def capBaseA : Nat := rasBase + 0x100048

/-- A change to the storage of frame f, with SOR_SAVED following a base frame's use. -/
def State.account (s : State) (f : Nat) (g : State → State) : State :=
  let s1 := g s
  if eElastic (s.entry f) || eElastic (s1.entry f) || decide (s.fld capBaseA 27 0 ≤ f) then s1
  else s1.putFld savedA 47 0 (s1.fld savedA 47 0 + s.useOf f - s1.useOf f)

/-- The grant rule (R64). -/
def State.grantRule (s : State) : Bool :=
  decide (4104 * s.fld grantedA 27 0 + 4096 * s.fld reserveA 27 0 ≤ s.fld savedA 47 0)

/-! ## Storage of a place freed -/

/-- The sectors and slots of a list of blocks on a port freed. -/
def State.freeBlocks (s : State) (h p : Nat) : List (Nat × Word) → State
  | [] => s
  | (_, w) :: bs =>
    State.freeBlocks (if dKind w = 3 then s.setSlot h (dSector w) false
      else if dKind w = 0 then s else s.freeSec p (dSector w) (dNsec w)) h p bs

/-- A place no longer used by a frame of home function h: its near frame, far frame, or directory page with the blocks
it names (given apart). -/
def State.freePlace (s : State) (h : Nat) (pl : Place) (blocks : List (Nat × Word)) : State :=
  match pl.kind with
  | 1 => s.setSys (s.nearBk h) pl.loc none
  | 2 => s.setFar pl.port pl.loc .free
  | 3 => (s.freeBlocks h pl.port blocks).freeSec pl.port (8 * pl.loc) 8
  | 5 => (s.freeBlocks h pl.port blocks).setSlot h pl.loc false
  | _ => s

end Sys2Proof.Machine
end

