-- ==== Sys2Proof/Machine/NearOps.lean ====
section
/-! DEFINITION. What a near channel does below the home agent (03_near_memory_integrity.md): codes of its frames, the
error log and the buckets, the merge buffer, and how a DRAM read ends. -/

namespace Sys2Proof.Machine
open Sys2Proof

/-! ## Codes (R83, R85) -/

/-- Region r of a channel. -/
def State.nregion (s : State) (ch r : Nat) : Word := s.rdCsr (chBase ch + 0x1000 + 8 * r)

/-- Whether a region's range holds a frame. -/
def inRegion (w : Word) (cf : Nat) : Bool := decide (bitsN w 14 0 ≤ cf ∧ cf ≤ bitsN w 30 16)

/-- The valid region that holds a frame. -/
def State.regionOf (s : State) (ch cf : Nat) : Option Nat :=
  (List.range 16).find? (fun r => bitB (s.nregion ch r) 32 && inRegion (s.nregion ch r) cf)

/-- Whether a line of a channel frame is under the light code: never in the assurance profile (R83), else as its region
says, and while a conversion runs the old code from the conversion point on (R85). -/
def State.light (s : State) (ch cf line : Nat) : Bool :=
  let conv := s.rdCsr (chBase ch + 0x1080)
  let w := s.nregion ch (bitsN conv 3 0)
  if s.profile = 2 then false
  else if bitB conv 4 && inRegion w cf &&
      (decide (bitsN conv 19 5 < cf) || (decide (bitsN conv 19 5 = cf) && decide ((s.nch ch).convLine ≤ line))) then
    (s.nch ch).convOld
  else match s.regionOf ch cf with
    | some r => bitB (s.nregion ch r) 33
    | none => false

/-! ## Decode of a channel address (R79, Table 3.2) -/

/-- Row address bits: 17 for 8 Gbit, 18 for 16 Gbit. -/
def State.rowBits (s : State) (ch : Nat) : Nat := if s.flag (chBase ch) 3 then 18 else 17

/-- Rank, bank group, bank and row of a line of a channel frame. -/
def State.dramAt (s : State) (ch cf line : Nat) : Nat × Nat × Nat × Nat :=
  let a := cf * 2 ^ 21 + 64 * line
  let rb := s.rowBits ch
  (a / 2 ^ (17 + rb), (a / 2 ^ 6 % 4) ^^^ (a / 2 ^ 17 % 4), (a / 2 ^ 13 % 4) ^^^ (a / 2 ^ 19 % 4), a / 2 ^ 17 % 2 ^ rb)

/-- The rank of the modules behind a rank of Table 3.2: the ranks that the channel runs with, in order (R80). -/
def State.physRank (s : State) (ch r : Nat) : Nat := (s.nch ch).ranks.getD r r

/-! ## Error log and buckets (R95 to R97) -/

/-- A record of NMC_ERRLOG (Table 3.14). -/
def State.nmcRec (s : State) (ch cf line rank dev cls src : Nat) : State :=
  let b := chBase ch
  let n := s.fld (b + 0x5200) 4 0
  let a := b + 0x5000 + 16 * n
  let full := decide (s.rdCsr (a + 8) ≠ 0 ∨ s.rdCsr a ≠ 0)
  let w : Word := BitVec.ofNat 64 (cf % 2 ^ 15 + line % 2 ^ 15 * 2 ^ 15 + rank % 4 * 2 ^ 30 + dev % 32 * 2 ^ 32 +
    cls % 16 * 2 ^ 37 + src % 16 * 2 ^ 41 + (if s.light ch cf line then 2 ^ 45 else 0))
  let s1 := ((s.wrCsr a s.ctime).wrCsr (a + 8) w).putFld (b + 0x5200) 4 0 ((n + 1) % 32)
  if full then s1.putFlag (b + 0x5200) 5 true else s1
/-- A record of an event of a line. -/
def State.nmcLog (s : State) (ch cf line dev cls src : Nat) : State := s.nmcRec ch cf line (s.dramAt ch cf line).1 dev cls src

/-- A bucket's increment (R95): answers whether OVF changed from 0 to 1. -/
def State.bktAdd (s : State) (a : Nat) : Bool × State :=
  let w := s.rdCsr a
  let lvl := bitsN w 15 0
  if bitsN w 31 16 ≤ lvl + 1 then
    if bitB w 48 then (false, s.wrCsr a (putW (putW w 15 0 0) 56 49 (satN 8 (bitsN w 56 49 + 1))))
    else (true, s.wrCsr a (putB (putW w 15 0 0) 48 true))
  else (false, s.wrCsr a (putW w 15 0 (lvl + 1)))

/-- Addresses of the buckets of a line: the channel's, its rank's, and its region's when it lies in one. -/
def State.bktsOf (s : State) (ch cf line : Nat) : List Nat :=
  [chBase ch + 0x4000, chBase ch + 0x4008 + 8 * ((s.dramAt ch cf line).1 % 4)] ++
    (match s.regionOf ch cf with
     | some r => [chBase ch + 0x4040 + 8 * r]
     | none => [])

/-- A corrected error counted in its buckets; a bucket that overflows sends the interrupt (R96). -/
def State.countCe (s : State) (ch cf line : Nat) : State :=
  (s.bktsOf ch cf line).foldl (fun (s : State) a =>
    let r := s.bktAdd a
    if r.1 then r.2.sendIrq (chBase ch + 0x40C0) else r.2) s

/-- The fault report of a DRAM error: unit DRAM row, its location (Table 16.2). -/
def State.reportRow (s : State) (ch cf line dev sev : Nat) : State :=
  let (r, bg, bk, row) := s.dramAt ch cf line
  s.report 0x1A ch (r % 4 + bg * 4 + bk * 16 + row * 64 + dev * 2 ^ 24) sev (cf * 2 ^ 21 + 64 * line)

/-! ## Poison of a near frame (R98 to R100) -/

/-- Primary frames of a channel of a mirrored pair (R105). -/
def State.pairFrames (s : State) (ch : Nat) : Nat := s.layout.nearHi.getD ch 0 - s.layout.nearLo.getD ch 0

/-- The system frame behind a channel frame: the one that a near frame backs, or that a mirror frame copies (R99, R105). -/
def State.backs (s : State) (ch cf : Nat) : Option Nat :=
  (s.sysOf ch cf).orElse (fun _ =>
    let up := s.pairFrames (ch ^^^ 1)
    if s.profile = 2 ∧ 0 < up ∧ up ≤ cf then s.sysOf (ch ^^^ 1) (cf - up) else none)

/-- The system line behind a line of a channel frame. -/
def State.sysLine (s : State) (ch cf line : Nat) : Option Nat := (s.backs ch cf).map (fun f => 32768 * f + line)

/-- The POISONED bit of a frame set (R99). -/
def State.framePoison (s : State) (f : Nat) : State := s.setEntry f (putB (s.entry f) 9 true)

/-- Poison found in or written to a line: its mark, and the frame's POISONED bit (R99). -/
def State.markPoison (s : State) (sl : Nat) : State := (s.setPoison sl true).framePoison (sl / 32768)

/-- The frame behind a channel frame is POISONED (R99). -/
def State.foundPoison (s : State) (ch cf : Nat) : State :=
  match s.backs ch cf with
  | some f => s.framePoison f
  | none => s

/-- Whether a cache holds a line, so that its coherent value is not the one in memory. -/
def State.cached (s : State) (sl : Nat) : Bool :=
  decide ((s.dline sl).st ≠ .U) || decide ((s.dline sl).way ≠ .none) || (s.dline sl).evb.isSome

/-! ## What the controller writes (R85, R87, R89) -/

/-- A CRC-16 register after one byte: polynomial 0x1021, unreflected. -/
def crc16Byte (c : BitVec 16) (b : Byte) : BitVec 16 :=
  (List.range 8).foldl (fun c _ => if c.getLsbD 15 then (c <<< 1) ^^^ 0x1021 else c <<< 1) (c ^^^ (b.zeroExtend 16 <<< 8))
/-- LCRC of a line's 64 bytes in address order (Table 3.8). -/
def crc16 (d : Line) : Nat :=
  ((List.range 64).foldl (fun c i => crc16Byte c (d.extractLsb' (8 * i) 8)) (0xFFFF : BitVec 16)).toNat

/-- The key of a line of a channel frame. -/
def nkey (cf line : Nat) : Nat := 32768 * cf + line

/-- WSTAMP of a line, and its metadata M (Table 3.8): three poison votes, WSTAMP, LCRC. -/
def State.wstampOf (s : State) (ch cf line : Nat) : Nat :=
  Map.get (Map.get 0 (s.nch ch).fstamp cf) (s.nch ch).wstamp (nkey cf line)
def State.lineM (s : State) (ch cf line : Nat) : Word :=
  let n := s.nch ch
  let crc := (Map.get none n.lcrc (nkey cf line)).getD (match s.sysLine ch cf line with
    | some sl => crc16 (s.rdLine sl)
    | none => 0)
  BitVec.ofNat 64 ((if Map.get false n.marks (nkey cf line) then 7 else 0) + s.wstampOf ch cf line * 2 ^ 3 + crc * 2 ^ 16)

/-- A line of one channel written, with its poison mark: its cells take new check bits, and in a light region a new M, whose
WSTAMP is a given one or the one that the line held (R87, R89). -/
def State.dramPut (s : State) (ch cf line : Nat) (poison : Bool) (stamp : Option Nat) : State :=
  let k := nkey cf line
  let crc := match s.sysLine ch cf line with
    | some sl => crc16 (s.rdLine sl)
    | none => 0
  let light := s.light ch cf line
  s.modNch ch (fun n =>
    { n with marks := Map.set false n.marks k poison, errs := Map.set [] n.errs k [],
             lcrc := if light then Map.set none n.lcrc k (some crc) else n.lcrc,
             wstamp := match stamp with
               | some e => if light then Map.set (Map.get 0 n.fstamp cf) n.wstamp k e else n.wstamp
               | none => n.wstamp })

/-- Whole code words of a strong line written: their cells are as written (R91). -/
def State.dramWords (s : State) (ch cf line mask : Nat) : State :=
  let k := nkey cf line
  s.modNch ch (fun n =>
    { n with errs := Map.set [] n.errs k ((Map.get [] n.errs k).filter (fun x => !mask.testBit (8 * x.1.val))) })

/-- Mirror state of a channel (Table 3.16). -/
def State.mirCh (s : State) (ch : Nat) : Nat := s.fld (chBase ch + 0x7000) 1 0

/-- The frame of the other channel of a mirrored pair that holds the copy of a frame (R105). -/
def State.mirFrame (s : State) (ch cf : Nat) : Nat :=
  let lo := s.layout.nearLo.getD ch 0
  let hi := s.layout.nearHi.getD ch 0
  if cf < resFrames ch then resFrames (ch ^^^ 1) + cf
  else if cf < lo then cf - resFrames ch
  else if cf < hi then cf + (hi - lo)
  else cf - (hi - lo)

/-- While a pair resilvers, the frame that RES_PTR names goes on: how far is free, but it never goes back (R109, log entry 56). -/
def State.resilverOn (s : State) (ch : Nat) : State :=
  if s.mirCh ch = 3 then
    (s.putFld (chBase ch + 0x7000) 35 8 (max (s.fld (chBase ch + 0x7000) 35 8) (s.draw (s.fld (chBase ch) 19 4)))).bump
  else s

/-- New data of a line written to its channel, and to both copies of a mirrored pair (R89, R107, R109). -/
def State.dramWrite (s : State) (ch cf line : Nat) (poison : Bool) : State :=
  let e := some (s.coord.epoch % 8192)
  let s1 := s.dramPut ch cf line poison e
  if s.mirCh ch = 1 ∨ s.mirCh ch = 3 then s1.dramPut (ch ^^^ 1) (s.mirFrame ch cf) line poison e else s1

/-- A line's own data written back, corrected, with its mark as it is (R89, R93, R94). -/
def State.dramRestore (s : State) (ch cf line : Nat) : State :=
  s.dramPut ch cf line (Map.get false (s.nch ch).marks (nkey cf line)) none

/-- Poison written to a line: its stored mark, the coherent line unless a cache holds it, the frame's POISONED bit; logged with
CLASS POISON_WRITTEN and reported (R87, R97, R99, R430). -/
def State.poisonWritten (s : State) (ch cf line src : Nat) : State :=
  let s1 := match s.sysLine ch cf line with
    | some sl => (if s.cached sl then s else s.setPoison sl true).framePoison (sl / 32768)
    | none => s
  let s2 := s1.dramPut ch cf line true none
  let s3 := if s.mirCh ch = 1 ∨ s.mirCh ch = 3 then s2.dramPut (ch ^^^ 1) (s.mirFrame ch cf) line true none else s2
  (s3.nmcLog ch cf line 31 2 src).reportRow ch cf line 31 1

/-! ## The codes (R86 to R88) -/

/-- How a line decodes: without error, corrected in a device (31: not identified), detected uncorrectable, a mismatch of
LCRC, or an error that is miscorrected or passes (Tables 3.6 and 3.7). -/
inductive DramRes where
  | clean | corrected (device : Nat) | uncorrectable | lcrc | wrong
  deriving DecidableEq, Repr

/-- Whether a bit of the burst is turned: two turns of one bit leave it. -/
def flipped (fs : Flips) (beat bit : Nat) : Bool := decide ((fs.filter (fun x => decide (x.1.val = beat ∧ x.2.val = bit))).length % 2 = 1)
/-- The error of symbol d of code word k: device d's bits of beats 2k and 2k + 1 (R86). -/
def symErr (fs : Flips) (k d : Nat) : Nat :=
  ((List.range 8).map (fun j => if flipped fs (2 * k + j / 4) (4 * d + j % 4) then 2 ^ j else 0)).sum
/-- The symbols of a code word in error. -/
def badSyms (fs : Flips) (k : Nat) : List Nat := (List.range 20).filter (fun d => decide (symErr fs k d ≠ 0))
/-- Whether the errors of a clean code word make it the stored mark with at most one symbol in error: the mark inverts the
four check symbols (R87). -/
def likeMark (fs : Flips) (k : Nat) : Bool :=
  decide (((List.range 20).filter (fun d => decide (symErr fs k d ≠ (if d < 16 then 0 else 255)))).length ≤ 1)

/-- The strong code (Table 3.6, R87): how a line decodes, and whether the read recognises the stored mark. `pick` chooses among
the outcomes that four or more symbols in error may have. -/
def strongRead (marked : Bool) (fs : Flips) (pick : Nat) : DramRes × Bool :=
  let ws := (List.range 4).map (badSyms fs)
  if marked then (if ws.all (fun w => decide (w.length ≤ 1)) then (.clean, true) else (.uncorrectable, false))
  else if (List.range 4).all (likeMark fs) then (.clean, true)
  else if ws.any (fun w => decide (w.length = 2 ∨ w.length = 3)) then (.uncorrectable, false)
  else if ws.any (fun w => decide (4 ≤ w.length)) then (if pick % 3 = 0 then .uncorrectable else .wrong, false)
  else match ws.flatten with
    | [] => (.clean, false)
    | d :: ds => (.corrected (if ds.all (fun x => decide (x = d)) then d else 31), false)

/-- The light code (Table 3.7, R88): as the bits turned in each beat; the poison votes say whether the line is poisoned. -/
def lightRead (marked : Bool) (fs : Flips) (pick : Nat) : DramRes × Bool :=
  let ns := (List.range 8).map (fun b => ((List.range 80).filter (flipped fs b)).length)
  if ns.any (fun n => decide (n = 2)) then (.uncorrectable, false)
  else if ns.any (fun n => decide (3 ≤ n)) then
    (if pick % 3 = 0 then (.uncorrectable, false) else if pick % 3 = 1 then (.lcrc, false) else (.wrong, marked))
  else if ns.any (fun n => decide (n = 1)) then (.corrected 31, marked)
  else (.clean, marked)

/-- Whether the outcome of a decode is one of several that the tables allow. -/
def codeOpen (light : Bool) (fs : Flips) : Bool :=
  if light then (List.range 8).any (fun b => decide (3 ≤ ((List.range 80).filter (flipped fs b)).length))
  else (List.range 4).any (fun k => decide (4 ≤ (badSyms fs k).length))

/-- One copy of a line read and decoded: the bits turned in its cells stay turned. -/
def State.dramCopy (s : State) (ch cf line : Nat) (e : DramErr) : (DramRes × Bool) × State :=
  let k := nkey cf line
  let n := s.nch ch
  let cells := Map.get [] n.errs k ++ e.cells
  let fs := cells ++ e.link
  let marked := Map.get false n.marks k
  let light := s.light ch cf line
  let s1 := if e.cells.isEmpty then s else s.modNch ch (fun n => { n with errs := Map.set [] n.errs k cells })
  ((if light then lightRead marked fs (s.draw 3) else strongRead marked fs (s.draw 3)), if codeOpen light fs then s1.bump else s1)

/-! ## How a DRAM read ends (R86 to R88, R107) -/

/-- A corrected error: its record, its buckets, its report (R93, R95, R97). -/
def State.ceSeen (s : State) (ch cf line dev src : Nat) : State :=
  ((s.nmcLog ch cf line dev 0 src).countCe ch cf line).reportRow ch cf line dev 0

/-- An uncorrectable error: its record and its report. -/
def State.ueSeen (s : State) (ch cf line cls src : Nat) : State := (s.nmcLog ch cf line 31 cls src).reportRow ch cf line 31 1

/-- What the read of the mirror copy logs on the channel that holds it (R107). -/
def State.mirrorSeen (s : State) (ch cf line : Nat) (r : DramRes) : State :=
  let p := ch ^^^ 1
  let mf := s.mirFrame ch cf
  match r with
  | .corrected d => s.ceSeen p mf line d 5
  | .uncorrectable => s.ueSeen p mf line 1 5
  | .lcrc => s.ueSeen p mf line 3 5
  | _ => s

/-- A read of a line finds its own copy uncorrectable: in a mirrored pair the mirror copy is read, and when that is clean
the own copy is rewritten from it; else the line is delivered poisoned (R87, R88, R99, R107). -/
def State.dramLost (s0 : State) (ch cf line cls src : Nat) (m : DramErr) : Bool × Bool × State :=
  let s := s0.ueSeen ch cf line cls src
  if s0.mirCh ch = 1 then
    let (r, s1) := s.dramCopy (ch ^^^ 1) (s.mirFrame ch cf) line m
    let s2 := s1.mirrorSeen ch cf line r.1
    if !r.2 && decide (r.1 ≠ .uncorrectable) && decide (r.1 ≠ .lcrc) then
      (false, decide (r.1 = .wrong), (s2.dramPut ch cf line false none).nmcLog ch cf line 31 4 5)
    else (true, false, s2.foundPoison ch cf)
  else (true, false, s.foundPoison ch cf)

/-- What a read of a line comes to: whether it is delivered poisoned, whether the data is wrong, and the state with log,
buckets and reports; `src` is the SOURCE of the record. -/
def State.dramRead (s : State) (ch cf line src : Nat) (e : DramEnv) : Bool × Bool × State :=
  let (r, s0) := s.dramCopy ch cf line e.own
  let s1 := if r.2 then s0.foundPoison ch cf else s0
  match r.1 with
  | .clean => (r.2, false, s1)
  | .corrected d => (r.2, false, s1.ceSeen ch cf line d src)
  | .uncorrectable => s1.dramLost ch cf line 1 src e.mirror
  | .lcrc => s1.dramLost ch cf line 3 src e.mirror
  | .wrong => (r.2, !r.2, s1)

/-- How a read of a line's own copy decodes. -/
def State.dramSees (s : State) (ch cf line : Nat) (e : DramErr) : DramRes := (s.dramCopy ch cf line e).1.1
/-- Whether a decode found an error that its code corrects, or one that it detects and cannot correct. -/
def DramRes.isCorrected : DramRes → Bool
  | .corrected _ => true
  | _ => false
def DramRes.isLost : DramRes → Bool
  | .uncorrectable => true
  | .lcrc => true
  | _ => false

/-- Wrong data delivered by a read that its code does not catch (Tables 3.6 and 3.7): free bytes, which the line then
holds, unless a cache holds its coherent value. -/
def State.wrongData (s : State) (sl : Nat) : State := if s.cached sl then s else (s.wrLine sl (Config.freeLine s.free)).bump

/-! ## The merge buffer (R91, R92, Table 3.9) -/

/-- Whether a mask covers whole aligned 16-byte code words only. -/
def wholeWords (mask : Nat) : Bool :=
  (List.range 4).all (fun i => decide (mask / 2 ^ (16 * i) % 2 ^ 16 = 0 ∨ mask / 2 ^ (16 * i) % 2 ^ 16 = 65535))

/-- Wrong data delivered by a read of a line: the bytes of its merge entry stay (Table 3.9). -/
def State.wrongRead (s : State) (ch cf line sl : Nat) : State :=
  match (s.nch ch).merge.find? (fun x => decide (x.cf = cf ∧ x.line = line)) with
  | some x => (s.wrongData sl).wrCells (maskCells sl x.data x.mask)
  | none => s.wrongData sl

/-- An entry leaves the buffer by a forced read-modify-write: it is written poisoned where the read found poison or an error, or
where poisoned bytes were merged (R92, R98). -/
def State.forceEnt (s : State) (ch : Nat) (x : MergeEnt) (e : DramEnv) : State :=
  let s0 := s.modNch ch (fun n => { n with merge := takeOut x n.merge })
  let (bad, wrong, s1) := s0.dramRead ch x.cf x.line 4 e
  let s2 := match s.sysLine ch x.cf x.line with
    | some sl => if wrong then (s1.wrongData sl).wrCells (maskCells sl x.data x.mask) else s1
    | none => s1
  let s3 := s2.dramWrite ch x.cf x.line false
  if bad || decide (x.pmask ≠ 0) then s3.poisonWritten ch x.cf x.line 4 else s3

/-- A DRAM read that meets no error but those that stand in the cells. -/
def noErr : DramEnv := { own := { cells := [], link := [] }, mirror := { cells := [], link := [] } }

/-- The entry of a line, if any. -/
def State.mergeOf (s : State) (ch cf line : Nat) : Option MergeEnt :=
  (s.nch ch).merge.find? (fun x => decide (x.cf = cf ∧ x.line = line))

/-- A line's entry forced, when it has one. -/
def State.forceLine (s : State) (ch cf line : Nat) : State :=
  match s.mergeOf ch cf line with
  | some x => s.forceEnt ch x noErr
  | none => s

/-- Every entry of a frame forced (Table 3.9). -/
def State.forceFrame (s : State) (ch cf : Nat) : State :=
  ((s.nch ch).merge.filter (fun x => decide (x.cf = cf))).foldl (fun (s : State) x => s.forceEnt ch x noErr) s

/-- Every entry of a channel forced, before self-refresh (Table 3.9). -/
def State.forceAll (s : State) (ch : Nat) : State :=
  (s.nch ch).merge.foldl (fun (s : State) x => s.forceEnt ch x noErr) s

/-- The mask of two writes, and the poisoned bytes after a write (R98, R100). -/
def maskOr (a b : Nat) : Nat := a ||| b
def pmaskOf (old mask : Nat) (poison : Bool) : Nat := if poison then old ||| mask else old &&& (2 ^ 64 - 1 - mask)

/-- A narrow write accepted by the controller (R91, R92): the bytes are written; a strong region's whole code words go
straight to the DRAM, every other narrow write enters the merge buffer, which forces its oldest entry when full. A mask
that becomes full writes the line, clean unless one of its bytes last came poisoned (R98, R100). A narrow write that arrives
poisoned poisons the line. -/
def State.nearNarrow (s : State) (ch cf line sl : Nat) (d : Line) (mask : Nat) (poison : Bool) : State :=
  let s' := s.wrCells (maskCells sl d mask)
  let s0 := if poison then s'.markPoison sl else s'
  let t := s.ctime.toNat
  let window := s.fld (chBase ch + 0x2000) 6 0
  match s.mergeOf ch cf line with
  | some x =>
    let m := maskOr x.mask mask
    let x' : MergeEnt := { x with mask := m, data := s0.rdLine sl, pmask := pmaskOf x.pmask mask poison }
    let s1 := s0.modNch ch (fun n => { n with merge := n.merge.map (fun y => if y = x then x' else y) })
    if m = 2 ^ 64 - 1 then
      let s2 := s1.modNch ch (fun n => { n with merge := takeOut x' n.merge })
      if x'.pmask = 0 then (s2.setPoison sl false).dramWrite ch cf line false
      else (s2.dramWrite ch cf line true).poisonWritten ch cf line 0
    else s1
  | none =>
    if !s.light ch cf line && wholeWords mask then
      (if poison then s0.poisonWritten ch cf line 0 else s0.dramWords ch cf line mask)
    else
      let s1 := match (s0.nch ch).merge with
        | y :: _ => if 32 ≤ (s0.nch ch).merge.length then s0.forceEnt ch y noErr else s0
        | [] => s0
      let x : MergeEnt := { cf := cf, line := line, data := s0.rdLine sl, mask := mask, pmask := pmaskOf 0 mask poison, time := t }
      let s2 := s1.modNch ch (fun n => { n with merge := n.merge ++ [x] })
      if window = 0 then s2.forceEnt ch x noErr else s2

/-- A full-line write accepted by the controller: a merge entry of the line is discarded (Table 3.9), the line takes the
write's poison (R98, R100). -/
def State.nearFull (s : State) (ch cf line sl : Nat) (d : Line) (poison : Bool) : State :=
  let s0 := s.modNch ch (fun n => { n with merge := n.merge.filter (fun x => !decide (x.cf = cf ∧ x.line = line)) })
  let s1 := (s0.wrLine sl d).dramWrite ch cf line poison
  if poison then s1.poisonWritten ch cf line 0 else s1.setPoison sl false

end Sys2Proof.Machine
end

