-- ==== Sys2Proof/Machine/Home.lean ====
section
/-! DEFINITION. Home agents (02_memory_tiers.md): heat, the remap cache, requests for lines by the tier that holds them,
the rewriting of compressed blocks, the spill-wait queue and landing, and answers from ports. -/

namespace Sys2Proof.Machine
open Sys2Proof

/-! ## The coordinator's ring (R66, R67) -/

/-- Addresses of the ring registers. -/
def elrHeadA : Nat := rasBase + 0x100090
def elrTailA : Nat := rasBase + 0x100098
def elrSizeA : Nat := rasBase + 0x100088
def elrBaseA : Nat := rasBase + 0x100080
def elrCtlA : Nat := rasBase + 0x1000A8
def elrIrqA : Nat := rasBase + 0x1000B0
def elrLostA : Nat := rasBase + 0x1000B8
def capStatA : Nat := rasBase + 0x100070

/-- Records that the elastic ring can still take; none while posting has stopped. -/
def State.elrRoom (s : State) : Nat :=
  let size := 2 ^ s.fld elrSizeA 4 0
  if s.coord.stopped then 0
  else size - 1 - (s.fld elrTailA 15 0 + size - s.fld elrHeadA 15 0 % size) % size

/-- Whether a record finds neither the ring nor the 256 places of the internal store (R67). -/
def State.elrFull (s : State) : Bool := decide (s.elrRoom + 256 ≤ s.coord.held.length)

/-- A record is to be posted: it waits in order, or it is dropped and counted (R67). -/
def State.postRec (s : State) (r : ElrRec) : State :=
  if s.elrFull then
    (s.putFld elrLostA 31 0 (satN 32 (s.fld elrLostA 31 0 + 1))).putFlag capStatA 4 true
  else { s with coord := { s.coord with held := s.coord.held ++ [r] } }

/-- A LANDING (4), STALL (5) or RESUME (6) record. -/
def State.postState (s : State) (type : Nat) : State := s.postRec { type := type, frame := 0, count := 0, time := 0 }

/-! ## Answers to the requester -/

/-- The requester of a packet as the log records it. -/
def whoOf (q : Pkt) : Nat := 8 * q.src.router + q.src.agent

/-- A home agent ends a request: data for a read or an atomic, WbAck for an eviction, a completion for a write. -/
def State.homeEnd (s : State) (q : Pkt) (status detail : Nat) (d : Line) (poison : Bool) : State :=
  match q.op with
  | .HPut => s.inject { op := .WbAck, src := q.dst, dst := q.src, txid := q.txid, addr := q.addr, status := status, detail := detail }
  | o => s.inject { op := answerOp o, src := q.dst, dst := q.src, txid := q.txid, addr := q.addr, status := status,
                    detail := detail, data := if status = 0 ∨ status = 6 then d else BitVec.allOnes 512, poison := poison,
                    side := s.stamp4 (sideLeg q.side (if opIsReq q.op && decide (q.src.agent = 2) then 2 else 3)) 3 }

/-- A home agent ends a write, an eviction, or an atomic whose old value stands in its data. -/
def State.homeOk (s : State) (q : Pkt) : State := s.homeEnd q 0 0 (if q.op = .HAtom then q.data else 0) (decide (q.op = .HAtom) && q.poison)

/-- Data source of a frame's line, as the home agent reports it (Table 13.4). -/
def State.srcOf (s : State) (q : Pkt) : Nat :=
  let en := s.entry (frameOf q.addr)
  if eKind en = 1 then 9
  else if eKind en = 2 then 10
  else if decide (dKind (s.dirEnt (frameOf q.addr) (q.addr / 4096 % 512)) = 1) then 11
  else 12

/-- A read answered with the line as it stands. -/
def State.homeData (s : State) (q0 : Pkt) : State :=
  let q := { q0 with side := sideSrc (if q0.side.getLsbD 153 then q0.side else s.stamp4 q0.side 2) (s.srcOf q0) }
  s.homeEnd q 0 0 (s.rdLine q.line) (s.poisoned q.line)

/-- Whether a home request is a full-line write, and whether it writes at all. -/
def isFull (q : Pkt) : Bool := decide (q.op = .HWrF ∨ q.op = .HPut)
def isWrite (q : Pkt) : Bool := decide (q.op = .HWrF ∨ q.op = .HPut ∨ q.op = .HWrP)

/-! ## Far ports (R110, Table 3.16) -/

/-- Mirror state of a port, the port that serves reads of a far frame, the ports that take its writes. -/
def State.mirSt (s : State) (p : Nat) : Nat := s.fld (portBase p + 0x7000 + 8 * (p % 4)) 1 0
def State.rdPort (s : State) (p : Nat) : Nat :=
  if s.mirSt p = 0 ∧ (s.mirSt (p ^^^ 1) = 2 ∨ s.mirSt (p ^^^ 1) = 3) then p ^^^ 1 else p
def State.wrPorts (s : State) (p : Nat) : List Nat := if s.mirSt p = 1 then [p, p ^^^ 1] else [s.rdPort p]

/-- A request of a home agent to a port, under a TXID of its own; `ph` says what its answer is for: 0 the request
itself, 1 a line of a CHIVE block, 2 the whole block before a rewrite, 4 one copy of a write that has several, 5 the read of
an atomic that is then written, 6 a block's header, 7 a line of a directory page, 8 the RAW copy of a block, 9 the repair of
a copy; 16 more for the second copy of a mirrored read. The packet carries the system address; its REPOCH is the frame's
(R59). Each exchange stands for all the sectors that its purpose needs.
While every TXID of the home agent is taken the request comes again (R144). -/
def State.toPort (s : State) (q : Pkt) (op : Op) (p ph : Nat) (d : Line) : State :=
  match s.freeTx q.dst with
  | none => { s with net := s.net ++ [q] }
  | some t =>
  let ep := eEpoch (s.entry (frameOf q.addr))
  let s1 := { s with fwds := Map.set none s.fwds (txKey q.dst t) (some ({ q with repoch := ep }, ph)) }
  s1.request { op := op, src := q.dst, dst := portAgt p, txid := 0, addr := q.addr, data := d, mask := q.mask, detail := ph % 16,
               poison := decide (q.op ≠ .HAtom) && q.poison, side := s.stamp4 q.side 2, repoch := ep }

/-! ## Writing a line of a frame -/

/-- Whether the bytes of a home write stand in the coherent line already: those of a write-back, and of a write that its
slice has performed. -/
def inLine (q : Pkt) : Bool := decide (q.op = .HPut) || q.dirty

/-- The bytes of a home write performed on the coherent line (R146, R115). -/
def State.homeBytes (s : State) (q : Pkt) : State :=
  let s1 := if inLine q then s else s.devWrite q.line q (isFull q)
  if q.poison && !(inLine q) then s1.markPoison q.line else if q.poison then s1.framePoison (frameOf q.addr) else s1

/-- Whether the copier of a migration has read a line already, in this pass or an earlier one (R57). -/
def Mig.hasRead (m : Mig) (ln : Nat) : Bool :=
  match m.todo with
  | none => decide (ln < m.pos)
  | some ls => !((ls.drop m.pos).contains ln)

/-- How many lines the running pass of a migration reads. -/
def Mig.passLen (m : Mig) : Nat := match m.todo with | none => 32768 | some ls => ls.length

/-- The copier of a frame's migration has gone on: how far is free, but it never goes back (R57). -/
def State.copierOn (s : State) (f : Nat) : State :=
  match s.migOf f with
  | some m => (s.modHome (f % 12) (fun x => { x with migs := x.migs.map (fun y =>
      if y.frame = f then { y with pos := max y.pos (s.draw (y.passLen + 1)) } else y) })).bump
  | none => s

/-- A change of a line performed at the old place of its migrating frame: its dirty bit, unless the copier is still to read the
line (R57); in MIRROR both places have it (Table 2.12). -/
def State.migDirty (s0 : State) (h : Nat) (q : Pkt) : State :=
  let f := frameOf q.addr
  let s := s0.copierOn f
  s.modHome h (fun x => { x with migs := x.migs.map (fun m =>
    if m.frame = f ∧ (m.st = .copy ∨ m.st = .recopy ∨ m.st = .switch) ∧ m.hasRead (q.line % 32768) = true ∧
        m.dirty.contains (q.line % 32768) = false then
      { m with dirty := m.dirty ++ [q.line % 32768] } else m) })

/-- The dirty bit of a line whose place may hold either of two values (Table 2.12, ATOMIC_UNKNOWN). -/
def State.migUnsure (s : State) (h : Nat) (q : Pkt) : State :=
  s.modHome h (fun x => { x with migs := x.migs.map (fun m =>
    if m.frame = frameOf q.addr ∧ m.st ≠ .drain ∧ m.dirty.contains (q.line % 32768) = false then
      { m with dirty := m.dirty ++ [q.line % 32768] } else m) })

/-- The far port of a destination in MIRROR, to which every write goes too (Table 2.12). -/
def State.migPorts (s : State) (q : Pkt) : List Nat :=
  match s.migOf (frameOf q.addr) with
  | some m => if m.st = .mirror ∧ m.dest.kind = 2 then [m.dest.port] else []
  | none => []

/-- A write performed at the near destination of a migration in MIRROR (Table 2.12). -/
def State.migNear (s : State) (q : Pkt) : State :=
  match s.migOf (frameOf q.addr) with
  | some m =>
    if m.st = .mirror ∧ m.dest.kind = 1 then
      s.dramWrite (s.hostCh (homeOf q.addr)) m.dest.loc (q.line % 32768) (s.poisoned q.line)
    else s
  | none => s

/-- The whole line sent to the ports of a list, as parts of a joined write. -/
def State.toMirrors (s : State) (q : Pkt) : List Nat → State
  | [] => s
  | p :: ps => State.toMirrors (s.toPort q .PWrF p 4 (s.rdLine q.line)) q ps

/-- A write sent to every copy of a far frame, the destination of a migration in MIRROR among them; with more than one
copy the answers are joined (R110, Table 2.12). -/
def State.toPorts (s0 : State) (q : Pkt) (op : Op) (p : Nat) (d : Line) : State :=
  let s := s0.migNear q
  let ms := s.migPorts q
  match s.wrPorts p with
  | [a, b] =>
    let s1 := { s with joins := Map.set 0 s.joins (txKey q.src q.txid) (2 + ms.length) }
    ((s1.toPort q op a 4 d).toPort q op b 4 d).toMirrors q ms
  | _ =>
    if ms.isEmpty then s.toPort q op (s.rdPort p) 0 d
    else
      let s1 := { s with joins := Map.set 0 s.joins (txKey q.src q.txid) (1 + ms.length) }
      (s1.toPort q op (s.rdPort p) 4 d).toMirrors q ms

/-- A write performed where its line lies ends, unless a far destination in MIRROR must still take it. -/
def State.nearOk (s0 : State) (q : Pkt) : State :=
  let s := s0.migNear q
  let ms := s.migPorts q
  if ms.isEmpty then s.homeOk q
  else { s with joins := Map.set 0 s.joins (txKey q.src q.txid) (4 + ms.length) }.toMirrors q ms

/-- An atomic performed on its line; the request then carries the old value (R126). -/
def State.atomAt (s : State) (q : Pkt) : State × Pkt :=
  let (s1, old) := s.doAtomic q.line q
  (s1, { q with data := BitVec.ofNat 512 old, poison := s.poisoned q.line })

/-- A write or an atomic performed on its line. -/
def State.perform (s : State) (q : Pkt) : State × Pkt := if q.op = .HAtom then s.atomAt q else (s.homeBytes q, q)

/-! ## The spill-wait queue and landing (R70, R72) -/

/-- The home functions that a channel's home agent hosts. -/
def State.hosted (s : State) (ch : Nat) : List Nat := (List.range 12).filter (fun h => decide (s.hostCh h = ch))

/-- The held write of a line. -/
def State.spillOf (s : State) (h line : Nat) : Option Spill :=
  (s.home h).spill.find? (fun x => decide (x.pkt.line = line))

/-- The conversion to RAW of a block. -/
def State.convOf (s : State) (f b : Nat) : Option Conv := (s.home (f % 12)).convs.find? (fun c => decide (c.blk = blkKey f b))

/-- A block's copy in RAW is written to 8 new sectors (R62): the conversion begins. -/
def State.convBegin (s : State) (h : Nat) (q : Pkt) (p sec : Nat) (done : Bool) (more : List Pkt) : State :=
  (s.modHome h (fun x => { x with convs := x.convs ++
    [{ blk := blkKey (frameOf q.addr) (q.line / 64 % 512), port := p, sec := sec, pkt := q, done := done, more := more, held := [] }] })).toPort
      q .PWrF (s.rdPort p) 8 (s.rdLine q.line)

/-- A ZERO frame takes a directory page with every block ZERO, on a port with room for the block too where there is one
(R62). -/
def State.dirBegin (s : State) (h f : Nat) : Option State :=
  let ps := s.layout.farPorts.filter (fun p => s.portUsable p && (s.allocSec h p 8 true).isSome)
  let both := ps.filter (fun p => match s.allocSec h p 8 true with
    | some (_, s1) => (s1.allocSec h p 8 false).isSome
    | none => false)
  let l := if both.isEmpty then ps else both
  match l[s.draw (max 1 l.length)]? with
  | some p => (s.bump.allocSec h p 8 true).map (fun r =>
      r.2.account f (fun s => s.setEntry f (eMove (s.entry f) { kind := 3, port := p, loc := r.1 / 8 })))
  | none => none

/-- A write that needs a block RAW (R62): a ZERO frame first takes a directory page; a ZERO or CHIVE block is stored RAW in 8
new sectors of its frame's port; a block that has been made RAW, has landed or has moved since is written where it lies. False
where no space results, or an evacuation has closed the port (R76), or the block is being converted. `done` says that the
bytes stand in the line already, and `more` are the writes merged into it. -/
def State.rawTry (s : State) (h : Nat) (q : Pkt) (done : Bool) (more : List Pkt) : Bool × State :=
  let f := frameOf q.addr
  let b := q.line / 64 % 512
  let here (s : State) : Bool × State :=
    let (s1, q1) := if done then (s, q) else s.perform q
    let s2 := s1.migDirty h q
    let k := eKind (s.entry f)
    (true, more.foldl (fun (s : State) x => s.homeOk x)
      (if k = 1 then (s2.dramWrite (s.hostCh h) (eLoc (s.entry f)) (q.line % 32768) (s1.poisoned q.line)).nearOk q1
       else if k = 2 ∨ (k = 3 ∧ dKind (s.dirEnt f b) = 2) then s2.toPorts q1 .PWrF (ePort (s.entry f)) (s1.rdLine q.line)
       else s2.nearOk q1))
  let block (s : State) : Bool × State :=
    match (if s.portUsable (ePort (s.entry f)) then s.allocSec h (ePort (s.entry f)) 8 false else none) with
    | some (sec, s1) => (true, s1.convBegin h q (ePort (s.entry f)) sec done more)
    | none => (false, s)
  if (s.convOf f b).isSome then (false, s)
  else match eKind (s.entry f) with
    | 4 => match s.dirBegin h f with
      | some s1 => block s1
      | none => (false, s)
    | 3 => if 2 ≤ dKind (s.dirEnt f b) then here s else block s
    | 5 => if dKind (s.dirEnt f b) = 3 then here s else (false, s)
    | _ => here s

/-- A held write lands (R70): the block is stored RAW in a landing slot, with the directory page of a ZERO frame in
another. None when the share has no free slot. -/
def State.landTry (s : State) (h : Nat) (q : Pkt) : Option State :=
  let f := frameOf q.addr
  let b := q.line / 64 % 512
  let block (s : State) : Option State :=
    match s.freeSlot h with
    | some i =>
      let old := s.dirEnt f b
      let p := ePort (s.entry f)
      some (((s.setSlot h i true).account f (fun s => s.setDirEnt f b (mkDirEnt 3 0 i))).freeBlocks h p
        (if dKind old = 3 then [] else [(b, old)]))
    | none => none
  if (s.convOf f b).isSome then none
  else if eKind (s.entry f) = 4 then
    match s.freeSlot h with
    | some i =>
      block ((s.setSlot h i true).account f (fun s => s.setEntry f (eMove (s.entry f) { kind := 5, port := 0, loc := i })))
    | none => none
  else if dKind (s.dirEnt f b) = 3 then some s
  else block s

/-- A held write leaves the queue: it and the writes merged into it end. -/
def State.spillEnd (s : State) (x : Spill) : State := (x.pkt :: x.more).foldl (fun (s : State) q => s.homeOk q) s

/-- The LANDING record of an epoch, at its first landing (R70). -/
def State.noteLanded (s : State) (h : Nat) : State :=
  let s1 := if s.homes.any (fun e => e.2.landed) then s else s.postState 4
  (s1.modHome h (fun x => { x with landed := true })).homeEv h 0xE

/-- A held write lands, or its home function stalls (R72). -/
def State.landOne (s : State) (h : Nat) (x : Spill) : State :=
  match s.landTry h x.pkt with
  | some s1 => ((s1.modHome h (fun y => { y with spill := takeOut x y.spill })).spillEnd x).noteLanded h
  | none =>
    if (s.home h).stalled ∨ (s.freeSlot h).isSome = true then s
    else
      let any := s.homes.any (fun e => e.2.stalled)
      let s1 := s.modHome h (fun y => { y with stalled := true })
      (if any then s1 else s1.putFlag capStatA 3 true).postState 5

/-- Whether a posted revocation's deadline has passed (R70): one that is held internally is not posted. -/
def State.revLate (s : State) : Bool :=
  s.coord.revs.any (fun r => decide (r.1.time ≤ s.ctime.toNat) && !s.coord.held.contains r.1)

/-- Frames whose entry satisfies a test: the base frames in ascending order, then those above them. -/
def State.framesWhere (s : State) (p : Nat → Word → Bool) : List Nat :=
  (List.range s.layout.base).filter (fun f => p f (s.entry f)) ++
    ((s.remap.filter (fun e => decide (s.layout.base ≤ e.1) && p e.1 e.2)).map (fun e => e.1))

/-- The hottest plain FAR frame of a home function that R70 may promote. -/
def State.hottestFar (s : State) (h : Nat) : Option Nat :=
  let fs := s.framesWhere (fun f en =>
    decide (f % 12 = h ∧ eKind en = 2 ∧ eWeight en ≠ 2) && !(ePin en && decide (ePinT en = 1)) && !eMig en)
  fs.foldl (fun (b : Option Nat) f => match b with
    | none => some f
    | some g => if eHeat (s.entry g) < eHeat (s.entry f) then some f else b) none

/-- A home function in need of far space promotes a FAR frame to a free near frame of its channel, one at a time (R70). -/
def State.makeRoom (s : State) (h : Nat) : State :=
  let x := s.home h
  let one := x.acts.any (fun a => !a.auto && a.cmd.isNone && decide (a.dest = 0)) ||
    x.migs.any (fun m => decide (m.src.kind = 2 ∧ m.dest.kind = 1))
  if x.spill.isEmpty = false ∧ one = false ∧ s.fld freeFarA 27 0 = 0 ∧ (s.freeNear h).isSome = true then
    match s.hottestFar h with
    | some f => s.modHome h (fun x => { x with acts := x.acts ++ [{ frame := f, dest := 0, port := none, auto := false, cmd := none }] })
    | none => s
  else s

/-- A write that needs new far space (R70): it takes it; else its bytes are held in the spill-wait queue, from which it lands at
once when a posted revocation's deadline has passed. -/
def State.needSpace (s : State) (h : Nat) (q : Pkt) : State :=
  match s.rawTry h q false [] with
  | (true, s1) => s1
  | (false, s0) =>
    let (s1, q1) := s0.perform q
    let x : Spill := { pkt := q1, more := [], deadline := s.ctime.toNat + s.fld elrCtlA 16 0 * 1000 }
    let s2 := ((s1.migDirty h q).modHome h (fun y => { y with spill := y.spill ++ [x] })).makeRoom h
    if s2.revLate then s2.landOne h x else s2

/-- A held write takes the space that has appeared; with none it lands when its time has come. -/
def State.spillOne (s : State) (h : Nat) (x : Spill) : State :=
  match s.rawTry h x.pkt true x.more with
  | (true, s1) => s1.modHome h (fun y => { y with spill := takeOut x y.spill })
  | (false, s1) => if s1.revLate || decide (x.deadline ≤ s1.ctime.toNat) || (s1.home h).stalled then s1.landOne h x else s1

/-- A home function's held writes take the space that has appeared, in order; a stall ends with a RESUME record. -/
def State.spillRetry (s : State) (h : Nat) : State :=
  let s1 := (s.home h).spill.foldl (fun (s : State) x => s.spillOne h x) s
  let s2 := if (s1.home h).stalled && decide ((s1.home h).spill.length < (s.home h).spill.length) then
      (s1.modHome h (fun y => { y with stalled := false })).postState 6
    else s1
  s2.makeRoom h

/-- Every home function's held writes tried again. -/
def State.spillAll (s : State) : State := (List.range 12).foldl (fun (s : State) h => s.spillRetry h) s

/-! ## Requests (R36, R61, R62, R91, R126, Table 2.12) -/

/-- The data that a home write leaves in its line. -/
def State.homeLine (s : State) (q : Pkt) : Line := if inLine q then s.rdLine q.line else q.data

/-- A request for a line of a frame in near memory. -/
def State.homeNear (s : State) (h : Nat) (q : Pkt) : State :=
  let ch := s.hostCh h
  let bk := s.nearBk h
  let cf := eLoc (s.entry (frameOf q.addr)) + (if bk = ch then 0 else s.layout.nearHi.getD bk 0 - s.layout.nearLo.getD bk 0)
  let ln := q.line % 32768
  let s0 := (s.homeEv h 5).resilverOn ch
  match q.op with
  | .HRd => s0.modNch ch (fun n => { n with reads := n.reads ++ [({ q with repoch := eEpoch (s.entry (frameOf q.addr)) }, cf, ln)] })
  | .HAtom =>
    let s1 := s0.forceLine ch cf ln
    let (s2, q1) := s1.atomAt q
    ((s2.dramWrite ch cf ln (s1.poisoned q.line)).migDirty h q).nearOk q1
  | .HWrP => ((s0.nearNarrow ch cf ln q.line (s.homeLine q) q.mask q.poison).migDirty h q).nearOk q
  | _ => ((s0.nearFull ch cf ln q.line (s.homeLine q) q.poison).migDirty h q).nearOk q

/-- A request for a line of a plain far frame, or of a RAW block. An atomic on a mirrored pair, or in MIRROR, is a read and then a
write of the result to every copy (R110, Table 2.12). -/
def State.homeFar (s : State) (h p : Nat) (q : Pkt) : State :=
  let s0 := s.homeEv h 6
  let mir := match s.migOf (frameOf q.addr) with
    | some m => decide (m.st = .mirror)
    | none => false
  match q.op with
  | .HRd => s0.toPort q .PRd (s.rdPort p) 0 0
  | .HAtom => if decide (s.mirSt p = 1) || mir then s0.toPort q .PRd (s.rdPort p) 5 0 else s0.toPort q .PAtom (s.rdPort p) 0 q.data
  | .HWrP => (s0.homeBytes q).toPorts q .PWrP p (s.homeLine q)
  | _ => (s0.homeBytes q).toPorts q .PWrF p (s.homeLine q)

/-- A key becomes the most recent of a cache of n. -/
def lruTouch (n k : Nat) (l : List Nat) : List Nat := (k :: l.filter (fun x => decide (x ≠ k))).take n

/-- A block's header, or a directory line, enters the home agent's cache of 256 headers or 4,096 directory lines (R61). -/
def State.hdrIn (s : State) (h k : Nat) : State := s.modHagt (s.hostCh h) (fun x => { x with hdrs := lruTouch 256 k x.hdrs })
def State.dirIn (s : State) (h k : Nat) : State := s.modHagt (s.hostCh h) (fun x => { x with dirs := lruTouch 4096 k x.dirs })

/-- A request for a line of a compressed frame, by its block's BKIND (R61, R62); a directory line that is not cached is read
first. Requests for a block that is being stored RAW wait. -/
def State.homeComp (s : State) (h : Nat) (q : Pkt) : State :=
  let f := frameOf q.addr
  let b := q.line / 64 % 512
  let en := s.entry f
  let k := dKind (s.dirEnt f b)
  let p := ePort en
  let a := s.hagt (s.hostCh h)
  match s.convOf f b with
  | some c => s.modHome h (fun x => { x with convs := x.convs.map (fun y => if y = c then { y with held := y.held ++ [q] } else y) })
  | none =>
    if decide (eKind en = 3) && !a.dirs.contains (dirLine f b) then s.toPort q .PRd (s.rdPort p) 7 0
    else
      let s0 := if eKind en = 3 then s.dirIn h (dirLine f b) else s
      if k = 2 then s0.homeFar h p q
      else if k = 3 then
        match q.op with
        | .HRd => s0.homeData q
        | _ =>
          let (s1, q1) := s0.perform q
          (s1.migDirty h q).nearOk q1
      else if k = 0 then
        match q.op with
        | .HRd => s0.homeData q
        | _ => s0.needSpace h q
      else
        match q.op with
        | .HRd =>
          if a.hdrs.contains (blkKey f b) then (((s0.hdrIn h (blkKey f b)).homeEv h 7)).toPort q .PRd (s.rdPort p) 1 0
          else ((s0.homeEv h 7).homeEv h 8).toPort q .PRd (s.rdPort p) 6 0
        | _ => s0.toPort q .PRd (s.rdPort p) 2 0

/-- A request for a frame that is not in SWITCH, by KIND. -/
def State.homeAct (s : State) (h : Nat) (q : Pkt) : State :=
  let f := frameOf q.addr
  let en := s.entry f
  match s.spillOf h q.line with
  | some x =>
    match q.op with
    | .HRd => s.homeData q
    | .HAtom =>
      let (s1, old) := s.doAtomic q.line q
      s1.homeEnd q 0 0 (BitVec.ofNat 512 old) (s.poisoned q.line)
    | _ =>
      (s.homeBytes q).modHome h (fun y => { y with spill := y.spill.map (fun z =>
        if z = x then { z with more := z.more ++ [q] } else z) })
  | none =>
    if s.farLost f then (if q.op = .HRd then s.homeData q else s.homeEnd q 5 0 0 false)
    else match eKind en with
    | 0 => (if q.op = .HRd ∧ q.detail = 1 then s else s.hlog h 1 f (whoOf q)).homeEnd q 1 0 0 false
    | 1 => s.homeNear h q
    | 2 => s.homeFar h (ePort en) q
    | 4 =>
      match q.op with
      | .HRd => s.homeData q
      | _ => s.homeComp h q
    | _ => s.homeComp h q

/-- A request that has its remap entry: held during SWITCH (R58), else served. -/
def State.homeGo (s : State) (h : Nat) (q : Pkt) : State :=
  let f := frameOf q.addr
  match s.migOf f with
  | some m =>
    if m.st = .switch then
      s.modHome h (fun x => { x with migs := x.migs.map (fun y => if y.frame = f then { y with holdq := y.holdq ++ [q] } else y) })
    else s.homeAct h q
  | none => s.homeAct h q

/-- A request taken by a home agent: heat, the remap cache, then its service. -/
def State.homeTake (s : State) (h : Nat) (q : Pkt) : State :=
  let f := frameOf q.addr
  let ev := if q.op = .HRd then 1 else if q.op = .HAtom then 3 else 2
  let s1 := (s.homeEv h ev).heat h f
  if (s1.home h).rwait.any (fun p => decide (frameOf p.addr = f)) then
    s1.modHome h (fun x => { x with rwait := x.rwait ++ [q] })
  else if s1.rhit f then (s1.rtouch f).homeGo h q
  else (s1.homeEv h 4).modHome h (fun x => { x with rwait := x.rwait ++ [q] })

/-- Whether the home agent of a home function stops taking request packets: its 256-entry spill-wait queue, or the hold queue
of a migration of a function that it hosts, is full (R58, R72). -/
def State.homeFull (s : State) (h : Nat) : Bool :=
  let hs := s.hosted (s.hostCh h)
  decide (256 ≤ (hs.map (fun g => (s.home g).spill.length)).sum) ||
    hs.any (fun g => (s.home g).migs.any (fun m => decide (64 ≤ m.holdq.length)))

/-- A level-1 request arrives: forwarded under an old home map (R77), answered DOMAIN_OFFLINE by a fenced home function
(R443), waiting while the home agent takes no request, else taken by f. -/
def State.homeReqBy (s : State) (q : Pkt) (f : State → Nat → State) : State :=
  let h := homeOf q.addr
  let agt := s.homeAgt q.addr
  if s.proxied q.dst || s.fenced q.dst then s.deliver q id
  else if q.dst ≠ agt then if s.behind q then s else (s.take q).injectAt q.dst { q with dst := agt }
  else if s.homeFull h then s
  else s.deliver q (fun s => if (s.home h).fenced then s.answer q 3 else f s h)
/-- A read, write or atomic that arrives at a home agent. -/
def State.homeReq (s : State) (q : Pkt) : State := s.homeReqBy q (fun s h => s.homeTake h q)

/-- HRD: a read arrives at a home agent. -/
def execHrd (p : Pkt) (s : State) : Out := .next (s.homeReq { p with op := .HRd })
/-- HWRF: a full-line write arrives at a home agent. -/
def execHwrf (p : Pkt) (s : State) : Out := .next (s.homeReq { p with op := .HWrF })
/-- HWRP: a partial write arrives at a home agent. -/
def execHwrp (p : Pkt) (s : State) : Out := .next (s.homeReq { p with op := .HWrP })
/-- HATOM: an atomic arrives at a home agent. -/
def execHatom (p : Pkt) (s : State) : Out := .next (s.homeReq { p with op := .HAtom })

/-- HPUT: an eviction of a slice arrives; the home agent accepts it with WbGo (R125). -/
def execHput (p : Pkt) (s : State) : Out :=
  let q : Pkt := { p with op := .HPut }
  .next (s.homeReqBy q (fun s _ => s.inject { op := .WbGo, src := q.dst, dst := q.src, txid := q.txid, addr := q.addr }))

/-- Eviction data at a home agent: a full-line write (R62, Table 2.12), which WbAck ends. -/
def State.homeWbData (s : State) (q : Pkt) : State := s.homeTake (homeOf q.addr) { q with op := .HPut }

/-! ## Answers from ports -/

/-- A write that is not known to have been performed: its bytes are free, unless a cache holds the line (R312, R316), and it is
logged as lost (R110). -/
def State.lostWrite (s : State) (q : Pkt) : State :=
  let s1 := if s.cached q.line && inLine q then s
    else if isFull q ∨ q.op = .HAtom then s.wrLine q.line (Config.freeLine s.free)
    else s.wrCells (maskCells q.line (Config.freeLine s.free) q.mask)
  (s1.bump).hlog (homeOf q.addr) 4 (frameOf q.addr) (whoOf q)

/-- Every line of a block that no cache holds taken as poisoned (R62). -/
def State.poisonBlock (s : State) (f b : Nat) : State :=
  ((List.range 64).foldl (fun (s : State) i =>
    let sl := 32768 * f + 64 * b + i
    if s.cached sl then s else s.setPoison sl true) s).framePoison f

/-- The bytes of a line as they were decoded from its place, which no cache holds. -/
def State.lineFound (s : State) (sl : Nat) (bs : List Byte) : State :=
  if s.cached sl || decide (s.rdLine sl = BitVec.ofNat 512 (numOf bs)) then s else s.wrLine sl (BitVec.ofNat 512 (numOf bs))

/-- The image of a block of a frame, with the number of sectors that its directory entry gives. -/
def State.blockImage (s : State) (f b : Nat) : Nat × List Byte := (dNsec (s.dirEnt f b), Map.get [] s.images (blkKey f b))

/-- A line of a CHIVE block decoded by itself, with the checks of a single-line read (R45). -/
def chiveOne (nsec : Nat) (img : List Byte) (j : Nat) : Option (List Byte) :=
  match chiveHead nsec img with
  | none => none
  | some x => chiveLines x j 1

/-- A port's answer for a line of a CHIVE block: the line is decoded; an invalid block gives poisoned data and CHIVE_ERROR (R45,
R61). -/
def State.lineRead (s : State) (h : Nat) (r q : Pkt) : State :=
  let f := frameOf r.addr
  let b := r.line / 64 % 512
  let (n, img) := s.blockImage f b
  if q.status ≠ 0 then s.homeEnd r q.status q.detail q.data q.poison
  else match (if q.poison then none else chiveOne n img (r.line % 64)) with
    | some bs =>
      let s1 := s.lineFound r.line bs
      s1.homeEnd r 0 0 (s1.rdLine r.line) false
    | none => (s.hlog h 2 f b).homeEnd r 0 0 q.data true

/-- A whole block read before it is stored RAW: it is decoded with every check, BCRC included; an invalid one is poisoned in
every line (R45, R62). -/
def State.blockFound (s : State) (h f b : Nat) (poison : Bool) : State :=
  let (n, img) := s.blockImage f b
  match (if poison then (1, []) else chiveDecode n img) with
  | (0, bs) => (List.range 64).foldl (fun (s : State) i => s.lineFound (32768 * f + 64 * b + i) ((bs.drop (64 * i)).take 64)) s
  | _ => (s.hlog h 2 f b).poisonBlock f b

/-- The RAW copy of a block has been written: its directory entry says so, its old sectors are free, the write ends, and the
requests that waited go on. A copy that could not be written frees the new sectors and leaves the frame unchanged; the write
ends with the status, and one whose bytes stood in memory already is lost (R62, R110). -/
def State.convEnd (s : State) (h : Nat) (c : Conv) (status detail : Nat) : State :=
  let f := c.blk / 512
  let b := c.blk % 512
  let s0 := s.modHome h (fun x => { x with convs := takeOut c x.convs })
  let s1 :=
    if status = 0 then
      let old := s0.dirEnt f b
      let sa := (s0.account f (fun s => s.setDirEnt f b (mkDirEnt 2 8 c.sec))).freeBlocks h c.port [(b, old)]
      let (sb, q1) := if c.done then (sa, c.pkt) else sa.perform c.pkt
      c.more.foldl (fun (s : State) q => s.homeOk q) (((if c.done then sb else sb.migDirty h c.pkt)).nearOk q1)
    else
      let sa := s0.freeSec c.port c.sec 8
      if c.done then
        (c.pkt :: c.more).foldl (fun (s : State) q => (s.lostWrite q).homeEnd q status detail 0 false) sa
      else sa.homeEnd c.pkt status detail c.pkt.data (decide (c.pkt.op = .HAtom))
  (c.held.foldl (fun (s : State) q => s.homeGo h q) s1).spillAll

/-- One copy of a joined write answered (R110): a timeout of one half of a pair leaves the other alone; the last answer ends the
write, OK where a copy took it. -/
def State.joinAns (s : State) (h p : Nat) (r q : Pkt) : State :=
  let jk := txKey r.src r.txid
  let j := Map.get 0 s.joins jk
  let bad := decide (q.status ≠ 0)
  let s1 := if decide (q.status = 4) && decide (s.mirSt p = 1) then
      (s.putFld (portBase p + 0x7000 + 8 * (p % 4)) 1 0 0).putFld (portBase (p ^^^ 1) + 0x7000 + 8 * ((p ^^^ 1) % 4)) 1 0 2
    else s
  let j1 := j - 1 + (if bad then 0 else 4)
  if j1 % 4 = 0 then
    let s2 := { s1 with joins := Map.set 0 s1.joins jk 0 }
    if 4 ≤ j1 then (s2.migDirty h r).homeOk r
    else if r.op = .HAtom then (((s2.lostWrite r).migUnsure h r).hlog h 5 (frameOf r.addr) (whoOf r)).homeEnd r 6 0 r.data true
    else (s2.lostWrite r).homeEnd r q.status q.detail 0 false
  else { s1 with joins := Map.set 0 s1.joins jk j1 }

/-- A port's answer to a request itself: the read or the atomic ends with it; a write is performed or lost. -/
def State.selfAns (s : State) (h : Nat) (r q : Pkt) : State :=
  if isWrite r then
    if q.status ≠ 0 then (s.lostWrite r).homeEnd r q.status q.detail 0 false
    else (if (s.migPorts r).isEmpty then s.migDirty h r else s.migUnsure h r).homeOk r
  else
    let s1 := if q.status = 6 then (s.hlog h 5 (frameOf r.addr) (whoOf r)).migUnsure h r
      else if r.op = .HAtom ∧ q.status = 0 then
        (match s.migOf (frameOf r.addr) with
          | some m => if m.st = .mirror then s.migUnsure h r else s.migDirty h r
          | none => s)
      else s
    s1.homeEnd r q.status q.detail q.data q.poison

/-- A port's answer at a home agent (R61, R62, R107, R110). On poison or an error from the read port of a pair the partner is
read, and what it gives repairs the failed copy. -/
def State.portAns (s0 : State) (q0 : Pkt) : State :=
  let key := txKey q0.dst q0.txid
  match Map.get none s0.fwds key with
  | none => s0.endTx q0
  | some (r, ph) =>
    let s := { s0 with fwds := Map.set none s0.fwds key none }.endTx q0
    let h := homeOf r.addr
    let f := frameOf r.addr
    let b := r.line / 64 % 512
    let p := agtPort q0.src
    let k := ph % 16
    let bad := decide (q0.status ≠ 0) || q0.poison
    let reads := decide (k = 1 ∨ k = 2 ∨ k = 5 ∨ k = 6 ∨ k = 7) || (decide (k = 0) && decide (r.op = .HRd))
    if reads && bad && decide (ph < 16) && decide (s.mirSt p = 1) then s.toPort r .PRd (p ^^^ 1) (k + 16) 0
    else
      let fixed := reads && !bad && decide (16 ≤ ph)
      let s1 := if fixed && decide (s.mirSt (p ^^^ 1) = 1) then
          (s.hlog h 6 f (p ^^^ 1)).toPort { r with op := .HWrF } .PWrF (p ^^^ 1) 9 (s.rdLine r.line) else s
      let s2 := if fixed && decide (k = 0 ∨ k = 5) then s1.setPoison r.line false else s1
      match k with
      | 4 => s2.joinAns h p r q0
      | 5 =>
        if q0.status ≠ 0 then
          (if q0.status = 4 then (s2.hlog h 5 f (whoOf r)).migUnsure h r else s2).homeEnd r (if q0.status = 4 then 6 else q0.status) q0.detail q0.data true
        else if q0.poison then s2.homeEnd r 0 q0.detail q0.data true
        else
          let (s3, r1) := s2.atomAt r
          s3.toPorts r1 .PWrF (ePort (s3.entry f)) (s3.rdLine r.line)
      | 2 => if q0.status ≠ 0 then s2.homeEnd r q0.status q0.detail q0.data true else (s2.blockFound h f b q0.poison).needSpace h r
      | 6 => if bad then s2.lineRead h r q0 else (s2.hdrIn h (blkKey f b)).toPort r .PRd (s2.rdPort (ePort (s2.entry f))) 1 0
      | 7 =>
        if q0.status ≠ 0 then s2.homeEnd r q0.status q0.detail q0.data q0.poison
        else if q0.poison then s2.homeEnd r (if r.op = .HRd then 0 else 5) q0.detail q0.data true
        else (s2.dirIn h (dirLine f b)).homeGo h r
      | 8 => match s2.convOf f b with
        | some c => s2.convEnd h c q0.status q0.detail
        | none => s2
      | 9 => s2
      | 1 => s2.lineRead h r q0
      | _ => s2.selfAns h r q0

end Sys2Proof.Machine
end

