-- ==== Sys2Proof/Machine/Cache.lean ====
section
/-! DEFINITION. Slices and L2s as agents of the mesh: the directory protocol by packets (04_caches_and_ordering.md, R120
to R128, Tables 4.3 and 4.4), evictions, locks (R129 to R131) and disables (R132 to R134). -/

namespace Sys2Proof.Machine
open Sys2Proof

/-! ## Directory -/

/-- A sharer added (R121): a fifth sharer changes to coarse mode. -/
def DirSt.add (d : DirSt) (r : Nat) : DirSt :=
  match d with
  | .U => .S [r]
  | .S l => if l.contains r then .S l
      else if l.length < 4 then .S (l ++ [r])
      else .SC (((r :: l).foldl (fun (g : BitVec 68) c => g ||| (1 <<< (c / 16))) 0))
  | .SC g => .SC (g ||| (1 <<< (r / 16)))
  | .X o => .S [o, r]

/-- Whether a core may be a sharer. -/
def DirSt.has (d : DirSt) (r : Nat) : Bool :=
  match d with
  | .S l => l.contains r
  | .SC g => g.getLsbD (r / 16)
  | .X o => decide (o = r)
  | .U => false

/-- A sharer removed: nothing changes in coarse mode. -/
def DirSt.drop (d : DirSt) (r : Nat) : DirSt :=
  match d with
  | .S l => if (l.filter (fun x => decide (x ≠ r))).isEmpty then .U else .S (l.filter (fun x => decide (x ≠ r)))
  | x => x

/-- Data sent to a request's source with a grant; the poison mark goes with it. -/
def State.giveData (s : State) (q : Pkt) (line grant : Nat) : State :=
  s.inject { s.fromSlice line .Data q.src q.txid with
    grant := grant, poison := s.poisoned line, data := s.rdLine line,
    side := sideLeg (sideSrc q.side (if q.side.getLsbD 152 then q.side.toNat / 2 % 16
      else if (s.dline line).lock then 14 else if q.src.router = (s.homeSlice line).router then 4 else 5)) 3 }

/-- A request of the slice to the home agent for a line, for a request it serves. -/
def State.toHome (s0 : State) (line : Nat) (op : Op) (q : Pkt) : State :=
  let s1 := s0.sliceEv (s0.sliceOf line) 3
  let s := if op = .HAtom then s1.sliceEv (s0.sliceOf line) 0xB else s1
  s.request { s.fromSlice line op (s.homeAgt (64 * line)) 0 with
    data := q.data, mask := q.mask, poison := q.poison, dirty := q.dirty, detail := q.detail, side := sideLeg q.side 1 }

/-- The transaction of a line begins or goes on to a phase. -/
def State.busy (s : State) (line : Nat) (q : Pkt) (ph : Phase) : State :=
  { s.modDir line (fun d => { d with busy := some (q, ph) }) with busyAt := Map.set 0 s.busyAt line s.ctime.toNat }

/-- Invalidations to cores, with their count as events. -/
def State.sendInvs (s0 : State) (line : Nat) (l : List Nat) (src : Agt) : State :=
  let t := s0.sliceOf line
  let s := match (s0.dline line).st with
    | .SC _ => (s0.sliceEvN t 5 l.length).sliceEv t 6
    | _ => s0.sliceEvN t 5 l.length
  s.injectAll (l.map (fun o => { s.fromSlice line .Inv (physAgt o) 0 with src := src }))

/-- What is left to do for a request once the copies it recalls are gone: Table 4.3 with "data as available". The
transaction ends here, or waits for the home agent. -/
def State.sliceServe (s : State) (line : Nat) (q : Pkt) : State :=
  let d := s.dline line
  let r := agtPhys q.src
  let free (s : State) : State := s.modDir line (fun d => { d with busy := none })
  let home (op : Op) : State := (s.toHome line op q).busy line q .home
  let cmp (s : State) : State := s.inject { s.fromSlice line .Cmp q.src q.txid with side := q.side }
  match q.op with
  | .RdS =>
    if d.way = .none then home .HRd
    else
      let grant := if q.ifetch ∨ d.st ≠ .U then 1 else 2
      free ((s.modDir line (fun d => { d with st := if grant = 2 then .X r else d.st.add r })).giveData q line grant)
  | .RdX | .Upg =>
    if q.op = .Upg ∧ d.st.has r = true then
      free ((s.modDir line (fun d => { d with st := .X r })).inject { s.fromSlice line .Grant q.src q.txid with grant := 3 })
    else if d.way = .none then home .HRd
    else free ((s.modDir line (fun d => { d with st := .X r })).giveData q line 3)
  | .RdZ =>
    free (((s.modDir line (fun d => { d with st := .X r })).capTags line).inject
      { s.fromSlice line .Grant q.src q.txid with grant := 3 })
  | .RdNC => if d.way = .none then home .HRd else free (s.giveData q line 0)
  | .WrF =>
    if d.way = .none then (s.modDir line (fun d => { d with st := .U }) |>.toHome line .HWrF q).busy line q .home
    else free (cmp (((s.devWrite line q true).modDir line (fun d => { d with st := .U })).setWay line .dirty))
  | .WrP =>
    if d.way = .none then (s.modDir line (fun d => { d with st := .U }) |>.toHome line .HWrP q).busy line q .home
    else free (cmp (((s.devWrite line q false).modDir line (fun d => { d with st := .U })).setWay line .dirty))
  | .FAtom =>
    if d.way = .none ∧ d.lock = false ∧ d.st = .U then (s.toHome line .HAtom q).busy line q .home
    else if d.way = .none then home .HRd
    else
      let (s1, old) := (s.sliceEv (s.sliceOf line) 0xA).doAtomic line q
      free ((((s1.modDir line (fun d => { d with st := .U })).setWay line .dirty).inject
        { s.fromSlice line .Data q.src q.txid with data := BitVec.ofNat 512 old, poison := s.poisoned line, side := q.side }))
  | .Flush =>
    if d.way = .dirty then (s.toHome line .HWrF { q with data := s.rdLine line, poison := s.poisoned line }).busy line q .home
    else free (cmp (s.modDir line (fun d => { d with st := .U, way := .none, wn := 0, lock := false })))
  | .Clean =>
    if d.way = .dirty then (s.toHome line .HWrF { q with data := s.rdLine line, poison := s.poisoned line }).busy line q .home
    else free (cmp s)
  | _ => free s

/-- The snoop of an owner for a request (Table 4.3): SnpS for the rows that leave it in S, SnpX for the others; an owner
asked for a copy sends the data to the requester itself. -/
def snpOf (o : Op) : Op × Bool :=
  match o with
  | .RdS => (.SnpS, true)
  | .RdX | .Upg => (.SnpX, true)
  | .RdNC | .Clean => (.SnpS, false)
  | _ => (.SnpX, false)

/-- A Put of an L2 at the slice (Table 4.3). -/
def State.slicePut (s : State) (line : Nat) (q : Pkt) : State :=
  let d := s.dline line
  let r := agtPhys q.src
  let ans (s : State) (op : Op) : State := s.inject (s.fromSlice line op q.src q.txid)
  match q.op, d.st with
  | .PutS, .S _ => ans (ans (s.modDir line (fun d => { d with st := d.st.drop r })) .WbGo) .WbAck
  | .PutS, .SC _ => ans (ans s .WbGo) .WbAck
  | .PutE, .X o => if o = r then ans (ans (s.modDir line (fun d => { d with st := .U })) .WbGo) .WbAck else ans s .WbStale
  | .PutM, .X o => if o = r then (ans s .WbGo).busy line q .wbdata else ans s .WbStale
  | _, _ => ans s .WbStale

/-- The recall of copies, and the service when there is none. -/
def State.sliceGo (s : State) (t line : Nat) (q : Pkt) : State :=
  let d := s.dline line
  let r := agtPhys q.src
  let others := d.st.copies.filter (fun o => decide (o ≠ r))
  match q.op with
  | .PutS | .PutE | .PutM => s.slicePut line q
  | .RdS | .RdNC | .Clean =>
    match d.st with
    | .X o =>
      if o = r ∧ q.op = .RdS then s.giveData q line 2
      else
        let (op, direct) := snpOf q.op
        ((s.sliceEv t 4).injectAt (s.homeSlice line) { s.fromSlice line op (physAgt o) q.txid with src := if direct then q.src else s.homeSlice line }).busy
          line q .snoop
    | _ => s.sliceServe line q
  | .WrF =>
    if d.st.copies.isEmpty then s.sliceServe line q
    else (s.sendInvs line d.st.copies (s.homeSlice line)).busy line q (.acks d.st.copies.length)
  | _ =>
    match d.st with
    | .X o =>
      if o = r ∧ (q.op = .RdX ∨ q.op = .Upg ∨ q.op = .RdZ) then
        s.inject { s.fromSlice line .Grant q.src q.txid with grant := 3 }
      else
        let (op, direct) := snpOf q.op
        ((s.sliceEv t 4).injectAt (s.homeSlice line) { s.fromSlice line op (physAgt o) q.txid with src := if direct then q.src else s.homeSlice line }).busy
          line q .snoop
    | .U => s.sliceServe line q
    | _ =>
      let l := if q.op = .RdX ∨ q.op = .Upg ∨ q.op = .RdZ then others else d.st.copies
      if l.isEmpty then s.sliceServe line q
      else (s.sendInvs line l (s.homeSlice line)).busy line q (.acks l.length)

/-- A request starts at a slice that has nothing outstanding for its line: first its eviction buffer (Table 4.4), then
the copies to recall (Table 4.3), then the data. -/
def State.sliceStart (s : State) (line : Nat) (q : Pkt) : State :=
  let t := s.sliceOf line
  let d0 := s.dline line
  let s0 := if d0.evb.isSome then s.sliceEv t 7 else s
  let lateWait := q.op = .WrF ∨ q.op = .WrP ∨ q.op = .FAtom ∨ q.op = .Flush
  match d0.evb with
  | some true =>
    if lateWait then s0.modDir line (fun d => { d with held := d.held ++ [q] })
    else State.sliceGo (s0.fillClean line) t line q
  | some false =>
    State.sliceGo (((s0.modDir line (fun d => { d with evb := none })).setWay line .dirty).inject
      (s0.fromSlice line .PutCancel (s0.homeAgt (64 * line)) 0)) t line q
  | none => State.sliceGo s0 t line q

/-- When a transaction of a line ends, each held request starts when the one before it completes (R122). -/
def State.sliceNext : Nat → State → Nat → State
  | 0, s, _ => s
  | n + 1, s, line =>
    let d := s.dline line
    match d.busy, d.held with
    | none, q :: qs =>
      if d.evb = some true then s
      else State.sliceNext n ((s.setDline line { d with held := qs }).sliceStart line q) line
    | _, _ => s

/-- The held requests of a line started as far as they go. -/
def State.sliceDone (s : State) (line : Nat) : State := s.sliceNext ((s.dline line).held.length) line

/-- Requests that may leave data in a data way. -/
def fillsWay : Op → Bool
  | .RdS | .RdX | .Upg | .FAtom | .PutM => true
  | _ => false

/-- Lines with a transaction in progress at a slice (R122). A request held behind another of its line takes no tracker entry
(DESIGN CHOICE, log entry 117). -/
def State.trackers (s : State) (t : Nat) : Nat :=
  (s.dir.filter (fun e => e.2.busy.isSome && decide (s.sliceOf e.1 = t))).length

/-- A request of level 0 arrives at a slice: it is forwarded to the line's slice when this one no longer serves it
(R134), waits while the trackers are in use, no data way can be had for it, or the line is busy (R122), or starts. -/
def State.sliceReq (s : State) (q : Pkt) : State :=
  let line := q.line
  let t := s.sliceOf line
  if q.sliceT ≠ t then if s.behind q then s else (s.take q).injectAt q.dst { q with dst := sliceAgt t }
  else if 256 ≤ s.trackers t ∨ (fillsWay q.op = true ∧ s.hasRoom line = false) then s
  else s.deliver q (fun s =>
    let d := s.dline line
    let s1 := s.sliceEv t 1
    let s2 := if d.way ≠ .none then s1.sliceEv t (if d.lock then 9 else 2) else s1
    if d.busy.isSome ∨ ¬ d.held.isEmpty then (s2.sliceEv t 0xD).modDir line (fun d => { d with held := d.held ++ [q] })
    else (s2.sliceStart line q).sliceDone line)

/-- RDS: a read for a shared copy. -/
def execRds (p : Pkt) (s : State) : Out := .next (s.sliceReq { p with op := .RdS })
/-- RDX: a read for ownership. -/
def execRdx (p : Pkt) (s : State) : Out := .next (s.sliceReq { p with op := .RdX })
/-- UPG: an ownership request from a sharer. -/
def execUpg (p : Pkt) (s : State) : Out := .next (s.sliceReq { p with op := .Upg })
/-- RDZ: ownership without data. -/
def execRdz (p : Pkt) (s : State) : Out := .next (s.sliceReq { p with op := .RdZ })
/-- RDNC: a device read. -/
def execRdnc (p : Pkt) (s : State) : Out := .next (s.sliceReq { p with op := .RdNC })
/-- WRF: a device full-line write. -/
def execWrf (p : Pkt) (s : State) : Out := .next (s.sliceReq { p with op := .WrF })
/-- WRP: a device partial write. -/
def execWrp (p : Pkt) (s : State) : Out := .next (s.sliceReq { p with op := .WrP })
/-- FATOM: a far atomic. -/
def execFatom (p : Pkt) (s : State) : Out := .next (s.sliceReq { p with op := .FAtom })
/-- FLUSH: the Flush row. -/
def execFlush (p : Pkt) (s : State) : Out := .next (s.sliceReq { p with op := .Flush })
/-- CLEAN: the Clean row. -/
def execClean (p : Pkt) (s : State) : Out := .next (s.sliceReq { p with op := .Clean })
/-- PUTS: an eviction of a line in S. -/
def execPuts (p : Pkt) (s : State) : Out := .next (s.sliceReq { p with op := .PutS })
/-- PUTE: an eviction of a line in E. -/
def execPute (p : Pkt) (s : State) : Out := .next (s.sliceReq { p with op := .PutE })
/-- PUTM: an eviction of a line in M. -/
def execPutm (p : Pkt) (s : State) : Out := .next (s.sliceReq { p with op := .PutM })

/-! ## Snoops at an L2 (Tables 4.3, 4.4, R124, R142) -/

/-- Whether a snoop must wait at an L2: a grant for the line is in flight (R124), or a load-linked holds it (R142). -/
def State.snpWaits (s : State) (p : Nat) (line : Nat) : Bool :=
  s.inMesh (fun q => decide (q.dst = physAgt p) && decide (q.line = line) && (decide (q.op = .Data) || decide (q.op = .Grant))) ||
    (let k := s.core (s.runsOn p)
     k.hold.isSome && decide (k.resv = some line))

/-- SnpS and SnpX at an L2: answered from the cache or from the eviction buffer, whose entry goes stale. A requester
named as source gets the data from here; the slice gets SnpData when the L2 had the line, else SnpRsp with GRANT I. -/
def State.snoop (s : State) (q : Pkt) (keep : Bool) : State :=
  let p := agtPhys q.dst
  let line := q.line
  if s.proxied q.dst then s.deliver q id
  else if s.snpWaits p line then s
  else s.deliver q (fun s =>
    let x := s.l2line p line
    let had := decide (x.st ≠ .I) || x.evb.any (fun e => !e.2.2)
    let dirty := decide (x.st = .M) || x.evb.any (fun e => !e.2.2 && decide (e.1 = .M))
    let s1 := if keep ∧ x.st ≠ .I then s.setL2 p line { x with st := .S } else s.loseLine p line
    let me := q.dst
    let sl := s.homeSlice line
    if had then
      let toReq : List Pkt := if q.src = sl then [] else
        [{ op := .Data, src := me, dst := q.src, txid := q.txid, addr := 64 * line, grant := if keep then 1 else 3,
           dirty := dirty, poison := s.poisoned line, data := s.rdLine line, side := sideLeg (sideSrc q.side (if dirty then 7 else 6)) 3 }]
      s1.injectAll (toReq ++ [{ op := .SnpData, src := me, dst := sl, txid := 0, addr := 64 * line, dirty := dirty,
                                grant := if keep ∧ x.st ≠ .I then 1 else 0,
                                data := s.rdLine line, poison := s.poisoned line }])
    else s1.inject { op := .SnpRsp, src := me, dst := sl, txid := 0, addr := 64 * line })

/-- SNPS. -/
def execSnps (p : Pkt) (s : State) : Out := .next (s.snoop { p with op := .SnpS } true)
/-- SNPX. -/
def execSnpx (p : Pkt) (s : State) : Out := .next (s.snoop { p with op := .SnpX } false)
/-- INV: the L2 acknowledges whether or not it held the line (R121). -/
def execInv (p : Pkt) (s : State) : Out :=
  let q : Pkt := { p with op := .Inv }
  let o := agtPhys q.dst
  .next (if !s.proxied q.dst && s.snpWaits o q.line then s
    else s.deliver q (fun s => (s.loseLine o q.line).inject
      { op := .InvAck, src := q.dst, dst := s.homeSlice q.line, txid := 0, addr := q.addr }))

/-! ## Snoop answers at the slice -/

/-- SnpData at a slice: the directory moves as the request's row says; dirty data enters the data way, except for
RdX and Upg, whose requester takes it over. An owner without a copy leaves what the data way holds, else poison (R442). -/
def State.snpDone (s : State) (q : Pkt) (had : Bool) : State :=
  let line := q.line
  let o := agtPhys q.src
  match (s.dline line).busy with
  | some (r, .snoop) =>
    let rp := agtPhys r.src
    let s0 := s.modDir line (fun d => { d with busy := none })
    if !had then
      let s1 := if (s0.dline line).way = .none then (s0.setPoison line true).setWay line .dirty else s0
      ((s1.modDir line (fun d => { d with st := .U })).sliceStart line r).sliceDone line
    else
      let mark (s : State) : State := if q.dirty then s.setWay line .dirty else s
      let sole : DirSt := if q.grant = 1 then .S [o] else .U
      match r.op with
      | .RdS => (mark (s0.modDir line (fun d => { d with st := if q.grant = 1 then .S [o, rp] else .S [rp] }))).sliceDone line
      | .RdX | .Upg => (s0.modDir line (fun d => { d with st := .X rp })).sliceDone line
      | .RdZ => ((s0.modDir line (fun d => { d with st := .U })).sliceServe line r).sliceDone line
      | .RdNC | .Clean => ((mark (s0.modDir line (fun d => { d with st := sole }))).sliceServe line r).sliceDone line
      | .FAtom => (((mark (s0.modDir line (fun d => { d with st := .U }))).fillClean line).sliceServe line r).sliceDone line
      | _ => ((mark (s0.modDir line (fun d => { d with st := .U }))).sliceServe line r).sliceDone line
  | _ => s

/-- SNPRSP: the snooped cache had no copy. -/
def execSnprsp (p : Pkt) (s : State) : Out :=
  let q : Pkt := { p with op := .SnpRsp }
  .next (s.deliver q (fun s => s.snpDone q false))
/-- SNPDATA. -/
def execSnpdata (p : Pkt) (s : State) : Out :=
  let q : Pkt := { p with op := .SnpData }
  .next (s.deliver q (fun s => s.snpDone q true))
/-- INVACK: when the last acknowledgment arrives the request is served. -/
def execInvack (p : Pkt) (s : State) : Out :=
  let q : Pkt := { p with op := .InvAck }
  .next (s.deliver q (fun s =>
    match (s.dline q.line).busy with
    | some (r, .acks n) =>
      if 1 < n then s.busy q.line r (.acks (n - 1))
      else
        let s0 := s.modDir q.line (fun d => { d with busy := none })
        let s1 := if r.op = .Upg ∨ r.op = .RdX ∨ r.op = .RdZ ∨ r.op = .FAtom then s0
          else s0.modDir q.line (fun d => { d with st := .U })
        (s1.sliceServe q.line r).sliceDone q.line
    | _ => s))

/-! ## Responses -/

/-- The state in which a grant leaves a line in an L2: a recall that came before the grant is applied after it (R124), so the copy
is no more than the directory, or the slice's transaction for this core, gives. -/
def State.granted (s : State) (p line : Nat) (st : Mesi) : Mesi :=
  let d := s.dline line
  if d.busy.any (fun b => decide (b.1.src = physAgt p)) then st
  else match d.st with
    | .X o => if o = p then st else .I
    | .U => .I
    | t => if t.has p && decide (st ≠ .I) then .S else .I

/-- What a far atomic's answer brings its core (R126, R127). -/
def Core.farAns (k : Core) (q : Pkt) : Core :=
  { k with far := k.far.map (fun f => { f with ans := some (q.status, q.poison, q.data.toNat % 256 ^ f.size) }) }

/-- The CFLUSH or CCLEAN whose request has been answered leaves the store buffer; a status is latched (R212). -/
def Core.maintEnd (k : Core) (line status : Nat) : Core :=
  let here (e : StEntry) : Bool := decide (e.kind = .flush ∨ e.kind = .clean) && decide (e.pa / 64 = line)
  match k.sbuf.find? here with
  | none => k
  | some e =>
    let k1 := { k with sbuf := takeOut e k.sbuf }
    if status = 0 then k1 else k1.latchErr e.pa status

/-- An L2's request for a line ended: the state its answer gives the line, before and after the directory has its say. -/
def State.l2Want (s : State) (q : Pkt) : Mesi :=
  let p := agtPhys q.dst
  let x := s.l2line p q.line
  if x.st = .M then .M
  else if q.status ≠ 0 then x.st
  else if q.grant = 1 then s.granted p q.line .S
  else if q.grant = 2 then s.granted p q.line .E
  else if q.grant = 3 then s.granted p q.line .M
  else x.st

/-- Whether an L2 can take a response: a line that it installs needs a way, whose victim may need an entry of the eviction buffer. -/
def State.l2Takes (s : State) (q : Pkt) : Bool := decide (s.l2Want q = .I) || (s.l2Way (agtPhys q.dst) q.line).isSome

/-- A response at an L2. The answer of a far atomic, a flush or a clean goes to its core; data or a grant installs the line, and a
request that ends with a status leaves it for the access that needs the line, unless it was a prefetch (R36, R119, R123). -/
def State.l2Fill (s : State) (q : Pkt) : State :=
  let p := agtPhys q.dst
  let line := q.line
  let x := s.l2line p line
  let op? : Option Op := (Map.get none s.reqs (txKey q.dst q.txid)).map (fun r => r.op)
  if op? = some .FAtom then (s.modCore (s.runsOn p) (fun k => k.farAns q)).endTx q
  else if op? = some .Flush ∨ op? = some .Clean then
    ((s.setL2 p line { x with miss := none }).modCore (s.runsOn p) (fun k => k.maintEnd line q.status)).endTx q
  else
    let s1 := s.setL2 p line { x with miss := none, pf := false, err := if q.status ≠ 0 ∧ x.pf = false then q.status else x.err }
    let st := s.l2Want q
    (if st = .I then s1
      else
        let s2 := (s1.l2Put p line st).getD s1
        if x.pf then s2 else s2.l1Use (s2.runsOn p) p line).endTx q

/-- What a home agent's answer leaves at the slice: an error goes to the requester and changes nothing else (R123); else the data
way is filled, emptied or made CLEAN where Table 4.3 says so, and the request ends. -/
def State.homeAns (s0 : State) (q : Pkt) : State :=
  let s := s0.endTx q
  let line := q.line
  match (s.dline line).busy with
  | some (r0, .home) =>
    let r := { r0 with side := if q.side = 0 then r0.side else q.side }
    let rp := agtPhys r.src
    let free (s : State) : State := (s.modDir line (fun d => { d with busy := none })).sliceDone line
    let isData := decide (r.op = .RdS ∨ r.op = .RdX ∨ r.op = .Upg ∨ r.op = .RdNC)
    if q.status ≠ 0 then
      free (s.inject { s.fromSlice line (if isData || decide (r.op = .FAtom) then .Data else .Cmp) r.src r.txid with
        status := q.status, detail := q.detail, data := if q.status = 6 then q.data else BitVec.allOnes 512, poison := q.poison, side := r.side })
    else match r.op with
      | .RdS =>
        let d := s.dline line
        let grant := if r.ifetch ∨ d.st ≠ .U then 1 else 2
        let s1 := if d.st = .U then s.fillClean line else s
        free (((s1.modDir line (fun d => { d with st := (if grant = 2 then .X rp else d.st.add rp) })).capTags line).giveData r line grant)
      | .RdX | .Upg =>
        let s1 := if (s.dline line).st = .U then s.fillClean line else s
        free (((s1.modDir line (fun d => { d with st := .X rp })).capTags line).giveData r line 3)
      | .RdNC => free (s.giveData r line 0)
      | .FAtom =>
        if (s.dline line).st = .U then
          free (s.inject { s.fromSlice line .Data r.src r.txid with data := q.data, poison := q.poison, side := r.side })
        else (((s.modDir line (fun d => { d with st := .U, busy := none })).fillClean line).sliceServe line r).sliceDone line
      | .Flush =>
        free ((s.modDir line (fun d => { d with st := .U, way := .none, wn := 0, lock := false })).inject
          { s.fromSlice line .Cmp r.src r.txid with side := r.side })
      | .Clean => free ((s.setWay line .clean).inject { s.fromSlice line .Cmp r.src r.txid with side := r.side })
      | _ => free (s.inject { s.fromSlice line .Cmp r.src r.txid with side := r.side })
  | _ => s

/-- Whether an agent is an L2, a slice, a home agent. -/
def isL2 (a : Agt) : Bool := isTileRouter a.router && decide (a.agent < 2)
def isSlice (a : Agt) : Bool := isTileRouter a.router && decide (a.agent = 2)
def isHome (a : Agt) : Bool :=
  !isTileRouter a.router && decide (8 ≤ a.router / 36) && decide (a.router / 36 < 14) && decide (a.agent = 0)

/-- A response by the kind of agent that receives it; one whose line finds no place in its L2 waits. -/
def State.respond (s : State) (q : Pkt) : State :=
  if isL2 q.dst && !s.proxied q.dst && !s.l2Takes q then s
  else s.deliver q (fun s =>
    if isL2 q.dst then s.l2Fill q else if isSlice q.dst then s.homeAns q else if isHome q.dst then s.portAns q else s.endTx q)

/-- DATA. -/
def execData (p : Pkt) (s : State) : Out := .next (s.respond { p with op := .Data })
/-- GRANT. -/
def execGrant (p : Pkt) (s : State) : Out := .next (s.respond { p with op := .Grant })
/-- CMP: a completion without data. -/
def execCmp (p : Pkt) (s : State) : Out := .next (s.respond { p with op := .Cmp })

/-! ## Evictions (R125, Table 4.4) -/

/-- L2_EVICTION: a line moves to the L2's eviction buffer of 32 entries and a Put goes to its slice; a reservation on
it is cleared (R141). -/
def execL2Eviction (c : CoreId) (line : LineNo) (s : State) : Out := .next ((s.l2Evict (s.phys c) line.toNat).getD s)

/-- SLICE_EVICTION: a CLEAN line is dropped, a DIRTY line moves to the slice's eviction buffer of 16 entries and a Put
goes to the home agent; a locked line is never chosen (R130). A directory-only tag is evicted with its copies. -/
def execSliceEviction (t : TileId) (line : LineNo) (s : State) : Out :=
  .next (
    let l := line.toNat
    let d := s.dline l
    let full := decide (16 ≤ s.slicePuts t)
    if s.sliceOf l ≠ t ∨ d.lock = true ∨ d.busy.isSome ∨ d.evb.isSome then s
    else match d.way with
      | .clean => (s.modDir l (fun d => { d with way := .none, wn := 0 })).capTags l
      | .dirty => if full then s else (s.slicePutHome l).capTags l
      | .none => if full && s.copyDirty l then s else s.evictTag l)

/-- A cancelled eviction whose data the home awaits ends when its WbGo is answered with PutCancel; the others end with
their WbAck. -/
def State.putEnd (s : State) (q : Pkt) : State :=
  match Map.get none s.reqs (txKey q.dst q.txid) with
  | some r => if r.op = .PutM ∨ r.op = .HPut then s.endTx q else s
  | none => s

/-- WBGO: the eviction is accepted; the data follows when there is any. A stale or cancelled entry answers PutCancel. -/
def execWbgo (p : Pkt) (s : State) : Out :=
  let q : Pkt := { p with op := .WbGo }
  let l := q.line
  let back (s : State) (op : Op) : Pkt :=
    { op := op, src := q.dst, dst := q.src, txid := q.txid, addr := q.addr, data := s.rdLine l, poison := s.poisoned l }
  .next (s.deliver q (fun s =>
    if isL2 q.dst then
      let o := agtPhys q.dst
      let x := s.l2line o l
      match x.evb with
      | some (st, false, false) =>
        let s1 := s.setL2 o l { x with evb := some (st, true, false) }
        if st = .M then s1.inject { back s .WbData with dirty := true } else s1
      | _ => ((s.setL2 o l { x with evb := none }).inject { back s .PutCancel with data := 0 }).putEnd q
    else
      match (s.dline l).evb with
      | some false => (s.modDir l (fun d => { d with evb := some true })).inject (back s .WbData)
      | _ => (s.inject { back s .PutCancel with data := 0 }).putEnd q))

/-- WBSTALE: the home does not expect the eviction; the entry is freed. -/
def execWbstale (p : Pkt) (s : State) : Out :=
  let q : Pkt := { p with op := .WbStale }
  .next (s.deliver q (fun s =>
    (if isL2 q.dst then s.setL2 (agtPhys q.dst) q.line { s.l2line (agtPhys q.dst) q.line with evb := none }
     else (s.modDir q.line (fun d => { d with evb := none })).sliceDone q.line).endTx q))

/-- WBACK: the entry is freed; requests that waited for it start. -/
def execWback (p : Pkt) (s : State) : Out :=
  let q : Pkt := { p with op := .WbAck }
  .next (s.deliver q (fun s =>
    (if isL2 q.dst then s.setL2 (agtPhys q.dst) q.line { s.l2line (agtPhys q.dst) q.line with evb := none }
     else (s.modDir q.line (fun d => { d with evb := none })).sliceDone q.line).endTx q))

/-- WBDATA at a slice: the data enters the data way as DIRTY and the entry is acknowledged; at a home agent the
write-back is accepted. -/
def execWbdata (p : Pkt) (s : State) : Out :=
  let q : Pkt := { p with op := .WbData }
  let l := q.line
  .next (s.deliver q (fun s =>
    if isSlice q.dst then
      match (s.dline l).busy with
      | some (r, .wbdata) =>
        let s1 := (s.modDir l (fun d => { d with busy := none, st := .U })).setWay l .dirty
        (s1.inject { s.fromSlice l .WbAck r.src r.txid with src := q.dst }).sliceDone l
      | _ => s
    else s.homeWbData q))

/-- PUTCANCEL: the eviction is withdrawn; the home frees what it had reserved. A cache that has taken its line back is
recorded again where the Put had already removed it. -/
def execPutcancel (p : Pkt) (s : State) : Out :=
  let q : Pkt := { p with op := .PutCancel }
  .next (s.deliver q (fun s =>
    if isSlice q.dst then
      match (s.dline q.line).busy with
      | some (_, .wbdata) => ((s.sliceEv q.sliceT 8).modDir q.line (fun d => { d with busy := none })).sliceDone q.line
      | _ =>
        let p := agtPhys q.src
        s.modDir q.line (fun d => match (s.l2line p q.line).st, d.st with
          | .I, _ => d
          | .S, .X _ => d
          | .S, st => { d with st := st.add p }
          | _, .U => { d with st := .X p }
          | _, _ => d)
    else s))

/-- Whether a prefetcher asks for a line (R119): the stride prefetcher for the next address of a tracked load, the stream prefetcher
up to PF_DEPTH lines ahead on a tracked stream; neither crosses a 4 KiB boundary. -/
def State.prefetches (s : State) (p line : Nat) : Bool :=
  let cfg := s.rdCsr (tileBase (p / 2) + 0x30000 + 8 * (p % 2))
  let y := s.pf p
  (bitB cfg 18 && y.loads.any (fun e => decide (e.2.2 ≠ 0) && decide (((e.2.1 : Int) + e.2.2) / 64 = line) && decide (e.2.1 / 4096 = line / 64))) ||
    (bitB cfg 19 && y.streams.any (fun e => decide (e.1 / 64 = line / 64) &&
      (spanN 1 (bitsN cfg 23 20)).any (fun i => decide ((line : Int) = e.1 + e.2 * i))))

/-- PREFETCH: a read-shared request for a line that a prefetcher asks for (R119). It never reaches a side-effect region; an answer
of UNBACKED drops it (R36). -/
def execPrefetch (c : CoreId) (pa : BitVec 52) (s : State) : Out :=
  .next (
    let p := s.phys c
    let l := pa.toNat / 64
    let x := s.l2line p l
    if !inSysMem pa.toNat || !s.prefetches p l || decide (x.st ≠ .I) || x.miss.isSome || x.evb.isSome || decide (96 ≤ s.misses p) then s
    else (s.ask c p l .RdS true).count c [0x1C] (s.core c).pl (s.core c).vf)

/-- LL_HOLD_EXPIRE: 128 core cycles pass and the hold on the load-linked's line ends (R142). -/
def execLlHoldExpire (c : CoreId) (s : State) : Out := .next (s.modCore c (fun k => { k with hold := none }))

end Sys2Proof.Machine
end

