-- ==== Sys2Proof/Machine/Sorrel.lean ====
section
/-! DEFINITION. Migrations and the commands of the Sorrel rings (02_memory_tiers.md, R50 to R60). -/

namespace Sys2Proof.Machine
open Sys2Proof

/-! ## Command completion (Table 2.9) -/

/-- Words 2 and 3 of a command's slot written by the home agent at a channel's stop: STATUS, CTIME, DONE, ENTRY. -/
def State.sorDone (s : State) (ch slot status entry : Nat) : State :=
  (s.dmaWrite { router := routerOfCh ch, agent := 0 } (slot + 16)
    (status + s.ctime.toNat % 2 ^ 55 * 2 ^ 8 + 2 ^ 63 + entry * 2 ^ 64) 16).2

/-- A command that asked for a migration completes. -/
def State.sorDone? (s : State) (h : Nat) (cmd : Option Nat) (status : Nat) : State :=
  match cmd with
  | some slot => s.sorDone (s.hostCh h) slot status 0
  | none => s

/-! ## Pins (R55) -/

/-- Whether a pin permits a KIND. -/
def pinPermits (target kind : Nat) : Bool :=
  if target = 0 then decide (kind = 1) else if target = 1 then decide (kind = 2) else decide (kind = 1 ∨ kind = 2)

/-- Whether a pin keeps a frame from an automatic move to a destination (0 NEAR, 1 FAR, 2 COMPRESSED). -/
def pinBars (en : Word) (dest : Nat) : Bool := ePin en && !pinPermits (ePinT en) (dest + 1)

/-- The migration a pin asks for: to NEAR for target NEAR, else to a plain FAR frame. -/
def pinAction (f target : Nat) (cmd : Option Nat) : Action :=
  { frame := f, dest := if target = 0 then 0 else 1, port := none, auto := false, cmd := cmd }

/-- An action that the limit of R52 does not count joins the queue. -/
def State.pushAct (s : State) (h : Nat) (a : Action) : State := s.modHome h (fun x => { x with acts := x.acts ++ [a] })

/-- PINs that waited for a migration of a frame: complete where the frame now lies in a permitted tier, else queue a
migration of their own (R55). -/
def State.wakePins (s : State) (h f : Nat) : State :=
  let ws := (s.home h).waiters.filter (fun w => decide (w.frame = f))
  let s1 := s.modHome h (fun x => { x with waiters := x.waiters.filter (fun w => decide (w.frame ≠ f)) })
  ws.foldl (fun (s : State) w =>
    if pinPermits (ePinT (s.entry f)) (eKind (s.entry f)) || !ePin (s.entry f) then s.sorDone (s.hostCh h) w.slot 0 0
    else s.pushAct h (pinAction f (ePinT (s.entry f)) (some w.slot))) s1

/-! ## Commands (R53 to R55) -/

/-- A command that a home function carries out at once (Tables 2.9, 2.10). -/
def State.sorNow (s : State) (d : SorCmd) : State :=
  let op := bitsN d.w0 7 0
  let dest := bitsN d.w0 9 8
  let f := bitsN d.w1 26 0
  let h := f % 12
  let en := s.entry f
  let k := eKind en
  let fin (s : State) (st : Nat) : State := s.sorDone (s.hostCh h) d.slot st 0
  if op = 5 then s.sorDone (s.hostCh h) d.slot 0 en.toNat
  else if k = 0 then fin s 2
  else if op = 1 then
    let p := if bitB d.w0 16 ∨ dest = 0 then none else some (bitsN d.w0 15 10)
    if (s.migOf f).isSome then fin s 4
    else if ePin en && !pinPermits (ePinT en) (dest + 1) then fin s 3
    else match p with
      | some q =>
        if s.portUsable q then s.pushAct h { frame := f, dest := dest, port := some q, auto := false, cmd := some d.slot }
        else fin s 6
      | none => s.pushAct h { frame := f, dest := dest, port := none, auto := false, cmd := some d.slot }
  else if op = 2 then
    let s1 := s.setEntry f (putW (putB en 3 true) 5 4 dest)
    match s1.migOf f with
    | some _ => s1.modHome h (fun x => { x with waiters := x.waiters ++ [{ slot := d.slot, frame := f }] })
    | none => if pinPermits dest k then fin s1 0 else s1.pushAct h (pinAction f dest (some d.slot))
  else if op = 3 then fin (s.setEntry f (putW (putB en 3 false) 5 4 0)) 0
  else fin (s.setEntry f (putW en 11 10 (bitsN d.w0 18 17))) 0

/-- Whether a command must wait for one before it on the same frame whose migration has not yet started (R55). -/
def State.sorWaits (s : State) (f : Nat) : Bool :=
  (s.home (f % 12)).acts.any (fun a => decide (a.frame = f) && a.cmd.isSome) ||
    (s.home (f % 12)).later.any (fun d => decide (bitsN d.w1 26 0 = f))

/-- A command of a frame of this home function: carried out in ring order with the others of its frame (R55). -/
def State.sorTurn (s : State) (d : SorCmd) : State :=
  let f := bitsN d.w1 26 0
  if s.sorWaits f then s.modHome (f % 12) (fun x => { x with later := x.later ++ [d] }) else s.sorNow d

/-- A command carried out by the home agent at a channel's stop; reserved bits of a descriptor are ignored (log entry 109). -/
def State.sorRun (s : State) (ch : Nat) (d : SorCmd) : State :=
  let op := bitsN d.w0 7 0
  let h := bitsN d.w1 26 0 % 12
  let fin (st : Nat) : State := s.sorDone ch d.slot st 0
  if op < 1 ∨ 5 < op ∨ (op ≤ 2 ∧ bitsN d.w0 9 8 = 3) then fin 8
  else if s.hostCh h ≠ ch then fin 1
  else s.sorTurn d

/-- The commands that waited for one on their frame are carried out as far as they go (R55). -/
def State.wakeLater (s : State) (h f : Nat) : State :=
  let ds := (s.home h).later.filter (fun d => decide (bitsN d.w1 26 0 = f))
  ds.foldl (fun (s : State) d => s.sorTurn d)
    (s.modHome h (fun x => { x with later := x.later.filter (fun d => decide (bitsN d.w1 26 0 ≠ f)) }))

/-! ## Migrations (R56 to R60) -/

/-- A migration record replaced. -/
def State.setMig (s : State) (h f : Nat) (g : Mig → Mig) : State :=
  s.modHome h (fun x => { x with migs := x.migs.map (fun m => if m.frame = f then g m else m) })

/-- The Toll grant returned when none of the migrations runs (R56). -/
def State.migIdle (s : State) (h : Nat) : State :=
  if (s.home h).migs.isEmpty && (s.home h).grant then
    (s.modHome h (fun x => { x with grant := false })).grantReturn (.mig (Fin.ofNat 12 h))
  else s

/-- Frames pinned NEAR that lie elsewhere return by a promotion when their channel has room (R104). -/
def State.pinsHome (s : State) (h : Nat) : State :=
  if (s.freeNear h).isNone then s
  else match s.remap.find? (fun e => decide (e.1 % 12 = h) && ePin e.2 && decide (ePinT e.2 = 0 ∧ eKind e.2 = 2) && !eMig e.2 &&
      !(s.home h).acts.any (fun a => decide (a.frame = e.1 ∧ a.dest = 0))) with
    | some e => s.pushAct h { frame := e.1, dest := 0, port := none, auto := false, cmd := none }
    | none => s

/-- Where an evacuation, or the retirement of its near frame, still wants a frame to go (R76, R77, R104): 0 NEAR, 1 FAR, 2
COMPRESSED. -/
def State.mustMove (s : State) (h f : Nat) : Option Nat :=
  let en := s.entry f
  if eKind en = 1 then
    (if s.nearShut (s.nearBk h) then some 1 else if (s.nch (s.nearBk h)).withheld.contains (eLoc en) then some 0 else none)
  else if s.coord.closed.contains (ePort en) then
    (if eKind en = 2 then some 1 else if eKind en = 3 then some 2 else none)
  else none

/-- A frame that must still move is queued to move (R76, R77, R104). -/
def State.queueMust (s : State) (h f : Nat) : State :=
  match s.mustMove h f with
  | some d => s.pushAct h { frame := f, dest := d, port := none, auto := false, cmd := none }
  | none => s

/-- While a channel is evacuated, its partner's near frames are demoted until as many are free as the moved shares need; which
ones is the model's choice, the lowest-numbered (R77, log entry 110). -/
def State.evacMates (s : State) : State :=
  match s.coord.evac with
  | some (true, i) =>
    if s.coord.evacWait || decide (s.profile = 2) then s
    else
      let ch := i ^^^ 1
      let near := s.framesWhere (fun f e => decide (eKind e = 1 ∧ s.hostCh (f % 12) = ch))
      let going (f : Nat) : Bool := (s.migOf f).any (fun m => decide (m.dest.kind = 2)) ||
        (s.home (f % 12)).acts.any (fun a => decide (a.frame = f ∧ a.dest = 1) && !a.auto && a.cmd.isNone)
      let need := resFrames i - (s.freeOn ch).length - (near.filter going).length
      ((near.filter (fun f => !going f)).take need).foldl (fun (s : State) f =>
        s.pushAct (f % 12) { frame := f, dest := 1, port := none, auto := false, cmd := none }) s
  | _ => s

/-- A migration ends without switching (R56, R58): its destination is freed, the frame is as before; one that an evacuation
asked for is queued again. -/
def State.migEnd (s : State) (h : Nat) (m : Mig) (status : Nat) : State :=
  let f := m.frame
  let s1 := s.modHome h (fun x => { x with migs := x.migs.filter (fun y => decide (y.frame ≠ f)) })
  let s2 := if m.dest.kind = 1 then s1 else s1.freePlace h m.dest m.blocks
  let s3 := s2.setEntry f (putB (s2.entry f) 6 false)
  let s4 := m.holdq.foldl (fun (s : State) q => s.homeAct h q) s3
  ((((((s4.sorDone? h m.cmd status).wakePins h f).wakeLater h f).queueMust h f).evacMates).spillAll).migIdle h

/-- Whether a frame may leave COMPRESSED or ZERO for a plain place: the far pool keeps one free frame where it leaves
COMPRESSED, and the grant rule still holds (R52, Table 2.10). -/
def State.roomOut (s : State) (f : Nat) (far : Bool) : Bool :=
  let free := s.fld freeFarA 27 0
  let need := if eElastic (s.entry f) ∨ s.fld capBaseA 27 0 ≤ f then 0 else 4096 - s.useOf f
  (decide (eKind (s.entry f) = 4) || decide ((if far then 2 else 1) ≤ free)) &&
    (decide (need = 0) || decide (4104 * s.fld grantedA 27 0 + 4096 * s.fld reserveA 27 0 + need ≤ s.fld savedA 47 0))

/-- The coldest COOL or COLD NEAR frame of a home function, for a swap; WEIGHT 1 counts one class hotter (R51, R52). -/
def State.coldestNear (s : State) (h : Nat) : Option Nat :=
  let ch := s.nearBk h
  let fs := (s.nearSpanOf h).filterMap (fun cf =>
    match s.sysOf ch cf with
    | some f =>
      let en := s.entry f
      if f % 12 = h ∧ eKind en = 1 ∧ 2 ≤ hotter en (eClass en) ∧ eMig en = false ∧ ¬ (ePin en = true ∧ ePinT en = 0) then some f else none
    | none => none)
  fs.foldl (fun (b : Option Nat) f => match b with
    | none => some f
    | some g =>
      if eHeat (s.entry f) < eHeat (s.entry g) ∨ (eHeat (s.entry f) = eHeat (s.entry g) ∧ f < g) then some f else b) none

/-- The destination of an action, allocated (R56): a place and the state with it taken, or the status of a command that
finds none (Table 2.10). -/
def State.migDest (s : State) (h : Nat) (a : Action) : Except Nat (Place × State) :=
  let f := a.frame
  let out := decide (3 ≤ eKind (s.entry f))
  let ports : List Nat := match a.port with
    | some p => [p]
    | none => s.layout.farPorts.filter (fun p => s.portUsable p &&
        (if a.dest = 1 then (s.freeFar p).isSome else (s.allocSec h p 8 true).isSome))
  let p := ports.getD (s.draw (max 1 ports.length)) 64
  if a.dest = 0 then
    if s.nearShut (s.nearBk h) || s.fencedAgt (routerOfCh (s.hostCh h)) 0 then .error 6
    else match s.freeNear h with
    | some cf => if out && !s.roomOut f false then .error 5 else .ok ({ kind := 1, port := 0, loc := cf }, s)
    | none => .error 5
  else if ports.isEmpty then .error 5
  else if !s.portUsable p then .error 6
  else if a.dest = 1 then
    if out && !s.roomOut f true then .error 5
    else match s.freeFar p with
      | some i => .ok ({ kind := 2, port := p, loc := i }, (s.bump).setFar p i .plain)
      | none => .error 5
  else match s.bump.allocSec h p 8 true with
    | some (sec, s1) => .ok ({ kind := 3, port := p, loc := sec / 8 }, s1)
    | none => .error 5

/-- Order of the automatic actions (R52): promotions hottest first, expansions hottest first, then demotions and
compressions coldest first; equal heat by ascending frame. A smaller key starts first. -/
def State.actKey (s : State) (a : Action) : Nat :=
  let en := s.entry a.frame
  let g := if a.dest = 0 then 0 else if a.dest = 1 ∧ (eKind en = 3 ∨ eKind en = 5) then 1 else 2
  (g * 256 + (if g = 2 then eHeat en else 255 - eHeat en)) * 2 ^ 28 + a.frame

/-- Whether an action may start now: no migration of its frame or of the frame it swaps with runs; an automatic one has a
place left in SOR_RATE.MIGS, and two where it needs a swap (R51, R52). -/
def State.actReady (s : State) (h : Nat) (a : Action) : Bool :=
  let left := s.fld (rasBase + 0x100018) 7 0 - (s.home h).started
  (s.migOf a.frame).isNone &&
    (match a.swap with
      | some v => (s.migOf v).isNone
      | none => true) &&
    (!a.auto || (decide (s.sorMode ≠ 3) && decide (1 ≤ left) &&
      (decide (a.dest ≠ 0) || (s.freeNear h).isSome || decide (2 ≤ left))))

/-- The action that starts next: what a command or another rule asked for in order, then the automatic ones. -/
def State.nextAct (s : State) (h : Nat) : Option Action :=
  let l := (s.home h).acts.filter (fun a => s.actReady h a)
  match l.find? (fun a => !a.auto) with
  | some a => some a
  | none => l.foldl (fun (b : Option Action) a => match b with
      | none => some a
      | some c => if s.actKey a < s.actKey c then some a else b) none

/-- Whether an action that no command asked for is no longer called for: its frame has moved, a pin bars it, or near
frames are no longer short (Table 2.7, R51, R76). -/
def State.actStale (s : State) (h : Nat) (a : Action) : Bool :=
  let en := s.entry a.frame
  let k := eKind en
  let shut := s.coord.closed.contains (ePort en)
  let out := decide (k = 1) && (s.nch (s.nearBk h)).withheld.contains (eLoc en)
  a.cmd.isNone &&
    ((a.auto && pinBars en a.dest) ||
      !(if a.dest = 0 then decide (k = 2 ∨ k = 3) || (out && !a.auto)
        else if a.dest = 1 then
          (decide (k = 1) && (!a.auto || decide (s.freeNearCount h < s.fld (rasBase + 0x100018) 23 8))) ||
            (decide (k = 3) && a.auto) || (decide (k = 2) && shut)
        else (decide (k = 3) && (a.auto || shut)) || (decide (k = 2) && a.auto)))

/-- A migration enters COPY: MIG := 1 and its entry is locked in the remap cache (Table 2.11); the commands that waited for its
start go on. -/
def State.migBegin (s : State) (h : Nat) (a : Action) (dest : Place) : State :=
  let en := s.entry a.frame
  let m : Mig := { frame := a.frame, src := ePlace en, dest := dest, st := .copy, pass := 0, aborts := 0, todo := none,
                   dirty := [], blocks := [], imgs := [], holdq := [], cmd := a.cmd, pos := 0 }
  (((s.rtouch a.frame).setEntry a.frame (putB en 6 true)).modHome h (fun x =>
    { x with migs := x.migs ++ [m], acts := (takeOut a x.acts).filter (fun b => !(b.auto && decide (b.frame = a.frame))), started := if a.auto then x.started + 1 else x.started })).wakeLater h a.frame

/-- An action is given up. -/
def State.actDrop (s : State) (h : Nat) (a : Action) : State := s.modHome h (fun x => { x with acts := takeOut a x.acts })

/-- A promotion without a free near frame first demotes the coldest COOL or COLD NEAR frame, where it could then go on
(R52). -/
def State.swapTry (s : State) (h : Nat) (a : Action) : State :=
  match (if decide (3 ≤ eKind (s.entry a.frame)) && !s.roomOut a.frame false then none else s.coldestNear h) with
  | some v =>
    let d : Action := { frame := v, dest := 1, port := none, auto := true, cmd := none }
    match s.migDest h d with
    | .ok (pl, s1) => (s1.migBegin h d pl).modHome h (fun x =>
        { x with acts := x.acts.map (fun b => if b = a then { a with swap := some v } else b) })
    | .error _ => (s.actDrop h a).migIdle h
  | none => (s.actDrop h a).migIdle h

/-- An action starts (R52, R56). One that finds no space ends, and with it the command that asked for it; an evacuation's waits
behind the others, and a frame that leaves a retired near frame goes to FAR when its channel has no other (R104). -/
def State.migTry (s : State) (h : Nat) (a : Action) : State :=
  if (s.migOf a.frame).isSome then s
  else if s.actStale h a then (s.actDrop h a).migIdle h
  else match s.migDest h a with
    | .ok (pl, s1) => s1.migBegin h a pl
    | .error st =>
      if a.auto && decide (a.dest = 0) && (s.freeNear h).isNone then s.swapTry h a
      else if !a.auto && a.cmd.isNone && (decide (a.dest ≠ 0) || (s.mustMove h a.frame).isSome) then
        (s.actDrop h a).pushAct h (if a.dest = 0 then { a with dest := 1 } else a)
      else (((((s.actDrop h a).sorDone? h a.cmd st).wakePins h a.frame)).wakeLater h a.frame).migIdle h

/-- MIGRATION_START: the next queued migration starts under the home function's Toll grant (R56). -/
def execMigrationStart (h : HomeId) (s : State) : Out :=
  .next (
    match s.nextAct h with
    | none => s
    | some a =>
      if 4 ≤ (s.home h).migs.length then s
      else if !(s.home h).grant then s.tollEnqueue (.mig h)
      else s.migTry h a)

/-- Whether 4,096 bytes of a block are zero. -/
def State.blockZero (s : State) (f b : Nat) : Bool := decide (s.rdN (2 ^ 21 * f + 4096 * b) 4096 = 0)

/-- The sectors a block's encoding takes (R41, R46): none when zero, 8 when it holds poison, else those of the encoder's
image, 8 where it has none. -/
def State.encSize (s : State) (f b : Nat) : Nat :=
  if (List.range 64).any (fun i => s.poisoned (32768 * f + 64 * b + i)) then 8
  else if s.blockZero f b then 0
  else match chiveEncode ((List.range 4096).map (fun i => s.rdByte (2 ^ 21 * f + 4096 * b + i))) with
    | some img => img.length / 512
    | none => 8

/-- The image of a block's encoding of fewer than 8 sectors. -/
def State.encImage (s : State) (f b : Nat) : List Byte :=
  (chiveEncode ((List.range 4096).map (fun i => s.rdByte (2 ^ 21 * f + 4096 * b + i)))).getD []

/-- The blocks of a pass encoded at the destination (R56): each frees its earlier sectors and takes new ones. None when an
allocation finds no space. -/
def State.encBlocks (s : State) (h f p : Nat) : Map Word × Map (List Byte) → List Nat → Option ((Map Word × Map (List Byte)) × State)
  | m, [] => some (m, s)
  | m, b :: bs =>
    let old := Map.get 0 m.1 b
    let s1 := if dKind old = 0 then s else s.freeSec p (dSector old) (dNsec old)
    let n := s.encSize f b
    if n = 0 then State.encBlocks s1 h f p (Map.set 0 m.1 b 0, Map.set [] m.2 b []) bs
    else match s1.allocSec h p n false with
      | some (sec, s2) =>
        State.encBlocks s2 h f p (Map.set 0 m.1 b (mkDirEnt (if n = 8 then 2 else 1) n sec),
          Map.set [] m.2 b (if n = 8 then [] else s.encImage f b)) bs
      | none => none

/-- The blocks of the lines of a pass. -/
def passBlocks : Option (List Nat) → List Nat
  | none => List.range 512
  | some ls => (ls.map (fun l => l / 64)).eraseDups

/-- A migration whose copier has encoded the blocks of a pass, for a COMPRESSED destination. -/
def State.encPass (s : State) (h : Nat) (m : Mig) : Option (Mig × State) :=
  if m.dest.kind = 3 then
    (s.encBlocks h m.frame m.dest.port (m.blocks, m.imgs) (passBlocks m.todo)).map (fun r => ({ m with blocks := r.1.1, imgs := r.1.2 }, r.2))
  else some (m, s)

/-- A line that the copier could not read: it is poisoned at the destination, unless a cache holds its value, and logged (Table
2.12, R97, R98). -/
def State.copyBad (s : State) (h : Nat) (m : Mig) (ln : Nat) : State :=
  let sl := 32768 * m.frame + ln
  let s1 := (if s.cached sl then s else s.setPoison sl true).framePoison m.frame
  (if m.dest.kind = 1 then s1.poisonWritten (s.hostCh h) m.dest.loc ln 3 else s1).hlog h 7 m.frame ln

/-- The copier's reads of the lines of a near source, with the mirror copy behind them (R98, R107, R111). -/
def State.copyNear (s : State) (h : Nat) (m : Mig) (ls : List (Fin 32768 × DramEnv)) : State :=
  if m.src.kind ≠ 1 then s
  else ls.foldl (fun (s : State) x =>
    let (bad, wrong, s1) := s.dramRead (s.nearBk h) m.src.loc x.1 3 x.2
    let s2 := if wrong then s1.wrongData (32768 * m.frame + x.1) else s1
    if bad then s2.copyBad h m x.1 else s2) s

/-- COPY_PASS_END: a copier pass over the frame ends. Lines that could not be read are poisoned at the destination; the
blocks of a compression are encoded; the migration goes to SWITCH, RECOPY or MIRROR, or ends (Table 2.11, R58). -/
def execCopyPassEnd (f : FrameNo) (e : CopyEnv) (s0 : State) : Out :=
  .next (
    let f := f.toNat
    let h := f % 12
    match s0.migOf f with
    | none => s0
    | some m =>
      if m.st = .switch ∨ m.st = .drain then s0
      else if (if m.dest.kind = 1 then s0.fencedAgt (routerOfCh (s0.hostCh h)) 0 else !s0.portUsable m.dest.port) then s0.migEnd h m 6
      else
        let s := (((if m.src.kind = 1 then [] else e.bad).foldl (fun (s : State) l => s.copyBad h m (l % 32768)) s0).copyNear h m e.near).homeEv h 9
        match s.encPass h m with
        | none => s.migEnd h m 5
        | some (m1, s1) =>
          if m.dirty.length ≤ s1.fld (rasBase + 0x100020) 31 24 then
            s1.setMig h f (fun _ => { m1 with st := .switch, todo := some m.dirty, pos := m.dirty.length })
          else
            let n := m.pass + 1
            if decide (m.dest.kind = 3) && decide (8 ≤ n) then s1.migEnd h m1 7
            else s1.setMig h f (fun _ =>
              { m1 with st := if 4 ≤ n ∧ m.dest.kind ≠ 3 then .mirror else .recopy, pass := n, dirty := [], todo := some m.dirty, pos := 0 }))

/-- Whether a write of a frame is outstanding at its place (R58 step 2). -/
def State.wrOut (s : State) (f : Nat) : Bool :=
  s.fwds.any (fun e => match e.2 with
    | some (r, _) => decide (frameOf r.addr = f) && decide (r.op ≠ .HRd)
    | none => false)

/-- The smallest write age of a light frame that moves to FAR (R90): at least two scans make the first COLD visit count
as the second. -/
def State.ageCold (s : State) (h f : Nat) (m : Mig) : State :=
  let ch := s.hostCh h
  let age (ln : Nat) : Nat := (s.coord.epoch + 8192 - s.wstampOf ch m.src.loc ln) % 8192
  if m.src.kind = 1 ∧ m.dest.kind = 2 ∧ s.light ch m.src.loc 0 = true ∧
      (List.range 32768).all (fun ln => decide (2 * s.fld (rasBase + 0x100008) 27 22 ≤ age ln)) = true then
    s.modHome h (fun x => { x with cold := Map.set 0 x.cold f 3 })
  else s

/-- A near frame that the copier has filled: its lines are newly written, those poisoned with their stored mark (R87, R89). -/
def State.copied (s : State) (ch cf f : Nat) : State :=
  let there (k : Nat) : Bool := decide (k / 32768 = cf)
  let pois := s.poison.filter (fun c => decide (c.1 / 32768 = f))
  s.modNch ch (fun n => { n with
    fstamp := Map.set 0 n.fstamp cf (s.coord.epoch % 8192), wstamp := n.wstamp.filter (fun e => !there e.1),
    lcrc := n.lcrc.filter (fun e => !there e.1), errs := n.errs.filter (fun e => !there e.1),
    marks := pois.foldl (fun (m : Map Bool) c => Map.set false m (nkey cf (c.1 % 32768)) true) (n.marks.filter (fun e => !there e.1)) })

/-- Steps 4 and 5 of a switch (R58): the entry names the new place, EPOCH toggles, the held requests go there. A compression that
finds every block ZERO leaves a ZERO frame (R63). -/
def State.switched (s1 : State) (h : Nat) (m : Mig) : State :=
  let f := m.frame
  let ch := s1.hostCh h
  let old := s1.dirBlocks f
  let zero := decide (m.dest.kind = 3) && m.blocks.isEmpty
  let s2 := if m.dest.kind = 1 then (s1.setSys (s1.nearBk h) m.dest.loc (some f)).copied ch m.dest.loc f
    else if zero then s1.freePlace h m.dest [] else s1
  let dest : Place := if zero then { kind := 4, port := 0, loc := 0 } else m.dest
  let s3 := s2.account f (fun s =>
    let s4 := m.blocks.foldl (fun (s : State) b => s.setDirEnt f b.1 b.2) (s.clearDir f)
    let s5 := { s4 with images := m.imgs.foldl (fun (i : Map (List Byte)) (b : Nat × List Byte) => Map.set [] i (blkKey f b.1) b.2) s4.images }
    let en := s5.entry f
    s5.setEntry f (putB (eMove en dest) 7 (!eEpoch en)))
  let s4 := (s3.modHome h (fun x => { x with cold := Map.set 0 x.cold f 0 })).ageCold h f m
  m.holdq.foldl (fun (s : State) q => s.homeAct h q)
    (s4.setMig h f (fun x => { x with st := .drain, blocks := old, imgs := [], holdq := [], dest := dest }))

/-- SWITCH_COMPLETE: with no write outstanding, the last dirty lines are copied, the entry is rewritten with EPOCH toggled,
and the held requests go to the new place (R58). -/
def execSwitchComplete (f : FrameNo) (s : State) : Out :=
  .next (
    let f := f.toNat
    let h := f % 12
    match s.migOf f with
    | none => s
    | some m =>
      if m.st ≠ .switch ∨ s.wrOut f = true then s
      else match (if m.src.kind = 1 then s.forceFrame (s.hostCh h) m.src.loc else s).encPass h { m with todo := some m.dirty } with
        | none => s.migEnd h m 5
        | some (m1, s1) => (s1.switched h m1).homeEv h 0xA)

/-- SWITCH_ABORT: 2 us pass before the entry is rewritten; the held requests go to the old place and the migration returns
to RECOPY, or ends with MIG_ABORTED at the third abort (R58). -/
def execSwitchAbort (f : FrameNo) (s : State) : Out :=
  .next (
    let f := f.toNat
    let h := f % 12
    match s.migOf f with
    | none => s
    | some m =>
      if m.st ≠ .switch then s
      else
        let s1 := s.homeEv h 0xB
        let n := m.pass + 1
        if 3 ≤ m.aborts + 1 ∨ (m.dest.kind = 3 ∧ 8 ≤ n) then s1.migEnd h m 7
        else
          let s2 := s1.setMig h f (fun x =>
            { x with st := if 4 ≤ n ∧ m.dest.kind ≠ 3 then .mirror else .recopy, pass := n, aborts := m.aborts + 1,
                     dirty := [], todo := some m.dirty, pos := 0, holdq := [] })
          m.holdq.foldl (fun (s : State) q => s.homeAct h q) s2)

/-- Requests of a frame outstanding under an epoch (R59). -/
def State.outEpoch (s : State) (f : Nat) (ep : Bool) : Bool :=
  s.fwds.any (fun e => match e.2 with
    | some (r, _) => decide (frameOf r.addr = f) && (r.repoch == ep)
    | none => false) ||
  s.near.any (fun e => e.2.reads.any (fun r => decide (frameOf r.1.addr = f) && (r.1.repoch == ep)))

/-- Address of SOR_EVAC. -/
def evacA : Nat := rasBase + 0x100100

/-- No evacuation runs. -/
def State.evacClear (s : State) : State := { s with coord := { s.coord with evac := none, evacWait := false } }

/-- An evacuation ends: STATUS, DONE, and START reads 0 again (R75). -/
def State.evacEnd (s : State) (status : Nat) (done : Bool) : State :=
  (((s.putFld evacA 16 9 status).putFlag evacA 8 false).putFlag evacA 17 done).evacClear

/-- The spill reserve of a far capacity. -/
def resOf (f : Nat) : Nat := (3 * f + 99) / 100

/-- Far capacity changed: F, res and saved space follow (R76, R336, R444). -/
def State.setFarCap (s : State) (f : Nat) : State :=
  let old := s.fld capFarA 27 0
  ((s.putFld capFarA 27 0 f).putFld reserveA 27 0 (resOf f)).putFld savedA 47 0
    (s.fld savedA 47 0 + 4096 * f - 4096 * old)

/-- Far frames of a port that the pool holds, and those that hold data. -/
def State.portFree (s : State) (p : Nat) : Nat :=
  ((List.range (s.layout.portSpan p)).filter (fun i => decide (s.far p i = .free))).length
def State.portUsed (s : State) (p : Nat) : Nat :=
  ((List.range (s.layout.portSpan p)).filter (fun i => decide (s.far p i ≠ .free ∧ s.far p i ≠ .withheld))).length

/-- A port evacuation ends when no frame of the port is in use (R76 step 4). -/
def State.evacCheck (s : State) : State :=
  match s.coord.evac with
  | some (false, p) =>
    if s.coord.closed.contains p && decide (s.portUsed p = 0) then
      (((s.setFarCap (s.fld capFarA 27 0 - s.layout.portFrames p)).putFld freeFarA 27 0
        (s.fld freeFarA 27 0 - s.portFree p))).evacEnd 0 true
    else s
  | _ => s

/-- DRAIN_END: no request of the old epoch is outstanding; the old place is freed, MIG is cleared, and the command that
asked for the migration completes (R59, R55). -/
def execDrainEnd (f : FrameNo) (s : State) : Out :=
  .next (
    let f := f.toNat
    let h := f % 12
    match s.migOf f with
    | none => s
    | some m =>
      if m.st ≠ .drain ∨ s.outEpoch f (!eEpoch (s.entry f)) = true then s
      else
        let s1 := (s.freePlace h m.src m.blocks).modHome h (fun x => { x with migs := x.migs.filter (fun y => decide (y.frame ≠ f)) })
        let s2 := s1.setEntry f (putB (s1.entry f) 6 false)
        (((((((((s2.sorDone? h m.cmd 0).wakePins h f).wakeLater h f).queueMust h f).evacMates).spillAll).pinsHome h).migIdle h).evacCheck))

/-! ## Scans (R50, R51, R63) -/

/-- Whether compression of a frame is enabled: by SOR_POLICY.COMPRESS_EN or by its WEIGHT. -/
def State.compressOk (s : State) (en : Word) : Bool := s.flag (rasBase + 0x100000) 2 || decide (eWeight en = 3)

/-- The automatic action that Table 2.7 calls for at a visit, if any; `prev` is the class at the visit before (0 where it
was neither COOL nor COLD). -/
def State.scanAct (s : State) (h f : Nat) (en : Word) (cls prev : Nat) : Option Nat :=
  let m := s.sorMode
  let c := hotter en cls
  let k := eKind en
  let cold := decide (cls = 3 ∧ prev = 3) || (decide (2 ≤ cls ∧ 2 ≤ prev) && (decide (m = 2) || decide (eWeight en = 3)))
  let raws := ((s.dirBlocks f).filter (fun b => decide (dKind b.2 = 2))).length
  let a : Option Nat :=
    if m = 3 then none
    else if k = 1 then
      if m ≠ 1 ∧ 2 ≤ c ∧ s.freeNearCount h < s.fld (rasBase + 0x100018) 23 8 then some 1 else none
    else if k = 2 then
      if s.wantsPromote en cls then some 0
      else if cold && s.compressOk en then some 2 else none
    else if k = 3 then
      if s.wantsPromote en cls then some 0
      else if m = 0 ∧ cls = 1 then some 1
      else if decide (cls = 3 ∧ prev = 3) && decide (64 ≤ raws) && s.compressOk en then some 2 else none
    else none
  match a with
  | some d => if pinBars en d then none else some d
  | none => none

/-- Entries of a remap share (R37). -/
def shareSize (h : Nat) : Nat := if h < 8 then 11184811 else 11184810

/-- SCAN_VISIT: the scan of a home function reaches its next entry: a backed one decays, is classified, and queues the
action that Table 2.7 calls for. -/
def execScanVisit (h : HomeId) (s : State) : Out :=
  .next (
    match (s.home h).scanPos with
    | none => s
    | some i =>
      let f := 12 * i + h.val
      let s1 := s.modHome h (fun x => { x with scanPos := if i + 1 < shareSize h then some (i + 1) else none })
      if eKind (s.entry f) = 0 then s1.modHome h (fun x => { x with cold := Map.set 0 x.cold f 0 })
      else
        let en := decay (s.entry f) s.coord.epoch
        let cls := s.classOf (eHeat en)
        let prev := Map.get 0 (s.home h).cold f
        let s2 := (s1.setEntry f (putW en 63 62 cls)).modHome h (fun x =>
          { x with cold := Map.set 0 x.cold f (if 2 ≤ cls then cls else 0),
                   acts := x.acts.filter (fun b => !(b.auto && decide (b.frame = f))) })
        if eMig en then s2
        else match s2.scanAct h f en cls prev with
          | some d => s2.queueAct h { frame := f, dest := d, port := none, auto := true, cmd := none }
          | none => s2)

/-- REMAP_CACHE_FILL: the share line that a miss asked for returns. The entry is installed and the waiting requests for
its frame go on; where the line is lost, HEAT, HTAG and CLASS restart at 0 once it has been read again (R445). -/
def execRemapCacheFill (h : HomeId) (f : FrameNo) (ok : Bool) (s : State) : Out :=
  .next (
    let f := f.toNat
    let mine := (s.home h).rwait.filter (fun q => decide (frameOf q.addr = f))
    if mine.isEmpty then s
    else if !ok then s.report 0x18 h f 1 f
    else
      let s1 := (s.rtouch f).modHome h (fun x => { x with rwait := x.rwait.filter (fun q => decide (frameOf q.addr ≠ f)) })
      mine.foldl (fun (s : State) q => s.homeGo h q) s1)

/-! ## The command ring (R53 to R55) -/

/-- Base of a home agent's command ring registers. -/
def cmdRingA (ch : Nat) : Nat := chBase ch + 0x200000

/-- MIGRATE. -/
def execMigrate (h : HomeId) (d : SorCmd) (s : State) : Out := .next (s.sorRun h { d with w0 := putW d.w0 7 0 1 })
/-- PIN. -/
def execPin (h : HomeId) (d : SorCmd) (s : State) : Out := .next (s.sorRun h { d with w0 := putW d.w0 7 0 2 })
/-- UNPIN. -/
def execUnpin (h : HomeId) (d : SorCmd) (s : State) : Out := .next (s.sorRun h { d with w0 := putW d.w0 7 0 3 })
/-- WEIGHT. -/
def execWeight (h : HomeId) (d : SorCmd) (s : State) : Out := .next (s.sorRun h { d with w0 := putW d.w0 7 0 4 })
/-- QUERY. -/
def execQuery (h : HomeId) (d : SorCmd) (s : State) : Out := .next (s.sorRun h { d with w0 := putW d.w0 7 0 5 })

/-- SOR_CMD_SLOT_READ: the read of the slot at SOR_CMD_HEAD returns. A bad one stops consumption until the tail changes
and is logged; a good one is consumed and its command runs (R54). -/
def execSorCmdSlotRead (h : HomeId) (s : State) : Out :=
  .next (
    let a := cmdRingA h
    let head := s.fld (a + 0x18) 11 0
    if head = s.fld (a + 0x10) 11 0 ∨ (s.home h).slotStop = true then s
    else
      let slot := bitsN (s.rdCsr a) 51 12 * 4096 + 32 * head
      match s.dmaRead slot 32 with
      | (st, v) =>
        let s1 := s.dmaSeen { router := routerOfCh h, agent := 0 } slot 32
        if st ≠ 0 then (s1.modHome h (fun x => { x with slotStop := true })).hlog h 3 slot 0
        else
          (s1.putFld (a + 0x18) 11 0 ((head + 1) % 2 ^ s.fld (a + 8) 3 0)).sorRun h
            { w0 := BitVec.ofNat 64 v, w1 := BitVec.ofNat 64 (v / 2 ^ 64), slot := slot })

/-- A write of SOR_CMD_TAIL (R9, R53, R54): a write that changes the tail lets consumption go on. -/
def State.cmdTailWrite (s : State) (a : CsrReq) : Nat × State :=
  let own (w : CsrW) : Option Nat :=
    let b := w.pa - 0x10
    if badTail (2 ^ s.fld (b + 8) 3 0) (bitsN w.old 11 0) (s.fld (b + 0x18) 11 0) (bitsN w.new 11 0) then some 1 else none
  s.csrWrite a own (fun w s =>
    if w.old = w.new then s
    else s.modHome (6 * ((w.block - 544) / 16) + ((w.block - 544) % 16 - 8)) (fun x => { x with slotStop := false }))

/-- A write of SOR_CMD_BASE or SOR_CMD_SIZE (R54). -/
def State.cmdBaseWrite (s : State) (a : CsrReq) : Nat × State :=
  let own (w : CsrW) : Option Nat :=
    let b := w.pa / 0x100 * 0x100
    if s.fld (b + 0x18) 11 0 ≠ s.fld (b + 0x10) 11 0 then some 1
    else if w.pa % 0x100 = 0 ∧ bitsN w.val 51 48 ≠ 0 then some 1
    else none
  s.csrWrite a own (fun w s =>
    let b := w.pa / 0x100 * 0x100
    (s.putFld (b + 0x18) 11 0 0).putFld (b + 0x10) 11 0 0)

/-- SOR_CMD_TAIL. -/
def execSorCmdTail (h : HomeId) (value : Word) (q : Requester) (s : State) : Out :=
  .next (s.cmdTailWrite (wr8 (cmdRingA h + 0x10) value q)).2
/-- SOR_CMD_BASE. -/
def execSorCmdBase (h : HomeId) (value : Word) (q : Requester) (s : State) : Out :=
  .next (s.cmdBaseWrite (wr8 (cmdRingA h) value q)).2
/-- SOR_CMD_SIZE. -/
def execSorCmdSize (h : HomeId) (value : Word) (q : Requester) (s : State) : Out :=
  .next (s.cmdBaseWrite (wr8 (cmdRingA h + 8) value q)).2

end Sys2Proof.Machine
end

