-- ==== Sys2Proof/Machine/Capacity.lean ====
section
/-! DEFINITION. Epochs and the Sorrel coordinator: grants, revocation, the elastic ring, landing, and planned evacuation
(02_memory_tiers.md, R47, R64 to R77). -/

namespace Sys2Proof.Machine
open Sys2Proof

/-! ## Elastic frames -/

/-- Maximal runs of consecutive numbers of an ascending list, each at most 65,535 long: first and count. Where a longer run is cut
is the model's choice: the remainder comes first (log entry 111). -/
def runsOf : List Nat → List (Nat × Nat)
  | [] => []
  | f :: fs =>
    match runsOf fs with
    | (g, n) :: rs => if g = f + 1 ∧ n < 65535 then (f, n + 1) :: rs else (f, 1) :: (g, n) :: rs
    | [] => [(f, 1)]

/-- The granted elastic frames, ascending. -/
def State.elastic (s : State) : List Nat := (s.remap.filter (fun e => eElastic e.2)).map (fun e => e.1)

/-- The frames of a revocation that have not been returned. -/
def revFrames (r : ElrRec × List Nat) : List Nat := (spanN r.1.frame r.1.count).filter (fun f => !r.2.contains f)

/-- Frames under revocation (R69). -/
def State.underRev (s : State) : Nat := (s.coord.revs.map (fun r => (revFrames r).length)).sum + s.fld elrLostA 59 32

/-- Frames that the shortfall calls for (R69). -/
def State.calledFor (s : State) : Nat :=
  (4104 * s.fld grantedA 27 0 + 4096 * s.fld reserveA 27 0 - s.fld savedA 47 0 + 4103) / 4104

/-- The elastic frames not under revocation, largest use first, then lowest number (R69). -/
def State.revChoice (s : State) (n : Nat) : List Nat :=
  let fs := s.elastic.filter (fun f => !s.coord.revs.any (fun r => (revFrames r).contains f))
  let sorted := sortBy (fun a b => decide (s.useOf b < s.useOf a) || (decide (s.useOf a = s.useOf b) && decide (a ≤ b))) fs
  sortBy (fun a b => decide (a ≤ b)) (sorted.take n)

/-- A revocation of n frames that finds neither ring nor store: counted in UNPOSTED, with its deadline (R67). -/
def State.unpost (s : State) (n deadline : Nat) : State :=
  let c := s.coord
  ({ s with coord := { c with unposted := c.unposted ++ [(n, deadline)] } }).putFld elrLostA 59 32 (s.fld elrLostA 59 32 + n)

/-- REVOKE records for n frames with a deadline: one per run; what finds no room is counted in UNPOSTED (R67, R69). -/
def State.revoke (s : State) (n deadline : Nat) : State :=
  if s.elrFull then s.unpost n deadline
  else
    (runsOf (s.revChoice n)).foldl (fun (s : State) r =>
      if s.elrFull then s.unpost r.2 deadline
      else
        let x : ElrRec := { type := 2, frame := r.1, count := r.2, time := deadline }
        ({ s with coord := { s.coord with revs := s.coord.revs ++ [(x, [])] } }).postRec x) s

/-- Unposted revocations assigned to frames once there is room, each with its own deadline (R67). -/
def State.postUnposted (s : State) : State :=
  if s.fld elrLostA 59 32 = 0 ∨ s.elrFull = true then s
  else
    let c := s.coord
    c.unposted.foldl (fun (s : State) x => s.revoke x.1 x.2)
      (({ s with coord := { c with unposted := [] } }).putFld elrLostA 59 32 0)

/-- Unposted revocations of which n frames have been returned, the oldest first. -/
def cutUnposted : Nat → List (Nat × Nat) → List (Nat × Nat)
  | _, [] => []
  | n, (m, d) :: l => if m ≤ n then cutUnposted (n - m) l else (m - n, d) :: l

/-- BREACH: the frames called for exceed the frames under revocation; REVOKE records are posted for the excess (R69). -/
def execBreach (s : State) : Out :=
  .next (
    let ex := s.calledFor - s.underRev
    let free := s.elastic.length - s.underRev
    if ex = 0 then s else s.revoke (min ex free) (s.ctime.toNat + s.fld elrCtlA 16 0 * 1000))

/-- ELR_RECORD_WRITE: the write of the oldest waiting record into the ring ends with a status (R66). -/
def execElrRecordWrite (status : BitVec 8) (s : State) : Out :=
  .next (
    match s.coord.held with
    | [] => s
    | r :: rs =>
      if s.elrRoom = 0 then s
      else
        let size := 2 ^ s.fld elrSizeA 4 0
        let tail := s.fld elrTailA 15 0
        let phase := s.fld elrTailA 16 16
        let time := if r.type = 2 then r.time else s.ctime.toNat
        let v := phase + r.type * 16 + r.frame * 2 ^ 64 + r.count * 2 ^ 128 + time * 2 ^ 192
        let (st, s1) := if status = 0 then s.dmaWrite s.dseA (s.fld elrBaseA 51 12 * 4096 + 32 * tail) v 32 else (status.toNat, s)
        if st = 0 then
          let c := s1.coord
          let s2 := { s1 with coord := { c with held := rs } }
          let s3 := (s2.putFld elrTailA 15 0 ((tail + 1) % size)).putFld elrTailA 16 16
            (if tail + 1 = size then 1 - phase else phase)
          (s3.sendIrq elrIrqA).postUnposted
        else
          let c := s1.coord
          ({ s1 with coord := { c with stopped := true } }.putFlag capStatA 5 true).sendIrq elrIrqA)

/-- A write of SOR_ELR_HEAD (R9). -/
def State.elrHeadWrite (s : State) (a : CsrReq) : Nat × State :=
  s.csrWrite a (fun w =>
    if badHead (2 ^ s.fld elrSizeA 4 0) (s.fld elrTailA 15 0) (bitsN w.old 15 0) (bitsN w.new 15 0) then some 1 else none)
    (fun _ s => s.postUnposted)

/-- A write of SOR_ELR_BASE or SOR_ELR_SIZE: refused while records are unconsumed; an accepted one resets the indexes and
the phase, and posting goes on (R66). -/
def State.elrBaseWrite (s : State) (a : CsrReq) : Nat × State :=
  s.csrWrite a (fun w =>
    if s.fld elrHeadA 15 0 ≠ s.fld elrTailA 15 0 then some 1
    else if w.pa = elrBaseA ∧ bitsN w.val 51 48 ≠ 0 then some 1 else none)
    (fun _ s =>
      let s1 := ((s.putFld elrHeadA 15 0 0).putFld elrTailA 15 0 0).putFlag elrTailA 16 true
      ({ s1 with coord := { s1.coord with stopped := false } }).postUnposted)

/-- A frame's migration, queued actions and waiting PINs end when the frame is given up: their commands complete with
MIG_ABORTED, with OK after the switch, and with UNBACKED. -/
def State.unmig (s : State) (h f : Nat) : State :=
  let s1 : State := match s.migOf f with
    | some m =>
      if m.st = MigSt.drain then
        (((s.freePlace h m.src m.blocks).modHome h (fun x => { x with migs := x.migs.filter (fun y => decide (y.frame ≠ f)) })).sorDone?
          h m.cmd 0).migIdle h
      else s.migEnd h m 7
    | none => s
  let x := s1.home h
  let mine := x.acts.filter (fun a => decide (a.frame = f))
  let wait := x.waiters.filter (fun w => decide (w.frame = f))
  let s2 := s1.modHome h (fun x => { x with acts := x.acts.filter (fun a => decide (a.frame ≠ f)),
                                            waiters := x.waiters.filter (fun w => decide (w.frame ≠ f)) })
  (wait.foldl (fun (s : State) w => s.sorDone (s.hostCh h) w.slot 2 0) (mine.foldl (fun (s : State) a => s.sorDone? h a.cmd 2) s2))

/-- Storage of a frame given up and the frame UNBACKED (R68, R74): its bytes are gone; writes that waited for its space end with
UNBACKED, and the commands that waited for one on it go on. -/
def State.unback (s : State) (f : Nat) : State :=
  let h := f % 12
  let s0 := s.unmig h f
  let s1 := (s0.freePlace h (ePlace (s0.entry f)) (s0.dirBlocks f)).clearDir f
  let s2 := { s1.setEntry f 0 with mem := s1.mem.filter (fun c => decide (frameOf c.1 ≠ f)),
                                   poison := s1.poison.filter (fun c => decide (c.1 / 32768 ≠ f)) }
  let drop := (s2.home h).spill.filter (fun x => decide (frameOf x.pkt.addr = f))
  let convs := (s2.home h).convs.filter (fun c => decide (c.blk / 512 = f))
  let s3 := s2.modHome h (fun x => { x with
    cold := Map.set 0 x.cold f 0,
    spill := x.spill.filter (fun y => decide (frameOf y.pkt.addr ≠ f)), convs := x.convs.filter (fun c => decide (c.blk / 512 ≠ f)) })
  let s4 := convs.foldl (fun (s : State) c => (c.pkt :: (c.more ++ c.held)).foldl (fun (s : State) q => s.homeEnd q 1 0 0 false)
    (s.freeSec c.port c.sec 8)) s3
  (drop.foldl (fun (s : State) x => (x.pkt :: x.more).foldl (fun (s : State) q => s.homeEnd q 1 0 0 false) s) s4).wakeLater h f

/-! ## Planned evacuation: the start (R75 to R77, R111) -/

/-- Migrations queued ahead of automatic work, one for each frame of a list. -/
def State.queueMoves (s : State) (dest : Nat → Nat) (fs : List Nat) : State :=
  fs.foldl (fun (s : State) f => s.pushAct (f % 12) { frame := f, dest := dest f, port := none, auto := false, cmd := none }) s

/-- Frames that the near frames of a channel back: those of the home functions it hosts. -/
def State.nearOf (s : State) (ch : Nat) : List Nat := s.framesWhere (fun f e => decide (eKind e = 1 ∧ s.hostCh (f % 12) = ch))

/-- The far capacity that an evacuation leaves, and the sectors by which it lowers saved space (R76, R77). -/
def State.evacFar (s : State) (chan : Bool) (i : Nat) : Nat := s.fld capFarA 27 0 - (if chan then 0 else s.layout.portFrames i)
def State.evacLoss (s : State) (chan : Bool) (i : Nat) : Nat := 4096 * (if chan then (s.nearSpan i).length else s.layout.portFrames i)

/-- The ports that the evacuation of a port closes: in the assurance profile both of its pair (R110). -/
def State.evacPorts (s : State) (i : Nat) : List Nat := if s.profile = 2 then [i / 2 * 2, i / 2 * 2 + 1] else [i]

/-- The checks of R76 step 1: the grant rule with the target gone, and room in the far pool for what it holds. -/
def State.evacRule (s : State) (chan : Bool) (i : Nat) : Bool :=
  decide (4104 * s.fld grantedA 27 0 + 4096 * resOf (s.evacFar chan i) + s.evacLoss chan i ≤ s.fld savedA 47 0)
def State.evacPool (s : State) (chan : Bool) (i : Nat) : Bool :=
  if chan then decide ((s.nearOf i).length ≤ s.fld freeFarA 27 0)
  else decide (s.portUsed i ≤ s.fld freeFarA 27 0 - s.portFree i)

/-- Steps 2 and 3 start. A port closes, and every FAR and COMPRESSED frame on it is to move (R76). Every NEAR frame of the
channel's home functions is to move to far memory, with as many of its partner's as the moved shares need room (R77); in
the assurance profile the partner's own data is no longer mirrored on the channel (R111). -/
def State.evacGo (s : State) (chan : Bool) (i : Nat) : State :=
  let c := s.coord
  if chan then
    let s2 := { s with coord := { c with evac := some (true, i), evacWait := false } }
    let s3 := if s.profile = 2 then s2.putFld (chBase (i ^^^ 1) + 0x7000) 1 0 2 else s2
    (s3.queueMoves (fun _ => 1) (s.nearOf i)).evacMates
  else
    let s2 := { s with coord := { c with closed := c.closed ++ s.evacPorts i, evac := some (false, i), evacWait := false } }
    (s2.queueMoves (fun f => if eKind (s2.entry f) = 2 then 1 else 2)
      (s2.framesWhere (fun _ e => decide (ePort e ∈ s.evacPorts i ∧ (eKind e = 2 ∨ eKind e = 3))))).evacCheck

/-- An evacuation that waits for the returns of step 1 goes on when no frame is under revocation. -/
def State.evacReturned (s : State) : State :=
  match s.coord.evac with
  | some (chan, i) => if s.coord.evacWait && decide (s.underRev = 0) then s.evacGo chan i else s
  | none => s

/-- Whether an evacuation ends with DEST_OFFLINE; when it does is the model's choice (R75, Table 2.10, log entry 112): a port
without far frames or closed already, a channel that is not ACTIVE or whose partner, the destination, is not. -/
def State.evacOffline (s : State) (chan : Bool) (i : Nat) : Bool :=
  if chan then decide (12 ≤ i ∨ s.fld (chBase i) 23 20 ≠ 2 ∨ s.fld (chBase (i ^^^ 1)) 23 20 ≠ 2)
  else decide (s.layout.portFrames i = 0) || s.coord.closed.contains i

/-- An evacuation starts (R76, R77): it goes on where the space suffices; with FORCE it first revokes against the reduced
capacity and waits for the returns; else it ends with EVAC_NO_SPACE. A pair's far frames bear the number of its lower port
(R110). -/
def State.evacStart (s : State) (chan : Bool) (j : Nat) (force : Bool) : State :=
  let i := if !chan && decide (s.profile = 2) then j / 2 * 2 else j
  if s.evacOffline chan i then s.evacEnd 6 false
  else if s.evacRule chan i && s.evacPool chan i then s.evacGo chan i
  else if force then
    let n := (4104 * s.fld grantedA 27 0 + 4096 * resOf (s.evacFar chan i) + s.evacLoss chan i - s.fld savedA 47 0 + 4103) / 4104
    let s1 := s.revoke (n - s.underRev) (s.ctime.toNat + s.fld elrCtlA 16 0 * 1000)
    { s1 with coord := { s1.coord with evac := some (chan, i), evacWait := true } }.evacReturned
  else s.evacEnd 9 false

/-- Frames of revocations marked as returned; a run that is whole again posts REVOKE_DONE (R69). -/
def State.markReturned (s : State) (fs : List Nat) : State :=
  let upd := s.coord.revs.map (fun r => (r.1, r.2 ++ (revFrames r).filter (fun f => fs.contains f)))
  let done := upd.filter (fun r => (revFrames r).isEmpty)
  let s1 := { s with coord := { s.coord with revs := upd.filter (fun r => !(revFrames r).isEmpty) } }
  done.foldl (fun (s : State) r => s.postRec { r.1 with type := 3, time := 0 }) s1

/-- A write of SOR_ELR_RETURN (R68): refused when a frame of the run is not elastic and granted. -/
def State.elrReturnWrite (s : State) (a : CsrReq) : Nat × State :=
  let run (w : Word) : List Nat := spanN (bitsN w 26 0) (bitsN w 42 27 + 1)
  s.csrWrite a (fun w => if (run w.new).all (fun f => eElastic (s.entry f)) then none else some 1)
    (fun w s =>
      let fs := run w.new
      let under := fs.filter (fun f => s.coord.revs.any (fun r => (revFrames r).contains f))
      let s1 := fs.foldl (fun (s : State) f => s.unback f) s
      let s2 := s1.putFld grantedA 27 0 (s1.fld grantedA 27 0 - fs.length)
      let free := fs.length - under.length
      let s3 := ({ s2 with coord := { s2.coord with unposted := cutUnposted free s2.coord.unposted } }).putFld elrLostA 59 32
        (s2.fld elrLostA 59 32 - free)
      let s4 := (s3.markReturned fs).spillAll
      (((List.range 12).foldl (fun (s : State) h => s.pinsHome h) s4).evacReturned).evacCheck)

/-- SOR_ELR_HEAD. -/
def execSorElrHead (value : Word) (q : Requester) (s : State) : Out := .next (s.elrHeadWrite (wr8 elrHeadA value q)).2
/-- SOR_ELR_BASE. -/
def execSorElrBase (value : Word) (q : Requester) (s : State) : Out := .next (s.elrBaseWrite (wr8 elrBaseA value q)).2
/-- SOR_ELR_SIZE. -/
def execSorElrSize (value : Word) (q : Requester) (s : State) : Out := .next (s.elrBaseWrite (wr8 elrSizeA value q)).2
/-- SOR_ELR_RETURN. -/
def execSorElrReturn (value : Word) (q : Requester) (s : State) : Out :=
  .next (s.elrReturnWrite (wr8 (rasBase + 0x1000A0) value q)).2

/-! ## Epochs (R47, R50, R65) -/

/-- The lowest-numbered UNBACKED frames at or above B. -/
def State.unbackedFrom (s : State) (n : Nat) : List Nat :=
  ((spanN (s.fld capBaseA 27 0) (134217728 - s.fld capBaseA 27 0)).filter (fun f => decide (eKind (s.entry f) = 0))).take n

/-- The grants of an epoch boundary (R65): each frame becomes ZERO with ELASTIC = 1, and a GRANT record names each run. -/
def State.grantFrames (s : State) : State :=
  let room := (s.fld savedA 47 0 - 4096 * s.fld reserveA 27 0) / 4104 - s.fld grantedA 27 0
  let free := s.elrRoom - s.coord.held.length
  if s.flag (rasBase + 0x100000) 3 && decide (s.fld elrCtlA 60 33 ≤ room) && decide (0 < room) then
    let fs := s.unbackedFrom (min room (s.fld elrCtlA 32 17))
    ((runsOf fs).take free).foldl (fun (s : State) r =>
      let s1 := (spanN r.1 r.2).foldl (fun (s : State) f => s.setEntry f (mkEntry 4 0 0 ||| 0x100)) s
      (s1.putFld grantedA 27 0 (s1.fld grantedA 27 0 + r.2)).postRec { type := 1, frame := r.1, count := r.2, time := 0 }) s
  else s

/-- Whether an epoch boundary is due: a multiple of the length in force has passed since the last one (R47). -/
def State.epochDue (s : State) : Bool :=
  decide (s.coord.epochAt / (s.coord.lenUs * 1000) < s.ctime.toNat / (s.coord.lenUs * 1000))

/-- A home function at an epoch boundary: its count of automatic migrations restarts, and a scan starts when its period divides
the epoch number. The period is the one that the running scan began with; while none runs it is SOR_EPOCH.SCAN (R50). -/
def Home.atEpoch (x : Home) (e scan : Nat) : Home :=
  let y : Home := { x with started := 0, landed := false }
  if e % (if x.scanPos.isSome then x.scanLen else scan) = 0 then { y with scanPos := some 0, scanLen := scan } else y

/-- EPOCH_BOUNDARY: when one is due, the epoch counter advances, scans start, a new LEN_US takes effect, and the coordinator
grants elastic frames (R47, R50, R65). -/
def execEpochBoundary (s : State) : Out :=
  .next (
    if !s.epochDue then s
    else
      let c := s.coord
      let scan := s.fld (rasBase + 0x100008) 27 22
      let len := c.lenUs * 1000
      let s1 := { s with coord := { c with
        epoch := c.epoch + 1, lenUs := s.fld (rasBase + 0x100008) 16 0, epochAt := (c.epochAt / len + 1) * len } }
      ((List.range 12).foldl (fun (s : State) h => s.modHome h (fun x => x.atEpoch (c.epoch + 1) scan)) s1).grantFrames)

/-! ## Landing (R70 to R72) -/

/-- LAND: a held write's deadline has elapsed, or a posted revocation's has; the block lands, or its home function stalls. -/
def execLand (h : HomeId) (i : Nat) (s : State) : Out :=
  .next (
    match (s.home h).spill[i]? with
    | some x => if x.deadline ≤ s.ctime.toNat ∨ s.revLate = true then s.spillOne h x else s
    | none => s)

/-- REVOKE_DEADLINE: a posted revocation's deadline passes, and every held write lands at once (R70). -/
def execRevokeDeadline (s : State) : Out :=
  .next (
    if s.revLate then
      (List.range 12).foldl (fun (s : State) h => (s.home h).spill.foldl (fun (s : State) x => s.landOne h x) s) s
    else s)

/-- A COMPRESSED_LD frame's directory page moved back to far memory, on a port with room (R71). -/
def State.pageBack (s : State) (h f : Nat) : Option State :=
  let ps := s.layout.farPorts.filter (fun p => s.portUsable p && (s.allocSec h p 8 true).isSome)
  match ps[s.draw (max 1 ps.length)]? with
  | some p => (s.bump.allocSec h p 8 true).map (fun r =>
      (r.2.account f (fun s => s.setEntry f (eMove (s.entry f) { kind := 3, port := p, loc := r.1 / 8 }))).setSlot h (eLoc (s.entry f)) false)
  | none => none

/-- A LANDED block moved back to 8 sectors of its frame's port (R71). -/
def State.blockBack (s : State) (h f b : Nat) : Option State :=
  if s.portUsable (ePort (s.entry f)) then
    (s.allocSec h (ePort (s.entry f)) 8 false).map (fun r =>
      (r.2.account f (fun s => s.setDirEnt f b (mkDirEnt 2 8 r.1))).setSlot h (dSector (s.dirEnt f b)) false)
  else none

/-- The first of the landed data of a home function that finds room: directory pages by ascending frame, then blocks by ascending
frame and block. The order is the model's choice (R71, log entry 113). -/
def State.landedBack (s : State) (h : Nat) : Option State :=
  let pages := (s.remap.filter (fun e => decide (e.1 % 12 = h ∧ eKind e.2 = 5))).map (fun e => e.1)
  let blocks := (s.dirPages.filter (fun e => decide (e.1 / 512 % 12 = h ∧ dKind e.2 = 3 ∧ eKind (s.entry (e.1 / 512)) = 3))).map (fun e => e.1)
  match pages.findSome? (fun f => s.pageBack h f) with
  | some s1 => some s1
  | none => blocks.findSome? (fun k => s.blockBack h (k / 512) (k % 512))

/-- LANDED_MOVE_BACK: with the grant rule holding and a far frame free, a home function moves one directory page or one
LANDED block back to far sectors, between migrations (R71). -/
def execLandedMoveBack (h : HomeId) (s : State) : Out :=
  .next (
    if s.grantRule = false ∨ s.fld freeFarA 27 0 = 0 ∨ (s.home h).migs ≠ [] then s
    else match s.landedBack h with
      | some s1 => s1.spillAll
      | none => s)

/-! ## Planned evacuation: the hand-over and the register (R75, R77) -/

/-- Frames that home function h reserves (R34), as the hand-over of its shares counts them. -/
def shareFrames (h : Nat) : Nat := resFrames h

/-- Whether the DSE may not yet rewrite the home map: in an evacuation (R77), NEAR frames or landed data of the home function
are left, or its new host lacks free frames for the moved shares; otherwise, NEAR frames of the home function lie on
the channel that it would leave (R33). -/
def State.evacNotReady (s : State) (h ch : Nat) : Bool :=
  let near := decide (s.framesWhere (fun f e => decide (eKind e = 1 ∧ f % 12 = h)) ≠ [])
  if s.coord.evac = some (true, h) ∧ ch = h ^^^ 1 then
    s.coord.evacWait || near || s.slots.any (fun e => decide (e.1 / 2 ^ 17 = h)) ||
      (decide (s.profile ≠ 2) && decide ((s.freeOn ch).length < shareFrames h))
  else decide (s.hostCh h ≠ ch) && near

/-- A home agent that hosts no function any more has written back and emptied its caches (R77 step 4). -/
def State.agentLeft (s : State) (ch : Nat) : State :=
  let mine := (s.hagt ch).rcache.flatMap (fun e => e.2)
  { s.modHagt ch (fun x => { x with rcache := [], hdrs := [], dirs := [] }) with
    rstale := s.rstale.filter (fun e => !mine.contains e.1) }

/-- The hand-over of R77 step 4 takes effect when the home map names the new channel: the new host reserves frames for the
moved shares, N falls by the old channel's frames, and the evacuation is done. -/
def State.evacHandover (s : State) (h ch : Nat) : State :=
  match s.coord.evac with
  | some (true, old) =>
    if h = old ∧ ch = old ^^^ 1 then
      let n := (s.nearSpan old).length
      let take := (s.freeOn ch).take (shareFrames old)
      let s1 := if s.profile = 2 then s else s.modNch ch (fun x => { x with withheld := x.withheld ++ take })
      let lost := if s.profile = 2 then n else n + take.length
      let s2 := (s1.putFld savedA 47 0 (s1.fld savedA 47 0 - 4096 * lost)).putFld (chBase old) 23 20 4
      ((if s.profile = 2 then s2.wrCsr (chBase old + 0x7000) 0 else s2).agentLeft old).evacEnd 0 true
    else s
  | _ => s

/-- The hosting of home function h returns to channel h (R449): the frames of the channel that hosted it which its shares took
are free again. -/
def State.homeReturn (s : State) (h : Nat) : State :=
  let x := h ^^^ 1
  let kept := (s.nch x).withheld.filter (fun cf => s.dse.gone.contains [5, x, cf])
  let n := (s.nch x).withheld.length - kept.length
  (s.modNch x (fun y => { y with withheld := kept })).putFld savedA 47 0 (s.fld savedA 47 0 + 4096 * n)

/-- Whether a rewrite of the home map returns a home function to its own channel, from a host that it was moved to. -/
def State.homeReturns (s : State) (h ch : Nat) : Bool :=
  decide (ch = h ∧ s.hostCh h = h ^^^ 1 ∧ s.layout.homeCh.getD h 12 = h ∧ s.profile ≠ 2 ∧ s.fld (chBase h) 23 20 = 2)

/-- A write of SOR_EVAC (R75): a START while an evacuation runs is refused, and a channel number above 11 (R6). -/
def State.evacWrite (s : State) (a : CsrReq) : Nat × State :=
  s.csrWrite a (fun w =>
      if bitB w.val 8 && s.flag evacA 8 then some 1 else if bitB w.val 6 && decide (12 ≤ bitsN w.val 5 0) then some 1 else none)
    (fun w s =>
      if bitB w.val 8 then
        let s1 := ((s.putFlag evacA 8 true).putFlag evacA 17 false).putFld evacA 16 9 0
        s1.evacStart (bitB w.new 6) (bitsN w.new 5 0) (bitB w.new 7)
      else s)

/-- PORT_EVACUATION: a write of SOR_EVAC with KIND 0. -/
def execPortEvacuation (value : Word) (q : Requester) (s : State) : Out :=
  .next (s.evacWrite (wr8 evacA (putW (putB value 8 true) 6 6 0) q)).2
/-- CHANNEL_EVACUATION: a write of SOR_EVAC with KIND 1. -/
def execChannelEvacuation (value : Word) (q : Requester) (s : State) : Out :=
  .next (s.evacWrite (wr8 evacA (putW (putB value 8 true) 6 6 1) q)).2

/-- A write of SOR_THRESH: refused unless COLD < WARM ≤ HOT (Table 2.8). -/
def State.threshWrite (s : State) (a : CsrReq) : Nat × State :=
  s.csrWrite a (fun w =>
    if bitsN w.val 23 16 < bitsN w.val 15 8 ∧ bitsN w.val 15 8 ≤ bitsN w.val 7 0 then none else some 1) (fun _ s => s)

end Sys2Proof.Machine
end

