-- ==== Sys2Proof/Machine/Disable.lean ====
section
/-! DEFINITION. Way locking (R129 to R131) and the disabling of caches, ways and slices (R132 to R134). -/

namespace Sys2Proof.Machine
open Sys2Proof

/-! ## Locks -/

/-- The set bits of the low 16 of a number. -/
def popcount (n : Nat) : Nat := ((List.range 16).filter (fun i => n.testBit i)).length

/-- L3_STATUS.MAXLOCK by R130. -/
def maxLock (ways : Nat) : Nat := min 12 (ways - 4)

/-- L3_LOCKSTAT.RESULT of a slice set. -/
def State.lockResult (s : State) (t r : Nat) : State := s.putFld (tileBase t + 0x40018) 3 1 r

/-- LOCK of a line in its home slice (R129, R130): the reading of the line, the SnpS to an owner in M, the lock bit and
the result, in one step. A LOCK of a line that is locked already ends with OK and changes nothing, also in a full set (DESIGN
CHOICE, log entry 120). -/
def State.lockLine (s0 : State) (t line : Nat) : State :=
  let s := s0.pullBack line
  let d := s.dline line
  let inSet := (s.dir.filter (fun e => e.2.lock && decide (s.sliceOf e.1 = t) && decide (setOfLine e.1 = setOfLine line))).length
  if d.lock then s0.lockResult t 0
  else if s.fld (tileBase t + 0x40008) 5 2 ≤ inSet then s0.lockResult t 1
  else
    let ownM : Option Nat := match d.st with
      | .X o => if (s.l2line o line).st = .M then some o else none
      | _ => none
    match ownM with
    | some o =>
      let s1 := s.setL2 o line { s.l2line o line with st := .S }
      (((s1.modDir line (fun d => { d with st := .S [o] })).setWay line .dirty).modDir line (fun d => { d with lock := true })).lockResult t
        (if s.poisoned line then 4 else 0)
    | none =>
      let st := if d.way ≠ .none then 0 else s.homeStatus (line / 2 ^ 15)
      if st = 1 then (s.homeSees (line / 2 ^ 15) (agtNo (s.homeSlice line))).lockResult t 3
      else if st ≠ 0 then s.lockResult t 5
      else ((if s.dataHere line then s else s.homeSees (line / 2 ^ 15) (agtNo (s.homeSlice line))).fillClean line |>.modDir line (fun d => { d with lock := true })).lockResult t
        (if s.poisoned line then 4 else 0)

/-- A slice's locks cleared: a DIRTY line stays in its data way. -/
def State.unlockAll (s : State) (t : Nat) : State :=
  (s.dir.map (fun e => e.1)).foldl
    (fun (s : State) l => if s.sliceOf l = t then s.modDir l (fun d => { d with lock := false }) else s) s

/-- A write of L3_LOCKCMD (Table 4.5). -/
def State.lockCmdWrite (s : State) (a : CsrReq) : Nat × State :=
  let own (w : CsrW) : Option Nat :=
    let op := bitsN w.val 1 0
    if s.flag (blockBase w.block + 0x40018) 0 then some 1
    else if op < 2 ∧ (bitsN w.val 51 48 ≠ 0 ∨ s.sliceOf (bitsN w.val 47 6) ≠ w.block) then some 1
    else none
  s.csrWrite a own (fun w s =>
    let op := bitsN w.new 1 0
    let line := bitsN w.new 47 6
    if op = 0 then s.lockLine w.block line
    else if op = 1 then
      if (s.dline line).lock then (s.modDir line (fun d => { d with lock := false })).lockResult w.block 0
      else s.lockResult w.block 2
    else (s.unlockAll w.block).lockResult w.block 0)

/-- LOCK: a write of L3_LOCKCMD with OP = LOCK. -/
def execLock (t : TileId) (value : Word) (q : Requester) (s : State) : Out :=
  .next (s.lockCmdWrite (wr8 (tileBase t + 0x40010) (putW value 1 0 0) q)).2
/-- UNLOCK: a write of L3_LOCKCMD with OP = UNLOCK. -/
def execUnlock (t : TileId) (value : Word) (q : Requester) (s : State) : Out :=
  .next (s.lockCmdWrite (wr8 (tileBase t + 0x40010) (putW value 1 0 1) q)).2
/-- UNLOCK_ALL: a write of L3_LOCKCMD with OP = UNLOCK_ALL. -/
def execUnlockAll (t : TileId) (value : Word) (q : Requester) (s : State) : Out :=
  .next (s.lockCmdWrite (wr8 (tileBase t + 0x40010) (putW value 1 0 2) q)).2

/-! ## Disables -/

/-- Bits that a write turns from 0 to 1. -/
def risen (old new : Word) (hi lo : Nat) : Nat := bitsN (new &&& ~~~ old) hi lo

/-- The refusals of R133 that the two registers share: fewer than 4 enabled ways, a DISABLE write from 1 to 0 while
draining. -/
def badDisable (old new : Word) (draining : Bool) : Bool :=
  decide (12 < popcount (bitsN new 15 0)) || (bitB old 16 && !bitB new 16 && draining)

/-- A write of TILE_L2CFG: a new disable bit starts a drain (R132). -/
def State.l2cfgWrite (s : State) (a : CsrReq) : Nat × State :=
  s.csrWrite a (fun w => if badDisable w.old w.new (bitB w.old 17) then some 1 else none) (fun w s =>
    if risen w.old w.new 16 0 ≠ 0 then s.putFlag w.pa 17 true else s)

/-- Valid redirections (R117). -/
def State.redirs (s : State) : List (Nat × Word) :=
  ((List.range 16).map (fun i => (i, s.rdCsr (tileBase 0 + 0x40200 + 8 * i)))).filter (fun e => bitB e.2 20)

/-- Locked lines of a slice in a data way. -/
def State.lockedIn (s : State) (t way : Nat) : List Nat :=
  (s.dir.filter (fun e => e.2.lock && decide (e.2.wn = way) && decide (s.sliceOf e.1 = t))).map (fun e => e.1)

/-- A write of L3_CFG: a new disable bit starts a drain (R132); MAXLOCK follows the enabled ways (R130). A way that holds a locked
line is not disabled (R133). -/
def State.l3cfgWrite (s : State) (a : CsrReq) : Nat × State :=
  let own (w : CsrW) : Option Nat :=
    if badDisable w.old w.new (s.flag (blockBase w.block + 0x40008) 0) then some 1
    else if risen w.old w.new 16 16 ≠ 0 ∧ s.redirs.length = 16 then some 1
    else if (List.range 16).any (fun i => (risen w.old w.new 15 0).testBit i && !(s.lockedIn w.block i).isEmpty) then some 1
    else none
  s.csrWrite a own (fun w s =>
    if risen w.old w.new 16 0 ≠ 0 then s.putFlag (blockBase w.block + 0x40008) 0 true
    else s.putFld (blockBase w.block + 0x40008) 5 2 (maxLock (16 - popcount (bitsN w.new 15 0))))

/-- L2_DISABLE: a write of TILE_L2CFG that sets DISABLE or clears it. -/
def execL2Disable (t : TileId) (p : Fin 2) (value : Word) (q : Requester) (s : State) : Out :=
  .next (s.l2cfgWrite (wr8 (tileBase t + 0x30000 + 8 * p) value q)).2
/-- L2_WAY_DISABLE: a write of TILE_L2CFG.WAYDIS. -/
def execL2WayDisable (t : TileId) (p : Fin 2) (value : Word) (q : Requester) (s : State) : Out :=
  .next (s.l2cfgWrite (wr8 (tileBase t + 0x30000 + 8 * p) value q)).2
/-- L3_DISABLE: a write of L3_CFG.DISABLE. -/
def execL3Disable (t : TileId) (value : Word) (q : Requester) (s : State) : Out :=
  .next (s.l3cfgWrite (wr8 (tileBase t + 0x40000) value q)).2
/-- L3_WAY_DISABLE: a write of L3_CFG.WAYDIS. -/
def execL3WayDisable (t : TileId) (value : Word) (q : Requester) (s : State) : Out :=
  .next (s.l3cfgWrite (wr8 (tileBase t + 0x40000) value q)).2

/-- Private copies of a physical core given back to their slices: dirty data enters the data way (R133). A line that its slice is
busy with leaves by the eviction buffer. -/
def State.giveBack (s : State) (p : Nat) : List Nat → State
  | [] => s
  | l :: ls =>
    let st := (s.l2line p l).st
    let s1 := s.loseLine p l
    let s2 := if (s.dline l).busy.isSome then (s.l2Evict p l).getD s
      else match st with
      | .M => (s1.modDir l (fun d => { d with st := .U })).setWay l .dirty
      | .E => s1.modDir l (fun d => { d with st := .U })
      | .S => s1.modDir l (fun d => { d with st := d.st.drop p })
      | .I => s1
    State.giveBack s2 p ls

/-! ## Drains (R132 to R134)

A drain goes on with each CACHE_DRAIN_DONE: what it finds dirty in the affected ways it writes back, in ascending order of the
sets, as far as the eviction buffer has entries, and it ends when nothing affected is dirty or still being written back. So a line
that becomes dirty behind the walk is written back as well. -/

/-- Lines sorted by set. -/
def bySet (set : Nat → Nat) (n : Nat) (ls : List Nat) : List Nat :=
  if ls.isEmpty then [] else (List.range n).flatMap (fun k => ls.filter (fun l => decide (set l = k)))

/-- A line of a slice written back by a drain: its copies are recalled where the whole slice is disabled; dirty data waits for an
entry of the eviction buffer. -/
def State.drainLine (s : State) (recalls : Bool) (l : Nat) : State :=
  let d := s.dline l
  if d.busy.isSome || d.evb.isSome then s
  else
    let s1 := if recalls then (s.loseOthers 1088 l d.st.copies).modDir l (fun d => { d with st := .U }) else s
    let s2 := if recalls && s.copyDirty l then s1.setWay l .dirty else s1
    if (s2.dline l).way = .dirty ∧ s2.slicePuts (s2.sliceOf l) < 16 then s2.slicePutHome l else s2

/-- Whether a line still holds up a slice's drain. -/
def drainOpen (recalls : Bool) (d : DirLine) : Bool :=
  d.busy.isSome || d.evb.isSome || decide (d.way = .dirty) || (recalls && decide (d.st ≠ .U))

/-- The slice that takes over a disabled slice's lines (R117): tile XOR 1 when enabled, else the lowest-numbered enabled
slice of the same compute die. Where the die has none, the slice stands for itself (DESIGN CHOICE, log entry 119). -/
def State.redirTarget (s : State) (t : Nat) : Nat :=
  let en (u : Nat) : Bool := decide (u ≠ t) && !s.flag (tileBase u + 0x40000) 16 && !s.flag (tileBase u + 0x40008) 1
  if en (t ^^^ 1) then t ^^^ 1
  else ((List.range 544).find? (fun u => en u && decide (dieOfTile u = dieOfTile t))).getD t

/-- An entry of L3_REDIR written; every tile's copy is equal, and block 0 stands for all. -/
def State.setRedir (s : State) (i frm dest : Nat) (valid : Bool) : State :=
  s.wrCsr (tileBase 0 + 0x40200 + 8 * i) (BitVec.ofNat 64 (frm + dest * 2 ^ 10 + (if valid then 2 ^ 20 else 0)))

/-- The redirection of a disabled slice (R117): a free entry names it, and entries that named it as target follow. -/
def State.redirect (s : State) (t : Nat) : State :=
  let u := s.redirTarget t
  let s1 := s.redirs.foldl (fun (s : State) e =>
    if bitsN e.2 19 10 = t then s.setRedir e.1 (bitsN e.2 9 0) u true else s) s
  match (List.range 16).find? (fun i => !s.flag (tileBase 0 + 0x40200 + 8 * i) 20) with
  | some i => s1.setRedir i t u true
  | none => s1

/-- Data ways of lines emptied: dirty data goes to the home agent by an eviction, a lock ends. -/
def State.dropWays (s : State) : List Nat → State
  | [] => s
  | l :: ls =>
    let d := s.dline l
    let s1 := s.modDir l (fun d => { d with way := .none, wn := 0, lock := false })
    State.dropWays (if d.way = .dirty then s1.slicePutHome l else s1) ls

/-- The cutover of a slice disable (R134): private copies recalled, locks cleared, data ways empty, the redirection
written. Requests held for a line go on at the target slice. -/
def State.cutover (s : State) (t : Nat) : State :=
  let ls := (s.dir.filter (fun e => decide (s.sliceOf e.1 = t))).map (fun e => e.1)
  let s1 := ls.foldl (fun (s : State) l =>
    let s1 := (s.loseOthers 1088 l (s.dline l).st.copies).modDir l (fun d => { d with st := .U })
    (if s.copyDirty l then s1.setWay l .dirty else s1).dropWays [l]) s
  ((s1.redirect t).putFlag (tileBase t + 0x40008) 0 false).putFlag (tileBase t + 0x40008) 1 true

/-- The drain of a slice goes on; where nothing is left of it, the disable takes effect: a cutover, or ways that hold no line. -/
def State.sliceDrain (s : State) (t : Nat) : State :=
  let a := tileBase t + 0x40000
  let all := s.flag a 16 && !s.flag (a + 8) 1
  let mine (e : Nat × DirLine) : Bool := (all || (decide (e.2.way ≠ .none) && s.flag a e.2.wn) || e.2.evb.isSome) && decide (s.sliceOf e.1 = t)
  let ls := bySet setOfLine 2048 ((s.dir.filter mine).map (fun e => e.1))
  let s1 := ls.foldl (fun (s : State) l => s.drainLine all l) s
  if ls.any (fun l => drainOpen all (s1.dline l)) then s1
  else if all then s1.cutover t
  else ((ls.foldl (fun (s : State) l => (s.dropWays [l]).capTags l) s1).putFlag (a + 8) 0 false).putFld (a + 8) 5 2
    (maxLock (16 - popcount (s.fld a 15 0)))

/-- Evictions of lines of an L2, as far as its buffer has entries. -/
def State.evictAll (s : State) (p : Nat) : List Nat → State
  | [] => s
  | l :: ls => State.evictAll ((s.l2Evict p l).getD s) p ls

/-- The drain of an L2 goes on: modified lines of the affected ways leave first, then its clean lines with PutS or PutE (R133); it
ends when no line of them is left and their write-backs have ended. -/
def State.l2Drain (s : State) (p : Nat) : State :=
  let a := tileBase (p / 2) + 0x30000 + 8 * (p % 2)
  let mine (e : Nat × L2Line) : Bool := decide (e.1 / 2 ^ 42 = p) && (s.flag a 16 || s.flag a e.2.wn)
  let line (e : Nat × L2Line) : Nat := e.1 % 2 ^ 42
  let held := bySet (fun l => l % 1024) 1024 ((s.l2.filter (fun e => mine e && decide (e.2.st ≠ .I))).map line)
  let dirty := held.filter (fun l => decide ((s.l2line p l).st = .M))
  let s1 := s.evictAll p (if dirty.isEmpty then held else dirty)
  let busy := s1.l2.any (fun e => decide (e.1 / 2 ^ 42 = p) && e.2.evb.any (fun x => decide (x.1 = .M)))
  if busy || held.any (fun l => decide ((s1.l2line p l).st ≠ .I)) then s1 else s1.putFlag a 17 false

/-- CACHE_DRAIN_DONE: the drain of an L2 (0, 1) or the slice (2) of a tile goes on, and where nothing is left of it the disable
takes effect (R132 to R134). -/
def execCacheDrainDone (t : TileId) (which : Fin 3) (s : State) : Out :=
  .next (
    if which.val < 2 then (if s.flag (tileBase t + 0x30000 + 8 * which.val) 17 then s.l2Drain (2 * t.val + which.val) else s)
    else if s.flag (tileBase t + 0x40008) 0 then s.sliceDrain t
    else s)

end Sys2Proof.Machine
end

