-- ==== Sys2Proof/Machine/SysReg.lean ====
section
/-! DEFINITION. Core system registers as MFSR reads them and MTSR, MSSET and MSCLR write them: the copy that an sr names
(R200, R222, R383), the level it needs (R203), the fields that a write changes and the writes that are refused (R204,
R223, Tables 7.4 to 7.14, 8.2, 10.1, 13.2, 13.5). -/

namespace Sys2Proof.Machine
open Sys2Proof

/-! ## Which register an sr names -/

/-- What an sr names for an access: an ordinary register or copy, a register of the current guest slot, a fault. -/
inductive SrSel where
  | reg (n : Nat) (guest : Bool)
  | illegal
  | priv
  | privPl2
  deriving DecidableEq, Repr

/-- Whether an access to a counter or sampling register by a guest is one of an assigned counter (R383). -/
def Core.assigned (k : Core) (n : Nat) : Bool :=
  n = 0x302 ||
  (((0x308 ≤ n && n ≤ 0x317) || (0x320 ≤ n && n ≤ 0x327)) && bitB (k.srv 0x318) (n % 8))

/-- The register that an access by MFSR (`rd`) or a write names (R200, R202, R203, R383). -/
def Core.srSel (k : Core) (sr : Nat) (rd : Bool) : SrSel :=
  let n := if 0x800 ≤ sr then sr - 0x800 else sr
  match srLevel n with
  | none => .illegal
  | some l =>
    if 0x800 ≤ sr then
      if !(srBanked n || srSlot n) then .illegal
      else if k.vf then .privPl2
      else if k.pl < 2 then .priv
      else .reg n true
    else if k.vf then
      if srBanked n then (if k.pl < l then .priv else .reg n true)
      else if srSlot n then (if k.slotCur.isNone then .privPl2 else if k.pl < l then .priv else .reg n true)
      else if srPmu n && k.assigned n then (if k.pl < l then .priv else .reg n true)
      else .privPl2
    else
      let uread := rd && bitB (k.srv 0x301) 1 && (n = 0x300 || (0x308 ≤ n && n ≤ 0x30F))
      if k.pl < l && !uread then .priv else .reg n false

/-- The address of the slot register behind a slot-banked number. -/
def State.slotSr (s : State) (c n : Nat) : Nat :=
  let sl := bitsN ((s.core c).srv 0x120) 3 0
  if n < 0x108 then s.slotAddr c sl (8 * (n - 0x100))
  else if n < 0x110 then s.slotAddr c sl (0x40 + 8 * (n - 0x108))
  else s.slotAddr c sl 0x80

/-- The key of a shadow register in the banks (R215). -/
def Core.shadKey (k : Core) (n : Nat) (guest : Bool) : Nat := 8 * (if guest then 4 else k.bankNo) + (n - 0x048)

/-- The value of a register. A guest view of status takes PL, V, SHB, SVC and EIP from the core. -/
def State.srRead (s : State) (c n : Nat) (guest : Bool) : Word :=
  let k := s.core c
  if 0x048 ≤ n ∧ n ≤ 0x04F then Map.get 0 k.bank (k.shadKey n guest)
  else if n = 0x111 then 0
  else if guest then
    if n = 0x000 then (s.srVal c 0 &&& 0x18F) ||| (k.srv 0x800 &&& 0x70)
    else if n = 0x110 then
      let ctl := s.rdCsr (s.slotSr c n)
      BitVec.ofNat 64 (bitsN ctl 29 26 + bitsN ctl 45 30 * 2 ^ 4)
    else if srSlot n then s.rdCsr (s.slotSr c n)
    else if n = 0x302 then k.srv n &&& BitVec.ofNat 64 (bitsN (k.srv 0x318) 7 0)
    else if srPmu n then k.srv n
    else k.srv (0x800 + n)
  else s.srVal c n

/-- What an instruction reads of a register: the cycle count has grown by a free amount (log entry 89). -/
def State.srSee (s : State) (c n : Nat) (guest : Bool) : Word :=
  if n = 0x300 then s.srRead c n guest + Config.freeWord (s.free + 2 ^ 64 * (n + 1)) else s.srRead c n guest
def State.seen (s : State) (n : Nat) : State := if n = 0x300 then s.bump else s

/-- What a snapshot copies of a register: a running counter of a speculative event has grown since it was last counted. -/
def State.srSnap (s : State) (c n : Nat) : Word :=
  let k := s.core c
  if decide (0x308 ≤ n ∧ n ≤ 0x30F) && bitB (k.srv 0x301) 0 && bitB (k.srv (n + 8)) 16 && specEvents.contains (bitsN (k.srv (n + 8)) 7 0) then
    s.srRead c n false + Config.freeWord (s.free + 2 ^ 64 * (n + 1))
  else s.srSee c n false

/-! ## Fields -/

/-- A 64-bit RW register without fields. -/
def rw64 : List Fld := [fl 63 0 .RW 0 0 (2 ^ 64 - 1)]

/-- The writable fields of a register, with their ranges; bits not listed are RO or RSV. -/
def srFlds (n : Nat) (guest : Bool) : List Fld :=
  if n = 0x000 then [fl 4 4 .RW 0 0 1, fl 5 5 .RW 0 0 1, fl 6 6 .RW 0 0 1]
  else if n = 0x010 ∨ n = 0x020 ∨ n = 0x030 then [fl 17 0 .RW 0 0 (2 ^ 18 - 1)]
  else if n = 0x013 ∨ n = 0x023 ∨ n = 0x033 then [fl 29 0 .RW 0 0 (2 ^ 30 - 1)]
  else if n = 0x014 ∨ n = 0x024 ∨ n = 0x034 then [fl 1 0 .RW 0 0 (n / 16), fl 5 2 .RW 0 0 15]
  else if n = 0x015 ∨ n = 0x025 ∨ n = 0x035 then [fl 0 0 .RW 0 0 1, fl 63 12 .RW 0 0 (2 ^ 52 - 1)]
  else if 0x010 ≤ n ∧ n ≤ 0x036 then rw64
  else if n = 0x040 ∨ n = 0x042 then rw64
  else if n = 0x041 then [fl 2 0 .RW 0 0 7, fl 5 4 .RW 0 0 3]
  else if 0x050 ≤ n ∧ n ≤ 0x052 then [fl 31 0 .RW 0 0 (2 ^ 32 - 1)]
  else if n = 0x053 then [fl 0 0 .RW 0 0 1]
  else if n = 0x060 then [fl 2 0 .RW 0 0 7, fl 6 4 .RW 0 0 7, fl 10 8 .RW 0 0 7, fl 14 12 .RW 0 0 7]
  else if n = 0x071 then [fl 16 16 .RW1C 0 0 1]
  else if 0x100 ≤ n ∧ n ≤ 0x107 then [fl 63 0 .RW1C 0 0 (2 ^ 64 - 1)]
  else if 0x108 ≤ n ∧ n ≤ 0x10F then rw64
  else if n = 0x110 then [fl 19 0 .RW 0 0 (2 ^ 20 - 1)]
  else if n = 0x112 then [fl 31 0 .RW 0 0 (2 ^ 32 - 1)]
  else if n = 0x120 then [fl 4 0 .RW 0 0 31]
  else if n = 0x130 then rw64
  else if n = 0x131 then [fl 9 0 .RW 0 0 1023]
  else if n = 0x200 then (if guest then [fl 0 0 .RW 0 0 1, fl 2 2 .RW 0 0 1] else [fl 2 0 .RW 0 0 7])
  else if n = 0x201 then [fl 15 0 .RW 0 0 65535]
  else if n = 0x202 ∨ n = 0x204 then [fl 0 0 .RW 0 0 1, fl 51 12 .RW 0 0 (2 ^ 40 - 1)]
  else if n = 0x208 then [fl 15 0 .RW 0 0 65535, fl 18 16 .RW 0 0 4, fl 63 19 .RW 0 0 (2 ^ 45 - 1)]
  else if n = 0x209 ∨ n = 0x212 then rw64
  else if n = 0x20A then [fl 11 0 .RW 0 0 3135]
  else if n = 0x210 then [fl 8 0 .RW 0 0 511]
  else if n = 0x211 then [fl 8 0 .RW 0 0 511, fl 11 9 .RW 0 0 3, fl 51 12 .RW 0 0 (2 ^ 40 - 1)]
  else if n = 0x300 ∨ (0x308 ≤ n ∧ n ≤ 0x30F) ∨ (0x320 ≤ n ∧ n ≤ 0x327) then rw64
  else if n = 0x301 then [fl 11 0 .RW 0 0 4095]
  else if n = 0x302 then [fl 7 0 .RW1C 0 0 255]
  else if 0x310 ≤ n ∧ n ≤ 0x317 then [fl 16 0 .RW 0 0 (2 ^ 17 - 1)]
  else if n = 0x318 then [fl 26 0 .RW 0 0 (2 ^ 27 - 1)]
  else if n = 0x330 then [fl 4 0 .RW 0 6 16, fl 51 12 .RW 0 0 (2 ^ 40 - 1)]
  else if n = 0x331 then [fl 15 0 .RW 0 0 65535]
  else if n = 0x333 then
    [fl 0 0 .RW 0 0 1, fl 30 4 .RW 1000000 10000 100000000, fl 31 31 .RW 0 0 1, fl 47 32 .RW 32 0 65535]
  else if n = 0x400 then [fl 15 0 .RW 0xFFFF 0 65535]
  else if n = 0x401 then [fl 1 0 .RW 0 0 3]
  else []

/-- Core event codes (Table 13.3), and those of kind R. -/
def evListed (e : Nat) : Bool :=
  e ≤ 0x0E || (0x10 ≤ e && e ≤ 0x26) || (0x28 ≤ e && e ≤ 0x2C)
def evRetired (e : Nat) : Bool := (1 ≤ e && e ≤ 0x0E) || (0x28 ≤ e && e ≤ 0x2C)

/-- Codes of Table 7.6 that a delegation register may name (Table 7.7). -/
def delegOk (n : Nat) : Word := if n = 0x050 then 0x0700DFFE else 0x0700CFFE

/-- A change of fram_ctl that R213 does not let a level make (Table 7.8). -/
def framBad (pl : Nat) (old new : Word) : Bool :=
  (List.range 4).any (fun q =>
    decide (bitsN old (4 * q + 2) (4 * q) ≠ bitsN new (4 * q + 2) (4 * q)) &&
      (decide (pl < bitsN old (4 * q + 1) (4 * q)) || decide (pl < bitsN new (4 * q + 1) (4 * q))))

/-- The cause of a refused write of a value: 1 RANGE, 3 CONFLICT (R204, R223, R379, R474). The level that rstatus.PPL may not pass is
the writer's (DEDUCED, log entry 128). -/
def State.srCause (s : State) (c n : Nat) (guest : Bool) (v : Word) : Option Nat :=
  let k := s.core c
  let t := k.srv 0x131
  let own := bitsN t 11 10
  let range : Bool := badRange (srFlds n guest) v (BitVec.allOnes 64) ||
    (if n = 0x014 ∨ n = 0x024 ∨ n = 0x034 then bitB v 2 && bitB v 1
     else if n = 0x041 then (bitB v 2 && bitB v 1) || decide (k.pl < bitsN v 1 0)
     else if n = 0x015 ∨ n = 0x025 ∨ n = 0x035 then bitB v 0 && decide (bitsN v 63 14 ≠ 0)
     else if 0x050 ≤ n ∧ n ≤ 0x052 then decide (v &&& 0xFFFFFFFF &&& ~~~ delegOk n ≠ 0)
     else if n = 0x060 then framBad k.pl (k.srv n) v
     else if n = 0x112 then (List.range 16).any (fun i => decide (bitsN v (2 * i + 1) (2 * i) = 0))
     else if n = 0x211 then decide (bitsN v 11 9 = 1)
     else if 0x310 ≤ n ∧ n ≤ 0x317 then
       !evListed (bitsN v 7 0) ||
         (bitB v 15 && (!evRetired (bitsN v 7 0) || bitB (k.srv 0x318) (n % 8)))
     else if n = 0x330 then decide (2 ^ 48 < bitsN v 51 12 * 2 ^ 12 + 64 * 2 ^ bitsN v 4 0)
     else if n = 0x331 then
       badHead (2 ^ bitsN (k.srv 0x330) 4 0) (k.srv 0x332).toNat (k.srv 0x331).toNat (bitsN v 15 0)
     else false)
  let conflict : Bool :=
    if n = 0x130 then decide (own ≠ 1)
    else if n = 0x131 then
      (bitB v 12 && decide (own ≠ 0)) || (decide (bitsN v 9 0 ≠ bitsN t 9 0) && decide (own ≠ 1))
    else if n = 0x333 then bitB v 1 && decide (own ≠ 0)
    else false
  if conflict then some 3 else if range then some 1 else none

/-- The timer fires when it is armed, enabled, owned by the operating system and due (R224). -/
def State.timerDue (s : State) (c : Nat) : State :=
  let k := s.core c
  let t := k.srv 0x131
  if bitB t 15 && bitB t 0 && decide (bitsN t 11 10 = 1) && decide ((k.srv 0x130).toNat ≤ s.ctime.toNat) then
    (s.modCore c (fun k => k.setSr 0x131 (putB t 15 false))).pend c (bitsN t 9 1)
  else s

/-- The highest bit of a 16-bit ISR cleared (R219). -/
def isrPop (isr : Nat) : Nat :=
  match highBit isr 16 with
  | some b => isr - 2 ^ b
  | none => isr

/-- The bits of a register that a level may not write (R204, Tables 7.4, 8.2, 10.1). -/
def srKeep (n pl : Nat) : Word :=
  if n = 0x000 then (if pl < 2 then 0x60 else if pl < 3 then 0x40 else 0)
  else if n = 0x200 then (if pl < 2 then 2 else 0)
  else if n = 0x401 then (if pl < 1 then 2 else 0)
  else 0

/-- A hint inserted as the most recent, in place of any with its tag (R239). -/
def Core.addHint (k : Core) (v : Word) : Core :=
  let h : Hint :=
    { guest := k.vf, vmid := if k.vf then bitsN (k.srv 0x210) 8 0 else 0,
      asid := if bitB v 0 then none else some (bitsN (k.srv (bk k.vf 0x201)) 15 0),
      region := (k.srv (bk k.vf 0x042)).toNat / 2 ^ 21 % 2 ^ 36, table := bitsN v 51 12 * 2 ^ 12 }
  { k with hints := (h :: k.hints.filter (fun x =>
      !(x.guest == h.guest && x.vmid == h.vmid && x.asid == h.asid && x.region == h.region))).take 64 }

/-- The effect of an accepted write, by register. -/
def State.srPut (s : State) (c n : Nat) (guest : Bool) (v : Word) : State :=
  let k := s.core c
  let key := if guest && srBanked n then 0x800 + n else n
  let fl := srFlds n guest
  let keep := srKeep n k.pl
  let v' := (v &&& ~~~ keep) ||| (k.srv key &&& keep)
  let new := newVal fl (k.srv key) v'
  let plain := s.modCore c (fun k => k.setSr key new)
  if 0x048 ≤ n ∧ n ≤ 0x04F then
    s.modCore c (fun k => { k with bank := Map.set 0 k.bank (k.shadKey n guest) v })
  else if guest && srSlot n then
    let a := s.slotSr c n
    if n < 0x108 then s.wrCsr a (s.rdCsr a &&& ~~~ v)
    else if n < 0x110 then s.wrCsr a v
    else if n = 0x110 then (s.putFld a 29 26 (bitsN v 3 0)).putFld a 45 30 (bitsN v 19 4)
    else if bitB v 0 then s.putFld a 45 30 (isrPop (s.fld a 45 30)) else s
  else if n = 0x111 then
    if bitB v 0 then s.modCore c (fun k => k.setSr 0x110 (putW (k.srv 0x110) 19 4 (isrPop (bitsN (k.srv 0x110) 19 4))))
    else s
  else if n = 0x071 then
    if bitB v 16 then s.modCore c (fun k => k.setSr 0x071 (k.srv 0x071 &&& 0xFF)) else s
  else if n = 0x130 then (plain.modCore c (fun k => k.setSr 0x131 (putB (k.srv 0x131) 15 true))).timerDue c
  else if n = 0x131 then
    let t1 := if bitB v 12 then putB (putW new 11 10 1) 14 false else new
    let t2 := if bitB v 13 && decide (bitsN t1 11 10 = 1) then putB (putW t1 11 10 0) 0 false else t1
    (s.modCore c (fun k => k.setSr 0x131 t2)).timerDue c
  else if n = 0x204 then (s.modCore c (fun k => (k.setSr key new).addHint v))
  else if n = 0x302 then
    let m := if guest then BitVec.ofNat 64 (bitsN (k.srv 0x318) 7 0) else 0xFF
    s.modCore c (fun k => k.setSr 0x302 (k.srv 0x302 &&& ~~~ (v &&& m)))
  else if n = 0x330 then
    plain.modCore c (fun k => { ((k.setSr 0x331 0).setSr 0x332 0).setSr 0x334 0 with sampQ := [], sampDrop := 0 })
  else if n = 0x333 then
    let own := bitsN (k.srv 0x131) 11 10
    if bitB v 1 then
      plain.modCore c (fun k =>
        ((k.setSr 0x333 (putB new 3 false)).setSr 0x131 (putB (putW (k.srv 0x131) 11 10 2) 14 false)).setSr 0x130
          (s.ctime + BitVec.ofNat 64 (bitsN v 30 4)))
    else if bitB v 2 && decide (own = 2) then plain.modCore c (fun k => k.setSr 0x131 (putW (k.srv 0x131) 11 10 0))
    else plain
  else plain

/-- What a refused write leaves: a REJECT log entry of the tile block, and the CONFLICT status of a lost claim (R204,
R223, R379, R473). -/
def State.srRefuse (s : State) (c sr n : Nat) (v : Word) (cause : Nat) : State :=
  let s1 := s.reject (s.phys c / 2) (BitVec.ofNat 64 (2 ^ 63 + 2 ^ 12 * s.posOf c + sr)) v cause (s.reqOf c)
  if cause = 3 then
    let s2 := s1.modCore c (fun k => k.setSr 0x131 (putB (k.srv 0x131) 14 true))
    if n = 0x333 then s2.modCore c (fun k => k.setSr 0x333 (putB (k.srv 0x333) 3 true)) else s2
  else s1

/-- A write of a value to a register by an instruction. -/
def State.srWrite (s : State) (c sr n : Nat) (guest : Bool) (v : Word) : State :=
  match s.srCause c n guest v with
  | some cause => s.srRefuse c sr n v cause
  | none => s.srPut c n guest v

/-- An access to a system register by an S-format instruction: the exception it raises, or f for the register. -/
def State.srAccess (s : State) (c sr : Nat) (rd : Bool) (f : Nat → Bool → State) : State :=
  match (s.core c).srSel sr rd with
  | .illegal => s.illegal c
  | .priv => s.priv c
  | .privPl2 => s.trapPl2 c { code := 0x02 }
  | .reg n g => f n g

/-- The instruction retires after its effect. -/
def State.done (s : State) (c : Nat) : State := s.fin c [] false id

/-- MTSR of a register's value. -/
def State.mtsr (s : State) (c ra sr : Nat) : State :=
  s.run c (s.srAccess c sr false (fun n g => (s.srWrite c sr n g (s.rg c ra)).done c))

end Sys2Proof.Machine
end

