-- ==== Sys2Proof/Machine/Interrupt.lean ====
section
/-! DEFINITION. Interrupts, error traps and the timer (07_privilege_traps_interrupts.md, R211, R212, R217 to R225). -/

namespace Sys2Proof.Machine
open Sys2Proof

/-- INTERRUPT_TAKEN: at an instruction boundary the first of ERR_CORE, ERR_STORE, a physical and a posted interrupt that
applies is taken (R211). -/
def execInterruptTaken (c : CoreId) (s : State) : Out := .next (s.run c s)

/-- ERR_STORE: a completion with a status other than OK is latched; the trap is taken at the next boundary (R212). -/
def execErrStore (c : CoreId) (pa : BitVec 52) (status : BitVec 8) (s : State) : Out :=
  .next (if status = 0 then s else s.modCore c (fun k => k.latchErr pa.toNat status.toNat))

/-- ERR_CORE: a lost register or store address; the trap is taken at the first boundary after the core resumes (R436). -/
def execErrCore (c : CoreId) (s : State) : Out :=
  .next (s.modCore c (fun k => { k with errCore := true }))

/-- TIMER_CMP_WRITE: an MTSR to timer_cmp (R223, R224). -/
def execTimerCmpWrite (c : CoreId) (ra : Reg) (s : State) : Out := .next (s.mtsr c ra 0x130)
/-- TIMER_CLAIM: an MTSR to timer_ctl (R223). -/
def execTimerClaim (c : CoreId) (ra : Reg) (s : State) : Out := .next (s.mtsr c ra 0x131)
/-- TIMER_RELEASE: an MTSR to timer_ctl (Table 7.14). -/
def execTimerRelease (c : CoreId) (ra : Reg) (s : State) : Out := .next (s.mtsr c ra 0x131)
/-- INT_EOI: an MTSR to int_eoi (R219). -/
def execIntEoi (c : CoreId) (ra : Reg) (s : State) : Out := .next (s.mtsr c ra 0x111)

/-- TIMER_FIRE: ctime has reached timer_cmp: the vector is pended (R224), or, under sampling ownership, the next interval
begins and an INTERVAL record of the oldest unretired instruction is queued (R379). -/
def execTimerFire (c : CoreId) (s : State) : Out :=
  .next (
    let k := s.core c
    let ctl := k.srv 0x333
    if bitsN (k.srv 0x131) 11 10 = 2 then
      if bitB ctl 0 && decide ((k.srv 0x130).toNat ≤ s.ctime.toNat) && !bitB (s.rdCsr (keyBase + 0x10)) 32 then
        let cls := if k.run = .wfi then 5 else s.draw 5
        let r : List Word :=
          [sampWord0 2 0 k.pl k.vf 0 0 c (if k.vf then bitsN (k.srv 0x210) 8 0 else 0) (bitsN (k.srv (bk k.vf 0x201)) 15 0),
            k.pc, 0, 0, BitVec.ofNat 64 (cls * 2 ^ 40), s.ctime, 0, 0]
        s.bump.modCore c (fun k => (k.setSr 0x130 (s.ctime + BitVec.ofNat 64 (bitsN ctl 30 4))).pushSample r)
      else s
    else s.timerDue c)

end Sys2Proof.Machine
end

