-- ==== Sys2Proof/Machine/Flit.lean ====
section
/-! DEFINITION. Flits: the layout of a packet's header and data field on a link (R145, R146, Tables 5.2 and 5.3). -/

namespace Sys2Proof
open Machine

/-- Whether a packet has a second flit, with its byte mask (Table 5.3). -/
def opTwo : Op → Bool
  | .WrP | .HWrP | .PWrP => true
  | _ => false

/-- The ADDR field of a header (Table 5.2): the physical address [51:6] of a request or a snoop; STATUS, GRANT, DIRTY and DETAIL of a
response; the argument of a maintenance packet; 0 for a mark. The line that a response answers is known by its TXID alone: the
packet record of the model carries it beside the header. -/
def Pkt.addrField (p : Pkt) : Nat :=
  if opIsMark p.op then 0
  else if clsNo (opCls p.op) = 4 then
    p.status % 2 ^ 8 + p.grant % 2 ^ 2 * 2 ^ 8 + (if p.dirty then 2 ^ 10 else 0) + p.detail % 2 ^ 8 * 2 ^ 11
  else if clsNo (opCls p.op) = 5 then p.addr % 2 ^ 46
  else p.addr / 2 ^ 6 % 2 ^ 46

/-- The 96-bit header of a packet (Table 5.2). -/
def Pkt.header (p : Pkt) : BitVec 96 :=
  let b (x : Bool) (n : Nat) : Nat := if x then 2 ^ n else 0
  BitVec.ofNat 96 (b p.epoch 0 + b p.leg 1 + b p.poison 2 + b p.repoch 3 +
    p.dst.router % 36 * 2 ^ 4 + p.dst.router / 36 % 16 * 2 ^ 10 + p.dst.agent % 8 * 2 ^ 14 +
    p.src.router % 36 * 2 ^ 17 + p.src.router / 36 % 16 * 2 ^ 23 + p.src.agent % 8 * 2 ^ 27 +
    p.txid % 2 ^ 12 * 2 ^ 30 + opCode p.op % 2 ^ 7 * 2 ^ 42 + p.addrField * 2 ^ 49)

/-- A flit of 608 bits: its header in the low 96, its data field above. -/
def flitOf (h : BitVec 96) (d : Line) : BitVec 608 := BitVec.ofNat 608 (h.toNat + d.toNat * 2 ^ 96)

/-- The flits of a packet, in order (R145, R146): line data byte i stands in data-field bits [8i+7:8i]; the second flit of a partial
write carries the byte mask in [63:0]. -/
def Pkt.flits (p : Pkt) : List (BitVec 608) :=
  flitOf p.header p.data :: (if opTwo p.op then [flitOf p.header (BitVec.ofNat 512 (p.mask % 2 ^ 64))] else [])

end Sys2Proof
end

