-- ==== Sys2Proof/Machine/Near.lean ====
section
/-! DEFINITION. The events and registers of the near channels (03_near_memory_integrity.md, R81 to R109). -/

namespace Sys2Proof.Machine
open Sys2Proof

/-! ## Refresh and temperature (R81, R82, R401) -/

/-- RECENTRE: the read phase of a rank is recentred together with one refresh of the rank. -/
def execRecentre (ch : HomeId) (rank : Fin 4) (s : State) : Out :=
  .next (s.modNch ch (fun n => { n with postponed := Map.set 0 n.postponed rank (Map.get 0 n.postponed rank - 1) }))

/-- REFRESH: at TREFI the rank is refreshed with the refreshes postponed so far, or during a burst one more is postponed,
up to NMC_REFRESH.POSTPONE. -/
def execRefresh (ch : HomeId) (rank : Fin 4) (burst : Bool) (s : State) : Out :=
  .next (
    let p := Map.get 0 (s.nch ch).postponed rank
    let p' := if burst && decide (p < s.fld (chBase ch + 0x108) 16 13) then p + 1 else 0
    s.modNch ch (fun n => { n with postponed := Map.set 0 n.postponed rank p' }))

/-- A thermal event: EVENT, and the interrupt that PWR_THERM_IRQ names (R401). -/
def State.thermEvent (s : State) : State := (s.putFlag (pwrBase + 0x28) 50 true).sendIrq (pwrBase + 0x30)

/-- DRAM_THERMAL_EVENT: the DRAM temperature of a channel is reported; above 85 °C its DRAM bit reads 1. -/
def execDramThermalEvent (ch : HomeId) (degC : Nat) (s : State) : Out :=
  .next (
    let was := s.flag (pwrBase + 0x28) (38 + ch)
    let hot := decide (85 < degC)
    let s1 := (s.modNch ch (fun n => { n with degC := degC })).putFlag (pwrBase + 0x28) (38 + ch) hot
    if hot && !was then s1.thermEvent else s1)

/-! ## Regions (R83 to R85) -/

/-- A write of NMC_REGION that R84 refuses. -/
def State.regionBad (s : State) (ch r : Nat) (old new : Word) : Bool :=
  let lo := bitsN new 14 0
  let hi := bitsN new 30 16
  let overlap := (List.range 16).any (fun i => decide (i ≠ r) && bitB (s.nregion ch i) 32 &&
    decide (bitsN (s.nregion ch i) 14 0 ≤ hi) && decide (lo ≤ bitsN (s.nregion ch i) 30 16))
  (bitB new 32 && (decide (hi < lo) || decide (s.fld (chBase ch) 19 4 ≤ hi) || decide (lo < s.layout.nearLo.getD ch 0) || overlap ||
      (bitB new 33 && (!bitB new 34 || decide (s.profile = 2))))) ||
    (bitB old 32 && (decide (bitsN old 14 0 ≠ lo) || decide (bitsN old 30 16 ≠ hi) || (bitB old 34 != bitB new 34))) ||
    s.flag (chBase ch + 0x1080) 4

/-- A write of NMC_REGION: an accepted one that changes the code of a frame starts a conversion (R85). -/
def State.regionWrite (s : State) (a : CsrReq) : Nat × State :=
  let chOf (w : CsrW) : Nat := 6 * ((w.block - 544) / 16) + ((w.block - 544) % 16 - 8)
  s.csrWrite a (fun w => if s.regionBad (chOf w) (w.ix.headD 0) w.old w.new then some 1 else none) (fun w s =>
    let ch := chOf w
    let was := bitB w.old 32 && bitB w.old 33
    let is := bitB w.new 32 && bitB w.new 33
    if was == is then s
    else
      (s.modNch ch (fun n => { n with convLine := 0, convOld := was })).wrCsr (chBase ch + 0x1080)
        (BitVec.ofNat 64 (w.ix.headD 0 + 16 + bitsN w.new 14 0 * 32)))

/-- NMC_REGION_WRITE. -/
def execNmcRegionWrite (ch : HomeId) (r : Fin 16) (value : Word) (q : Requester) (s : State) : Out :=
  .next (s.regionWrite (wr8 (chBase ch + 0x1000 + 8 * r) value q)).2

/-- A line read by a conversion is written under the code that its frame now has: the conversion point passes it, and ends behind
the last line of the frame `limit`; the line takes a new WSTAMP in a light region, and it is poisoned where it was, or where the
read found it uncorrectable (R85, R89). -/
def State.convPut (s : State) (ch cf ln limit : Nat) (bad : Bool) : State :=
  let s1 := s.modNch ch (fun n => { n with convLine := (ln + 1) % 32768 })
  let a := chBase ch + 0x1080
  let u := if ln + 1 < 32768 then s1 else if cf < limit then s1.putFld a 19 5 (cf + 1) else s1.putFlag a 4 false
  let poison := bad || Map.get false (s.nch ch).marks (nkey cf ln)
  u.dramPut ch cf ln poison (some (s.coord.epoch % 8192))

/-- CONVERSION_LINE: the next line of a conversion is read under the old code and written under the new one, poisoned when
it is uncorrectable; while the channel is not ACTIVE a conversion pauses (R85). -/
def execConversionLine (ch : HomeId) (e : DramEnv) (s : State) : Out :=
  .next (
    let conv := s.rdCsr (chBase ch + 0x1080)
    if !bitB conv 4 || decide (s.fld (chBase ch) 23 20 ≠ 2) then s
    else
      let cf := bitsN conv 19 5
      let ln := (s.nch ch).convLine
      let limit := bitsN (s.nregion ch (bitsN conv 3 0)) 30 16
      let s0 := s.forceLine ch cf ln
      let lost := (s0.dramSees ch cf ln e.own).isLost
      let (bad, wrong, s1) := s0.dramRead ch cf ln 2 e
      let s2 := match s.sysLine ch cf ln with
        | some sl => if wrong then s1.wrongData sl else s1
        | none => s1
      (if bad && lost then s2.poisonWritten ch cf ln 2 else s2).convPut ch cf ln limit bad)

/-! ## Reads, merges and scrubs (R86 to R95) -/

/-- Whether the bytes that a merge entry adds to a read of its line arrived poisoned (Table 3.9, R98). -/
def State.mergePoison (s : State) (ch cf line : Nat) : Bool := (s.mergeOf ch cf line).any (fun x => decide (x.pmask ≠ 0))

/-- NEAR_READ_DONE: the DRAM read of the oldest demand read of a line returns and is decoded (R86 to R88, R107); a corrected line
is written back when NMC_SCRUB.DEMAND = 1 (R94); the read is answered. -/
def execNearReadDone (ch : HomeId) (cf line : Nat) (e : DramEnv) (s : State) : Out :=
  .next (
    match (s.nch ch).reads.find? (fun r => decide (r.2.1 = cf ∧ r.2.2 = line)) with
    | none => s
    | some r =>
      let s0 := s.modNch ch (fun n => { n with reads := takeOut r n.reads })
      let ce := (s0.dramSees ch cf line e.own).isCorrected
      let (bad, wrong, s1) := s0.dramRead ch cf line 0 e
      let s2 := if wrong then s1.wrongRead ch cf line r.1.line else s1
      let s3 := if ce then s2.homeEv (homeOf r.1.addr) 0x10 else s2
      let s4 := if ce && s.flag (chBase ch + 0x3000) 9 then s3.dramRestore ch cf line else s3
      s4.homeEnd r.1 0 0 (s4.rdLine r.1.line) (bad || s4.mergePoison ch cf line))

/-- MERGE_FORCE: the window of a merge entry has elapsed, and the entry is forced (R92). -/
def execMergeForce (ch : HomeId) (i : Fin 32) (e : DramEnv) (s : State) : Out :=
  .next (
    match (s.nch ch).merge[i.val]? with
    | some x =>
      if x.time + s.fld (chBase ch + 0x2000) 6 0 ≤ s.ctime.toNat then
        (s.forceEnt ch x e).ucnt (chBase ch) 0 6 0xF (fun f => !f.testBit 4)
      else s
    | none => s)

/-- SCRUB_READ: the patrol scrubber reads its next line; corrections and poison are written back, and a pass over a frame
without poison clears its POISONED bit (R93, R100). -/
def execScrubRead (ch : HomeId) (e : DramEnv) (s : State) : Out :=
  .next (
    let a := chBase ch + 0x3000
    let c := s.fld (chBase ch) 19 4
    if !s.flag a 8 ∨ c = 0 ∨ s.fld (chBase ch) 23 20 ≠ 2 then s
    else
      let cf := s.fld a 24 10
      let ln := (s.nch ch).scrubLine
      let r := s.dramSees ch cf ln e.own
      let (bad, _, s1) := s.dramRead ch cf ln 1 e
      let s2 := if r.isCorrected then s1.dramRestore ch cf ln else s1
      let s3 := if bad && r.isLost then s2.poisonWritten ch cf ln 1 else s2
      let pois := (s.nch ch).scrubPoison || bad
      if ln + 1 < 32768 then s3.modNch ch (fun n => { n with scrubLine := ln + 1, scrubPoison := pois })
      else
        let s4 := s3.modNch ch (fun n => { n with scrubLine := 0, scrubPoison := false })
        let s5 := match s4.sysOf ch cf with
          | some f => if pois then s4 else s4.setEntry f (putB (s4.entry f) 9 false)
          | none => s4
        if cf + 1 < c then s5.putFld a 24 10 (cf + 1)
        else (s5.putFld a 24 10 0).putFld a 63 32 ((s5.fld a 63 32 + 1) % 2 ^ 32))

/-- Address of a bucket: 0 the channel's, 1 to 4 the ranks', 5 to 20 the regions'. -/
def bktA (ch b : Nat) : Nat := chBase ch + (if b = 0 then 0x4000 else if b < 5 then 0x4008 + 8 * (b - 1) else 0x4040 + 8 * (b - 5))

/-- The ctime of the last multiple of a bucket's LEAK_US x 1,000 after the one up to which it has leaked, when one has passed. -/
def State.leakDue (s : State) (ch b : Nat) : Option Nat :=
  let len := s.fld (bktA ch b) 47 32 * 1000
  let next := (Map.get 0 (s.nch ch).leakAt b / len + 1) * len
  if len = 0 ∨ s.ctime.toNat < next then none else some next

/-- BUCKET_LEAK: at each ctime tick that is a multiple of its LEAK_US x 1,000, a bucket's LEVEL decreases by 1, unless it is 0
(R95). -/
def execBucketLeak (ch : HomeId) (b : Fin 21) (s : State) : Out :=
  .next (match s.leakDue ch b with
    | some t => (s.putFld (bktA ch b) 15 0 (s.fld (bktA ch b) 15 0 - 1)).modNch ch (fun n => { n with leakAt := Map.set 0 n.leakAt b t })
    | none => s)

/-- A write of a bucket: clearing OVF clears OVF_CNT (R95). -/
def State.bktWrite (s : State) (a : CsrReq) : Nat × State :=
  s.csrWrite a (fun _ => none) (fun w s => if bitB w.old 48 && !bitB w.new 48 then s.putFld w.pa 56 49 0 else s)

/-! ## Row sparing (R102 to R104) -/

/-- A write of NMC_SPARE: a START by a requester below PL3, or while a sparing runs, is refused (Table 3.15). -/
def State.spareWrite (s : State) (a : CsrReq) : Nat × State :=
  s.csrWrite a (fun w =>
    if s.flag w.pa 24 then some 1 else if bitB w.val 24 && !(w.req.dse || decide (3 ≤ w.req.lvl)) then some 1 else none)
    (fun w s => if bitB w.val 24 then s.putFlag w.pa 24 true else s)

/-- NMC_SPARE_START: a write of NMC_SPARE with START = 1. -/
def execNmcSpareStart (ch : HomeId) (value : Word) (q : Requester) (s : State) : Out :=
  .next (s.spareWrite (wr8 (chBase ch + 0x6000) (putB value 24 true) q)).2

/-- The device that the newest error record for a row names; none where it is unknown or no record is for the row. -/
def State.rowDevice (s : State) (ch rank bg bank row : Nat) : Option Nat :=
  let b := chBase ch
  let n := s.fld (b + 0x5200) 4 0
  let idx := (List.range 32).map (fun i => (n + 31 - i) % 32)
  match idx.find? (fun i =>
      let w := s.rdCsr (b + 0x5008 + 16 * i)
      (decide (w ≠ 0) || decide (s.rdCsr (b + 0x5000 + 16 * i) ≠ 0)) &&
        decide (s.dramAt ch (bitsN w 14 0) (bitsN w 29 15) = (rank, bg, bank, row))) with
  | some i =>
    let d := bitsN (s.rdCsr (b + 0x5008 + 16 * i)) 36 32
    if d < 20 then some d else none
  | none => none

/-- The channel frame that holds a row. -/
def State.frameOfRow (s : State) (ch rank row : Nat) : Nat := (rank * 2 ^ (17 + s.rowBits ch) + row * 2 ^ 17) / 2 ^ 21

/-- A near frame leaves the pool for good (R104): N falls by 1, and its system frame migrates, to a free near frame of the
channel when there is one, else to FAR. -/
def State.retireNear (s : State) (ch cf : Nat) : State :=
  if (s.nch ch).withheld.contains cf || !(s.nearSpan ch).contains cf then s
  else
  let s0 := { s with dse := { s.dse with gone := s.dse.gone ++ [[5, ch, cf]] } }
  let s1 := (s0.modNch ch (fun n => { n with withheld := n.withheld ++ [cf] })).putFld savedA 47 0 (s.fld savedA 47 0 - 4096)
  match s1.sysOf ch cf with
  | some f => s1.pushAct (f % 12) { frame := f, dest := if (s1.freeNear (f % 12)).isSome then 0 else 1, port := none, auto := false, cmd := none }
  | none => s1

/-- A line of a row within its frame, by column (Table 3.2). -/
def rowLine (bg bank row col : Nat) : Nat :=
  row % 16 * 2048 + col / 32 * 512 + (bank ^^^ (row / 4 % 4)) * 128 + col % 32 * 4 + (bg ^^^ (row % 4))

/-- The sparing of the row that NMC_SPARE names ends (R102, R104): the row's lines that are not clean are read with SOURCE
7, the uncorrectable ones written back poisoned; then the soft repair of the device or devices, or NO_SPARE, or
SPARE_FAIL. Answers the STATUS. -/
def State.spareEnd (s0 : State) (ch : Nat) (ok : Bool) (lines : List (Fin 128 × DramEnv)) : Nat × State :=
  let a := chBase ch + 0x6000
  let rank := s0.fld a 1 0
  let bg := s0.fld a 3 2
  let bank := s0.fld a 5 4
  let row := s0.fld a 23 6
  let devs := match s0.rowDevice ch rank bg bank row with
    | some d => [d]
    | none => List.range 20
  let key (d : Nat) : Nat := (20 * s0.physRank ch rank + d) * 4 + bg
  let cf := s0.frameOfRow ch rank row
  let fin (s : State) (st : Nat) : Nat × State := (st, (s.putFld a 27 25 st).putFlag a 24 false)
  if devs.any (fun d => decide (2 ≤ Map.get 0 (s0.nch ch).repairs (key d))) then fin (s0.retireNear ch cf) 1
  else
    let s := lines.foldl (fun (s : State) x =>
      let ln := rowLine bg bank row x.1
      let lost := (s.dramSees ch cf ln x.2.own).isLost
      let (bad, wrong, s1) := s.dramRead ch cf ln 7 x.2
      let s2 := match s.sysOf ch cf with
        | some f => if wrong then s1.wrongRead ch cf ln (32768 * f + ln) else s1
        | none => s1
      if bad && lost then s2.poisonWritten ch cf ln 7 else s2.dramRestore ch cf ln) s0
    if !ok then fin s 2
    else
      let s1 := s.modNch ch (fun n =>
        { n with repairs := devs.foldl (fun (m : Map Nat) d => Map.set 0 m (key d) (Map.get 0 m (key d) + 1)) n.repairs,
                 soft := n.soft ++ [[s.physRank ch rank, bg, bank, row] ++ devs] })
      fin ((s1.nmcLog ch cf (rowLine bg bank row 0) (if devs.length = 1 then devs.headD 31 else 31) 5 7).ledger 0x21
        ([ch, rank, bg, bank, row] ++ devs)) 0

/-! ## Training (R78, R80) -/

/-- Ranks that a channel runs with of those that pass (R80). -/
def ranksUsed (populated pass : Nat) : Nat :=
  if pass = 0 then 0 else if populated = 4 then (if pass = 4 then 4 else if pass = 1 then 1 else 2) else min populated pass

/-- The ranks that a channel runs with: the lowest-numbered passing ones (R80). -/
def ranksKept (populated : Nat) (pass : List Nat) : List Nat :=
  let ok := (List.range populated).filter (fun r => pass.contains r)
  ok.take (ranksUsed populated ok.length)

/-- A channel becomes FAILED, with its log record and DRST_N low (R80, R101, R464). -/
def State.chFail (s : State) (ch rank cls : Nat) : State :=
  let s1 := (s.nmcRec ch 0 0 rank 31 cls 6).putFld (chBase ch) 23 20 3
  { s1 with pins := { s1.pins with drst := Map.set false s1.pins.drst ch false } }

/-- A channel in service becomes FAILED, and the DSE is told (R81, R432). -/
def State.chanLost (s : State) (ch : Nat) : State :=
  let s1 := s.putFld (chBase ch) 23 20 3
  { s1 with pins := { s1.pins with drst := Map.set false s1.pins.drst ch false } }.report 0x1C ch 7 2 0

/-- Cold training of a channel: a rank that fails is logged and disabled (R78, R80). -/
def State.trainCold (s : State) (ch : Nat) (e : ChanEnv) : State :=
  let b := chBase ch
  let ok := decide (e.density = 0 ∧ (e.ranks = 1 ∨ e.ranks = 2 ∨ e.ranks = 4)) || decide (e.density = 1 ∧ (e.ranks = 1 ∨ e.ranks = 2))
  let bad := (List.range e.ranks).filter (fun r => !e.pass.contains r)
  let used := ranksUsed e.ranks (e.ranks - bad.length)
  if s.fld b 23 20 = 3 then s
  else if !ok then s.chFail ch 0 7
  else
    let s1 := bad.foldl (fun (s : State) r => s.nmcRec ch 0 0 r 31 7 6) s
    if used = 0 then
      { s1.putFld b 23 20 3 with pins := { s1.pins with drst := Map.set false s1.pins.drst ch false } }
    else
      (((((s1.putFld b 2 0 used).putFld b 3 3 e.density).putFld b 19 4 (8192 * (e.density + 1) * used)).putFld b 23 20 2).putFld
        (b + 0x100) 31 24 (if e.density = 0 then 110 else 160)).modNch ch (fun n => { n with ranks := ranksKept e.ranks e.pass })

/-- The checkers of a channel have been tested (R101). -/
def State.checkersTested (s : State) (ch : Nat) (bad : Bool) : State :=
  let a := chBase ch + 0x8000
  let s1 := (s.putFlag a 0 true).putFlag a 1 bad
  if bad then s1.chFail ch 0 6 else s1

/-! ## Mirroring and replacement (R106, R108, R109, R449) -/

/-- Home function h is hosted at channel ch: its entry in every copy of the home map. -/
def State.setHomemap (s : State) (h ch : Nat) : State :=
  s.wrCsr (tileBase 0 + 0x40100 + 8 * h) (BitVec.ofNat 64 (ch / 6 + (8 + ch % 6) * 2))

/-- A pair whose survivor c has carried both home functions since start-up takes the layout of R105 (R106): the second half of
c's frames is from now on the mirror of channel p's primary frames, in whose numbers home function p's near frames are
then kept. -/
def State.pairSplit (s : State) (c p : Nat) : State :=
  let l := s.layout
  let lo := l.nearLo.getD c 0
  let n := (l.nearHi.getD c 0 - lo) / 2
  let moved (k cf : Nat) : Bool := decide (k = c ∧ lo + n ≤ cf)
  let l1 := { l with
    homeCh := setAt l.homeCh p p, nearFirst := setAt l.nearFirst p (l.nearFirst.getD p 0 - n), nearLo := setAt l.nearLo p lo,
    nearHi := setAt (setAt l.nearHi c (lo + n)) p (lo + n),
    subst := l.subst.map (fun (x : Nat × Nat × Nat) => if moved x.1 x.2.1 then (p, x.2.1 - n, x.2.2 - n) else x) }
  let out := (s.nch c).withheld.filter (fun cf => moved c cf)
  let s1 := { s with
    layout := l1,
    remap := s.remap.map (fun (e : Nat × Word) => if e.1 % 12 = p ∧ eKind e.2 = 1 then (e.1, putW e.2 47 18 (eLoc e.2 - n)) else e),
    nearSys := s.nearSys.foldl (fun (m : Map (Option Nat)) (e : Nat × Option Nat) =>
      let k := if moved (e.1 / 2 ^ 16) (e.1 % 2 ^ 16) then 2 ^ 16 * p + (e.1 % 2 ^ 16 - n) else e.1
      Map.set (l1.nearSys (k / 2 ^ 16) (k % 2 ^ 16)) m k e.2) [] }
  (s1.modNch c (fun x => { x with withheld := x.withheld.filter (fun cf => !out.contains cf) })).modNch p (fun x =>
    { x with withheld := x.withheld ++ out.map (fun cf => cf - n) })

/-- The copy of a frame's lines in the mirror frame that the returning channel takes, with their stored marks (R87, R109). -/
def State.resilvered (s : State) (c : Nat) : State :=
  let p := c ^^^ 1
  let ms := (s.nch c).marks
  s.modNch p (fun n => { n with errs := [], marks := ms.foldl (fun (m : Map Bool) (e : Nat × Bool) =>
    Map.set false m (nkey (s.mirFrame c (e.1 / 32768)) (e.1 % 32768)) e.2) [] })

/-- RESILVER_DONE: every frame of the returning channel's layout has been copied from the survivor `ch`; its home function
moves back and the pair is MIRRORED (R109, R106). -/
def execResilverDone (ch : HomeId) (s : State) : Out :=
  .next (
    let c := ch.val
    let p := c ^^^ 1
    if s.fld (chBase c + 0x7000) 1 0 ≠ 3 then s
    else
      let s0 := if s.layout.homeCh.getD p 12 = c then s.pairSplit c p else s
      let s1 := ((s0.resilvered c).putFld (chBase c + 0x7000) 1 0 1).putFld (chBase p + 0x7000) 1 0 1
      (s1.setHomemap p p).putFld (chBase p) 23 20 2)

/-- Frames that a replacement of a channel must have: as many as the survivor that has carried the pair since start-up (R106),
else those of its own layout (R105). -/
def State.framesNeeded (s : State) (ch : Nat) : Nat :=
  if s.layout.homeCh.getD ch 12 = ch then 2 * s.layout.nearHi.getD ch 0 - s.layout.nearLo.getD ch 0
  else s.fld (chBase (ch ^^^ 1)) 19 4

/-- A new near channel in service (R449): in the assurance profile its pair enters RESILVER; in the others its frames join N,
and its home function's near frames leave the channel that hosts it, so that the hosting can move back. -/
def State.chanBack (s : State) (ch : Nat) : State :=
  if s.profile = 2 then
    if s.fld (chBase ch) 19 4 < s.framesNeeded ch then s.chFail ch 0 7
    else
      let p := ch ^^^ 1
      ((s.putFld (chBase ch + 0x7000) 35 0 (3 + p * 4)).putFld (chBase p + 0x7000) 35 0 (3 + ch * 4))
  else
    let l := s.layout
    let s1 := { s with layout := { l with nearHi := setAt l.nearHi ch (max (l.nearLo.getD ch 0) (s.fld (chBase ch) 19 4)) } }
    let s2 := s1.putFld savedA 47 0 (s1.fld savedA 47 0 + 4096 * (s1.nearSpan ch).length)
    s2.queueMoves (fun _ => 1) (s2.framesWhere (fun f e => decide (eKind e = 1 ∧ f % 12 = ch)))

/-- The modules of a near channel that was EVACUATED, or FAILED in the assurance profile, have been exchanged; its checkers are
tested and the channel is trained (R449). A channel that failed outside the assurance profile stays FAILED. `was` is the
STATE before its power was removed. -/
def State.chanUp (s : State) (ch was : Nat) (e : ChanEnv) (ok : Bool) : State :=
  if was = 4 ∨ (was = 3 ∧ s.profile = 2) then
    let mine (l : List Nat) : Bool := match l with
      | [5, c, _] => decide (c = ch)
      | _ => false
    let s1 := ({ s with dse := { s.dse with gone := s.dse.gone.filter (fun l => !mine l) } }).setNch ch NearCh.reset
    let s2 := s1.checkersTested ch (!ok)
    let s3 := (s2.trainCold ch e).putFlag (chBase ch) 63 true
    if s3.fld (chBase ch) 23 20 = 2 then s3.chanBack ch else s3
  else s.putFld (chBase ch) 23 20 was

end Sys2Proof.Machine
end

