-- ==== Sys2Proof/Machine/Tlb.lean ====
section
/-! DEFINITION. TLB instructions, stage 2, hints and invalidation (08_translation.md, R233 to R252). -/

namespace Sys2Proof.Machine
open Sys2Proof

/-! ## Entries -/

/-- Set of an address in the L2 TLB by page size, or in the fully associative part (Table 8.4). -/
def tlbSet (size va : Nat) : Nat :=
  if size = 0 then va / 2 ^ 12 % 256 else if size = 1 then va / 2 ^ 16 % 256 else va / 2 ^ 21 % 256
/-- Set of a GPA in the stage-2 TLB by page size. -/
def s2Set (size gpa : Nat) : Nat :=
  if size = 0 then gpa / 2 ^ 12 % 64 else if size = 2 then gpa / 2 ^ 21 % 64 else gpa / 2 ^ 30 % 64

/-- Whether an index lies in the set or the part that a size selects (R236). -/
def idxFits (idx size va : Nat) : Bool :=
  if size < 3 then decide (idx < 3072) && decide (idx / 12 = tlbSet size va)
  else decide (3072 ≤ idx) && decide (idx < 3136)

/-- Whether two pages overlap, by page number and size. -/
def overlaps (v1 s1 v2 s2 : Nat) : Bool :=
  let b := max (pageBits s1) (pageBits s2) - 12
  decide (v1 / 2 ^ b = v2 / 2 ^ b)

/-- A page number aligned to its size. -/
def alignVpn (vpn size : Nat) : Nat := vpn / 2 ^ (pageBits size - 12) * 2 ^ (pageBits size - 12)

/-- A TLB without the entries that a test selects: each loses V. -/
def killWhere (m : Map (Option TlbEntry)) (p : TlbEntry → Bool) : Map (Option TlbEntry) :=
  m.map (fun e => (e.1, match e.2 with
    | some t => if p t then some { t with val := putB t.val 0 false } else some t
    | none => none))

/-- A bad value for TLBWR or S2WR (R236). -/
def badEntry (val : Word) (size : Nat) (s2 : Bool) : Bool :=
  rV val && (rT val || rRsv val || (rW val && !rR val) ||
    (if s2 then rCONT val else rCONT val != decide (size = 1)))

/-- tlb_hi or s2_hi of an entry. -/
def hiOf (t : TlbEntry) (s2 : Bool) : Word :=
  if s2 then BitVec.ofNat 64 (t.vmid + t.size * 2 ^ 9 + t.vpn * 2 ^ 12)
  else BitVec.ofNat 64 (t.asid + t.size * 2 ^ 16 + t.vpn * 2 ^ 19)

/-- The level and field checks of a translation op (Table 8.5): f when they pass. -/
def State.tlbOp (s : State) (c : Nat) (ok : Bool) (lvl : Nat) (f : State) : State :=
  s.run c (if !ok then s.illegal c else if (s.core c).pl < lvl then s.priv c else f)

/-- An op writes rd and retires. -/
def State.setRd (s : State) (c rd : Nat) (v : Word) : State := (s.wg c rd v).done c

/-! ## TLBWR and S2WR (R235, R236, R244, R245) -/

/-- What a guest TLBWR combines with: an S2_REFILL, or the combined value and size. -/
inductive Comb where
  | refill (gpa : Nat) (cause : Word)
  | ok (val : Word) (size : Nat)

/-- The entry that a guest TLBWR writes, combined with the stage-2 TLB (R244, R245). -/
def Core.combine (k : Core) (val : Word) (size vpn : Nat) : Comb :=
  let gpa := mapAddr val size (vpn * 2 ^ 12) % 2 ^ 52
  match k.findS2 (bitsN (k.srv 0x210) 8 0) gpa with
  | none => .refill gpa (s2cause false 0 0)
  | some (_, t) =>
    let held := (if rR val && !rR t.val then 1 else 0) + (if rW val && !rW t.val then 2 else 0) +
      (if rX val && !rX t.val then 4 else 0) + (if rW val && rD val && !rD t.val then 8 else 0)
    if held ≠ 0 then .refill gpa (s2cause true 0 held)
    else
      let sz := min size t.size
      let pa := mapAddr t.val t.size gpa
      let v1 := putW (val &&& 0x1FD) 51 12 (pa / 2 ^ 12)
      .ok (putB (putB v1 10 (rSE val || rSE t.val)) 11 (decide (sz = 1))) sz

/-- The index, of n from lo, that replacement chooses: a free choice among those that hold no entry or one not recently used, and
among all where every one is recently used (R233, log entry 129). -/
def State.nruPick (s : State) (c : Nat) (m : Map (Option TlbEntry)) (s2 lo n : Nat) : Nat :=
  let live (i : Nat) : Bool := match Map.get none m i with
    | some t => rV t.val
    | none => false
  let all := (List.range n).map (lo + ·)
  let old := all.filter (fun i => !live i || !Map.get false s.nru (8192 * c + s2 + i))
  let l := if old.isEmpty then all else old
  l.getD (s.draw l.length) lo

/-- An entry written at an index of n from lo counts as recently used; where then every entry is, the others no longer do. -/
def State.nruMark (s : State) (c s2 lo n i : Nat) : State :=
  let key (j : Nat) : Nat := 8192 * c + s2 + j
  let m := Map.set false s.nru (key i) true
  let all := (List.range n).map (lo + ·)
  { s with nru := if all.all (fun j => Map.get false m (key j)) then
      all.foldl (fun m j => Map.set false m (key j) (decide (j = i))) m else m }

/-- The first index and the number of those that hardware replacement chooses from for a page (Table 8.4): the wired ways and indexes
are left out. -/
def tlbRange (size va : Nat) : Nat × Nat := if size < 3 then (tlbSet size va * 12 + 2, 10) else (3080, 56)

/-- The index that TLBWR writes without EXPLICIT (R233). -/
def State.tlbVictim (s : State) (c size va : Nat) : Nat :=
  s.nruPick c (s.core c).tlb 0 (tlbRange size va).1 (tlbRange size va).2

/-- The entry at an index of the L2 TLB invalidated. -/
def Core.tlbKill (k : Core) (idx : Nat) : Core :=
  let e := (Map.get none k.tlb idx).map (fun t => { t with val := putB t.val 0 false })
  { k with tlb := Map.set none k.tlb idx e }

/-- TLBWR: one L2 TLB entry written; rd := 0 OK, 1 BAD_ENTRY, 2 BAD_INDEX. -/
def execTlbwr (c : CoreId) (rd ra : Reg) (sr : BitVec 12) (s : State) : Out :=
  .next (s.tlbOp c (decide (sr.toNat < 2)) 1 (
    let k := s.core c
    let ex := sr.getLsbD 0
    let val := k.rd ra
    let hi := k.srv (bk k.vf 0x208)
    let size := bitsN hi 18 16
    let vpn := bitsN hi 63 19
    let idx := bitsN (k.srv (bk k.vf 0x20A)) 11 0
    if badEntry val size false then s.setRd c rd 1
    else
      match (if rV val && k.vf then k.combine val size vpn else .ok val size) with
      | .refill gpa cause => s.trap c { code := 0x10, addr := BitVec.ofNat 64 gpa, s2cause := cause }
      | .ok v sz =>
        if ex && !idxFits idx sz (vpn * 2 ^ 12) then s.setRd c rd 2
        else if !rV val then
          (if ex then s.modCore c (fun k => k.tlbKill idx) else s).setRd c rd 0
        else
          let t : TlbEntry := { guest := k.vf, vmid := k.curVmid, asid := bitsN hi 15 0, size := sz,
                                vpn := alignVpn vpn sz, val := v }
          let i := if ex then idx else s.tlbVictim c sz (vpn * 2 ^ 12)
          let r := tlbRange sz (vpn * 2 ^ 12)
          let m := killWhere k.tlb (fun x => x.guest == t.guest && x.vmid == t.vmid &&
            (rG x.val || rG t.val || x.asid == t.asid) && overlaps x.vpn x.size t.vpn t.size)
          (((if ex then s else s.bump).nruMark c 0 r.1 r.2 i).modCore c (fun k => { k with tlb := Map.set none m i (some t) })).setRd c rd 0))

/-- S2WR: one stage-2 entry written, its tag from s2_hi (R246). -/
def execS2wr (c : CoreId) (rd ra : Reg) (sr : BitVec 12) (s : State) : Out :=
  .next (s.tlbOp c (decide (sr = 0)) 2 (
    let k := s.core c
    let val := k.rd ra
    let hi := k.srv 0x211
    let size := bitsN hi 11 9
    let vpn := bitsN hi 51 12
    if badEntry val size true then s.setRd c rd 1
    else if !rV val then s.setRd c rd 0
    else
      let t : TlbEntry := { guest := true, vmid := bitsN hi 8 0, asid := 0, size := size, vpn := alignVpn vpn size, val := val }
      let lo := s2Set size (vpn * 2 ^ 12) * 8
      let i := s.nruPick c k.s2tlb 4096 lo 8
      let m := killWhere k.s2tlb (fun x => x.vmid == t.vmid && overlaps x.vpn x.size t.vpn t.size)
      ((s.bump.nruMark c 4096 lo 8 i).modCore c (fun k => { k with s2tlb := Map.set none m i (some t) })).setRd c rd 0))

/-! ## TLBRD and TLBPRB (R237) -/

/-- The tag and value registers loaded from an entry, or with 0. -/
def Core.loadHiLo (k : Core) (s2 : Bool) (t : Option TlbEntry) : Core :=
  let hi := if s2 then 0x211 else bk k.vf 0x208
  let lo := if s2 then 0x212 else bk k.vf 0x209
  match t with
  | some t => (k.setSr hi (hiOf t s2)).setSr lo t.val
  | none => (k.setSr hi 0).setSr lo 0

/-- TLBRD: an entry by index. -/
def execTlbrd (c : CoreId) (rd ra : Reg) (sr : BitVec 12) (s : State) : Out :=
  let s2 := sr.getLsbD 0
  .next (s.tlbOp c (decide (sr.toNat < 2)) (if s2 then 2 else 1) (
    let k := s.core c
    let idx := bitsN (k.rd ra) 11 0
    let t := if s2 then (if idx < 512 then Map.get none k.s2tlb idx else none)
      else if idx < 3136 then Map.get none k.tlb idx else none
    let t' := match t with
      | some e => if !s2 && k.vf && !(e.guest && e.vmid == k.curVmid) then none else some e
      | none => none
    let r : Word := match t' with
      | some e => BitVec.ofNat 64 ((if rV e.val then 1 else 0) + (if e.guest then 2 else 0) + e.vmid * 4)
      | none => 0
    (s.modCore c (fun k => k.loadHiLo s2 t')).setRd c rd r))

/-- TLBPRB: the entry that matches an address. -/
def execTlbprb (c : CoreId) (rd ra : Reg) (sr : BitVec 12) (s : State) : Out :=
  let s2 := sr.getLsbD 0
  .next (s.tlbOp c (decide (sr.toNat < 2)) (if s2 then 2 else 1) (
    let k := s.core c
    let va := (k.rd ra).toNat
    match (if s2 then k.findS2 (bitsN (k.srv 0x210) 8 0) (va % 2 ^ 52) else k.findTlb va) with
    | some (i, t) => (s.modCore c (fun k => k.loadHiLo s2 (some t))).setRd c rd (BitVec.ofNat 64 i)
    | none => s.setRd c rd (BitVec.allOnes 64)))

/-! ## Invalidation (R246, R248 to R252) -/

/-- Stage-1 entries and hints of a regime removed, by scope (R248). -/
def Core.tlbRemove (k : Core) (guest : Bool) (vmid scope asid va : Nat) : Core :=
  let vpn := va / 2 ^ 12 % 2 ^ 45
  let inPage (t : TlbEntry) : Bool := overlaps t.vpn t.size vpn 0
  { k with
    tlb := killWhere k.tlb (fun t => t.guest == guest && t.vmid == vmid &&
      (if scope = 0 then (rG t.val || t.asid == asid) && inPage t
       else if scope = 1 then !rG t.val && t.asid == asid
       else if scope = 2 then inPage t
       else true)),
    hints := k.hints.filter (fun h => !(h.guest == guest && h.vmid == vmid &&
      (if scope = 0 ∨ scope = 2 then decide (h.region = va / 2 ^ 21 % 2 ^ 36)
       else if scope = 1 then h.asid == some asid else true))) }

/-- Stage-2 entries removed by scope, and every guest entry and hint of the VMIDs covered (R246). -/
def Core.s2Remove (k : Core) (vmid scope gpa : Nat) : Core :=
  let covers (v : Nat) : Bool := decide (scope = 2) || decide (v = vmid)
  { k with
    s2tlb := killWhere k.s2tlb (fun t => covers t.vmid && (decide (scope ≠ 0) || overlaps t.vpn t.size (gpa / 2 ^ 12) 0)),
    tlb := killWhere k.tlb (fun t => t.guest && covers t.vmid),
    hints := k.hints.filter (fun h => !(h.guest && covers h.vmid)) }

/-- What a broadcast removes in a core. -/
def Core.bcRemove (k : Core) : BcOp → Core
  | .tlbInv g vm sc asid va => k.tlbRemove g vm sc asid va
  | .s2Inv vm sc gpa => k.s2Remove vm sc gpa
  | _ => k

/-- The core that sent a broadcast, by its identifier: 2047 is the DSE. -/
def bcOrigin (id : Nat) : Nat := id % 2048

/-- A broadcast sent on the maintenance channel by a core, or by the DSE with origin 2047 (R162). -/
def State.bcast (s : State) (origin : Nat) (op : BcOp) : State :=
  let id := s.nextId * 2048 + origin
  let root := if origin < 1024 then routerOfTile (s.phys origin / 2) else s.dseA.router
  let leaves := bcLeaves s.oosList root
  let b : Bcast := { id := id, origin := if origin < 1024 then some origin else none, op := op, root := root, acked := [],
                     backs := [], sent := leaves, done := false, sentAt := s.ctime.toNat }
  let s1 := { s with bcasts := s.bcasts ++ [b], nextId := s.nextId + 1,
                     net := s.net ++ leaves.map (fun r => bcBack s.oosList root r 0 id) }
  if origin < 1024 then s1.modCore origin (fun k => { k with bcasts := k.bcasts ++ [id] }) else s1

/-- An invalidation by a core: it waits for earlier stores, and for room among its four broadcasts (R249, R250). -/
def State.invalidate (s : State) (c : Nat) (bc : Bool) (op : BcOp) : State :=
  let k := s.core c
  if !k.sbuf.isEmpty || (bc && decide (4 ≤ k.bcasts.length)) then s
  else
    let s1 := s.modCore c (fun k => k.bcRemove op)
    (if bc then s1.bcast c op else s1).done c

/-- TLBINV: SCOPE in sr[1:0], BCAST in sr[2] (R248). -/
def execTlbinv (c : CoreId) (rd ra : Reg) (sr : BitVec 12) (s : State) : Out :=
  let sc := sr.toNat % 4
  .next (s.tlbOp c (decide (sr.toNat < 8) && (decide (sc ≠ 1) || decide (ra = 0)) && (decide (sc ≠ 2) || decide (rd = 0)) &&
      (decide (sc ≠ 3) || (decide (ra = 0) && decide (rd = 0)))) 1 (
    let k := s.core c
    s.invalidate c (sr.getLsbD 2) (.tlbInv k.vf k.curVmid sc (bitsN (k.rd rd) 15 0) (k.rd ra).toNat)))

/-- S2INV: as TLBINV, on the stage-2 TLB (R246). -/
def execS2inv (c : CoreId) (rd ra : Reg) (sr : BitVec 12) (s : State) : Out :=
  let sc := sr.toNat % 4
  .next (s.tlbOp c (decide (sr.toNat < 8) && decide (sc ≠ 3)) 2 (
    let k := s.core c
    s.invalidate c (sr.getLsbD 2) (.s2Inv (bitsN (k.rd rd) 8 0) sc ((k.rd ra).toNat % 2 ^ 52))))

/-- The accesses in the package that are marked for broadcasts of a core and not yet performed: stores, far atomics and device requests
(R250, R251). -/
def State.markedFor (s : State) (c : Nat) : Nat :=
  let mine (l : List Nat) : Bool := l.any (fun i => decide (bcOrigin i = c))
  let ofCore (k : Core) : Nat := (k.sbuf.filter (fun x => mine x.marks)).length +
    (if k.far.any (fun f => f.ans.isNone && mine f.marks) then 1 else 0)
  (s.cores.map (fun e => ofCore e.2)).sum + (s.ports.map (fun e => (e.2.out.filter (fun l => mine l.marks)).length)).sum

/-- TLBSYNC: waits for this core's broadcasts; with DRAIN, where it met one outstanding, it then waits until a count query sums to 0
(R251). A query and its answers are one step (log entry 70). -/
def execTlbsync (c : CoreId) (sr : BitVec 12) (s : State) : Out :=
  .next (s.tlbOp c (decide (sr.toNat < 2)) 1 (
    let k := s.core c
    let drain := sr.getLsbD 0
    if !k.bcasts.isEmpty then (if drain then s.modCore c (fun k => { k with drains := true }) else s)
    else if drain && k.drains && decide (s.markedFor c ≠ 0) then s
    else (s.modCore c (fun k => { k with drains := if drain then false else k.drains })).done c))

/-- WALK_FILL: an MTSR to walk_fill inserts a hint (R239). -/
def execWalkFill (c : CoreId) (ra : Reg) (s : State) : Out := .next (s.mtsr c ra 0x204)

end Sys2Proof.Machine
end

