-- ==== Sys2Proof/Machine/Mesh.lean ====
section
/-! DEFINITION. Routers: routing of a packet by epoch and leg (R148, R154 to R157), route changes (R164 to R166), fences
and proxy sinks (R167, R168), and the broadcasts that rewrite tables (R117, R77, R221, R162). -/

namespace Sys2Proof.Machine
open Sys2Proof

/-! ## Routers -/

/-- The router on side d of router r (1 north, 2 east, 3 south, 4 west), where the mesh has one. -/
def neighbour (r d : Nat) : Option Nat :=
  if d = 1 then (if 36 ≤ r then some (r - 36) else none)
  else if d = 2 then (if r % 36 < 35 then some (r + 1) else none)
  else if d = 3 then (if r + 36 < 576 then some (r + 36) else none)
  else if d = 4 then (if 0 < r % 36 then some (r - 1) else none)
  else none

/-- The opposite side. -/
def opposite (d : Nat) : Nat := if d ≤ 2 then d + 2 else d - 2

/-- Address of MESH_CTL, MESH_ERR and a word of MESH_RT of a router (Table 5.11). -/
def meshCtl (r : Nat) : Nat := routerBase r + 0x50000
def meshErr (r : Nat) : Nat := routerBase r + 0x51900
def meshRt (r e l w : Nat) : Nat := routerBase r + 0x51000 + 0x200 * (2 * e + l) + 8 * w

/-- The entry of a router for a destination router, under an epoch and a leg. -/
def State.rtEntry (s : State) (r : Nat) (e l : Bool) (d : Nat) : Nat :=
  s.fld (meshRt r (if e then 1 else 0) (if l then 1 else 0) (d / 16)) (4 * (d % 16) + 3) (4 * (d % 16))

/-- The output and the leg of a packet at a router under an epoch: an LSW entry of leg 0 ends the leg (R154). -/
def State.routeOf (s : State) (r : Nat) (e leg : Bool) (d : Nat) : Nat × Bool :=
  let x := s.rtEntry r e leg d
  if leg = false ∧ 8 ≤ x then (s.rtEntry r e true d % 8, true) else (x % 8, leg)

/-- Whether the link on a side of a router is blocked (R165). -/
def State.blocked (s : State) (r out : Nat) : Bool :=
  decide (1 ≤ out ∧ out ≤ 4) && s.flag (meshCtl r) (2 + out)

/-- MESH_ERR.CE and UE count, saturating. -/
def State.meshCe (s : State) (r : Nat) : State := s.putFld (meshErr r) 15 0 (satN 16 (s.fld (meshErr r) 15 0 + 1))
def State.meshUe (s : State) (r : Nat) : State := s.putFld (meshErr r) 31 16 (satN 16 (s.fld (meshErr r) 31 16 + 1))

/-- A packet put back into the mesh as it is. -/
def State.put (s : State) (p : Pkt) : State := { s with net := s.net ++ [p] }

/-- A packet for a destination without a route, at router r (R156). A mark is acknowledged by that router, since COMMIT
awaits every mark (DEDUCED from R164 and R166, log entry 32). -/
def State.unreachable (s : State) (r : Nat) (p : Pkt) : State :=
  let a : Agt := { router := r, agent := 7 }
  if opIsMark p.op then s.put { op := .MARK_ACK, src := a, dst := p.src, txid := p.txid, addr := clsNo (opCls p.op) }
  else if opIsReq p.op then s.inject { rsp p (answerOp p.op) 3 with src := a }
  else match p.op with
    | .SnpS | .SnpX => s.inject { rsp p .SnpRsp 0 with src := a, dst := sliceAgt (s.sliceOf (p.addr / 64)) }
    | .Inv => s.inject { rsp p .InvAck 0 with src := a, dst := sliceAgt (s.sliceOf (p.addr / 64)) }
    | _ => s.meshUe r

/-- A tagged flit that a router moves adds 1 to HOPS of its current leg; the wait beyond the fixed latency is timing, and
so a free value (R381). -/
def State.hop (s : State) (p : Pkt) : Pkt × State :=
  if p.side.getLsbD 0 then
    let leg := p.side.toNat / 2 ^ 149 % 4
    let lo := 85 + 16 * leg
    let h := p.side.toNat / 2 ^ lo % 64
    let w := p.side.toNat / 2 ^ (lo + 6) % 1024
    let w' := min 1023 (w + s.draw 1024)
    ({ p with side := BitVec.ofNat 160 (p.side.toNat - h * 2 ^ lo - w * 2 ^ (lo + 6) + min 63 (h + 1) * 2 ^ lo + w' * 2 ^ (lo + 6)) }, s.bump)
  else (p, s)

/-! ## Buffers and grants (R149, R152, R153) -/

/-- The output of a router that leads to an agent of it: the slice port 5, or the core or stop port 0. -/
def localOut (a : Agt) : Nat := if portOfAgt a = 1 then 5 else 0

/-- The lane of a packet on a link (R153): one of four on a vertical link of an I/O-die column, else the only one. -/
def laneOf (r side : Nat) (p : Pkt) : Nat :=
  if !isTileRouter r && decide (side = 1 ∨ side = 3) then (p.src.router + p.dst.router) % 4 else 0

/-- Flits of an input buffer by class (Table 5.5). -/
def bufDepth (cls : Nat) : Nat := if cls = 4 then 8 else if cls = 5 then 2 else 4

/-- The buffer of a packet at an input of a router: class, leg and lane. -/
def bufKey (r input : Nat) (p : Pkt) : Nat × Bool × Nat := (clsNo (opCls p.op), p.leg, laneOf r input p)

/-- Whether an input buffer of a router has room for the flits of a packet: the credit that its sender needs (R149). -/
def State.credit (s : State) (r input : Nat) (p : Pkt) : Bool :=
  let used := ((s.bufs.filter (fun b => decide (b.router = r ∧ b.input = input ∧ bufKey r input b.pkt = bufKey r input p))).map
    (fun b => b.pkt.flits.length)).sum
  decide (used + p.flits.length ≤ bufDepth (clsNo (opCls p.op)))

/-- The hop of a maintenance packet while a router is out of service (R157): toward its column, then toward its row; a hop toward a
router out of service is replaced, on a side that is a free choice where both are open. -/
def State.adaptive (s : State) (r : Nat) (p : Pkt) : Nat × Bool :=
  let d := p.dst.router
  let out := if d % 36 < r % 36 then 4 else if r % 36 < d % 36 then 2 else if d / 36 < r / 36 then 1 else if r / 36 < d / 36 then 3 else 0
  let isOpen (o : Nat) : Bool := match neighbour r o with
    | some n => !s.flag (meshCtl n) 2
    | none => false
  if out = 0 ∨ isOpen out = true then (out, p.leg)
  else
    let (a, b) := if out = 2 ∨ out = 4 then (1, 3) else (2, 4)
    let o := if out = 4 then (if isOpen 1 then 1 else 3)
      else if isOpen a && (!isOpen b || decide (s.draw 2 = 0)) then a else b
    (o, p.leg || decide (out = 4))

/-- Whether a router out of service makes maintenance packets route adaptively. -/
def State.anyOos (s : State) : Bool := !s.oosList.isEmpty

/-- The output, leg and epoch by which a router routes a packet; none while it must wait at a blocked output. One of epoch e whose
output is blocked goes by buffer e', keeping its leg, once the new tables of that destination are there: MESH_CHG says so (R154,
R157, R165). -/
def State.outOf (s : State) (r : Nat) (p : Pkt) : Option (Nat × Bool × Bool) :=
  if clsNo (opCls p.op) = 5 && s.anyOos then some ((s.adaptive r p).1, (s.adaptive r p).2, p.epoch)
  else
    let (out, leg) := s.routeOf r p.epoch p.leg p.dst.router
    if !s.blocked r out then some (out, leg, p.epoch)
    else
      let e' := !s.flag (meshCtl r) 0
      let (out', leg') := s.routeOf r e' leg p.dst.router
      if s.chg r p.dst.router && !s.blocked r out' then some (out', leg', e') else none

/-- The output of a router as its grants count them: a local delivery by the port of its agent, any other by its link and lane. -/
def outKey (r out : Nat) (p : Pkt) : Nat × Nat := if out = 0 then (localOut p.dst, 0) else (out, laneOf r out p)

/-- The packets of a router that stand at the front of their buffers. -/
def State.heads (s : State) (r : Nat) : List Buf :=
  (s.bufs.filter (fun b => decide (b.router = r))).foldl (fun (l : List Buf) b =>
    if l.any (fun x => decide (x.input = b.input ∧ bufKey r b.input x.pkt = bufKey r b.input b.pkt)) then l else l ++ [b]) []

/-- A front packet that its router can send: its output, with the credit of the next router where it leaves by a link. -/
def State.sendable (s : State) (r : Nat) (b : Buf) : Option (Nat × Nat) :=
  match s.outOf r b.pkt with
  | none => none
  | some (out, leg, e) =>
    let p := { b.pkt with leg := leg, epoch := e }
    match neighbour r out with
    | some n => if s.credit n (opposite out) p then some (outKey r out p) else none
    | none => some (outKey r out p)

/-- Key of an output's round robin for a class and leg. -/
def rrKey (r out : Nat) (p : Pkt) : Nat := ((r * 6 + out) * 6 + clsNo (opCls p.op)) * 2 + (if p.leg then 1 else 0)

/-- The order in which an output chooses (R152): a buffer sendable for 16 mesh cycles, then the class, maintenance first, then leg 1,
then the inputs round robin after the one granted last. -/
def State.rank (s : State) (r out : Nat) (b : Buf) : Nat :=
  let rr := (b.input + 6 - Map.get 0 s.rrs (rrKey r out b.pkt)) % 6
  (if 16 ≤ b.age then 0 else 2 ^ 10) + (5 - clsNo (opCls b.pkt.op)) * 2 ^ 6 + (if b.pkt.leg then 0 else 2 ^ 5) + rr

/-- The first of least rank. -/
def leastBy (f : Buf → Nat) : List Buf → Option Buf
  | [] => none
  | b :: l => match leastBy f l with
    | none => some b
    | some x => if f b ≤ f x then some b else some x

/-- A granted packet leaves its buffer: to the next router's, to its agent, or it meets a destination without a route (R156). -/
def State.depart (s0 : State) (r : Nat) (b : Buf) : State :=
  match s0.outOf r b.pkt with
  | none => s0
  | some (out, leg, e) =>
    let s1 := { s0 with bufs := takeOut b s0.bufs,
                        rrs := Map.set 0 s0.rrs (rrKey r (outKey r out b.pkt).1 b.pkt) (b.input + 1) }
    let s2 := if clsNo (opCls b.pkt.op) = 5 && s0.anyOos then s1.bump else s1
    let cls := clsNo (opCls b.pkt.op)
    let port := (outKey r out b.pkt).1
    let s3 := (if 16 ≤ b.age then s2.rtrEv r 3 cls port else s2).rtrEvN r 1 cls port b.pkt.flits.length
    let (p, s) := (if opIsMark b.pkt.op then s3.rtrEv r 4 cls port else s3).hop { b.pkt with leg := leg, epoch := e }
    if out = 5 then s.unreachable r p
    else match neighbour r out with
      | some n => { s with bufs := s.bufs ++ [{ router := n, input := opposite out, pkt := p, age := 0 }] }
      | none => { s with arrived := s.arrived ++ [s.arrive p] }

/-- One output grants: the best of the sendable fronts for it. -/
def State.grantOne (s : State) (r : Nat) (key : Nat × Nat) : State :=
  match leastBy (s.rank r key.1) ((s.heads r).filter (fun b => decide (s.sendable r b = some key))) with
  | some b => s.depart r b
  | none => s

/-- The outputs of a router with their lanes, and the outcome of no route (output 5, R156); the stop port of a port cluster moves two
flits in a mesh cycle (R143). -/
def outputsOf (r : Nat) : List (Nat × Nat) :=
  if isTileRouter r then [(0, 0), (1, 0), (2, 0), (3, 0), (4, 0), (5, 0)]
  else [(0, 0)] ++ (if r / 36 < 8 then [(0, 0)] else []) ++ (List.range 4).map (fun l => (1, l)) ++ (List.range 4).map (fun l => (3, l)) ++
    [(if r % 36 = 0 then 2 else 4, 0), (5, 0)]

/-- A mesh cycle of a router: each output grants once, a packet whole (its two flits travel back to back, R146); a front that was
sendable and is still there has waited one cycle more. -/
def State.cycle (s : State) (r : Nat) : State :=
  let ready := (s.heads r).filter (fun b => (s.sendable r b).isSome)
  let s1 := (outputsOf r).foldl (fun (s : State) k => s.grantOne r k) s
  { s1 with bufs := s1.bufs.map (fun b => if ready.contains b then { b with age := b.age + 1 } else b) }

/-- The input of a router through which a packet comes that is in none of its buffers: the port of the agent it is injected by. -/
def entryOf (r : Nat) (p : Pkt) : Nat := if p.src.router = r then localOut p.src else 0

/-- Whether a packet may enter a router's local input now: those injected before it along its way have entered (R151). -/
def State.mayEnter (s : State) (p : Pkt) : Bool := !(s.net.takeWhile (fun q => decide (q ≠ p))).any (sameWay p)

/-- A packet p whose flits a router reads, as it stands in one of the router's buffers or is injected there, replaced by what its
check bits leave of it (R148): p', or nothing. An injected one waits for room. None where it waits. -/
def State.readFlits (s : State) (r : Nat) (p : Pkt) (p' : Option Pkt) : Option State :=
  match s.bufs.find? (fun b => decide (b.router = r ∧ b.pkt = p)) with
  | some b =>
    some { s with bufs := match p' with
      | some q => s.bufs.map (fun x => if x = b then { b with pkt := q } else x)
      | none => takeOut b s.bufs }
  | none =>
    let i := entryOf r p
    if !s.mayEnter p || !s.credit r i p then none
    else
      let s1 := { s with net := takeOut p s.net }
      some (match p' with
        | some q => { s1 with bufs := s1.bufs ++ [{ router := r, input := i, pkt := q, age := 0 }] }
        | none => s1)

/-- PACKET_AT_ROUTER: a router reads a packet's flits (R145, R148) and takes it into its input buffer; then it grants its outputs for
one mesh cycle (R149, R152 to R154, R156, R157, R165). A router out of service loses what reaches it; an opcode that is not listed is
discarded and counted. That a router's cycle comes with a packet's command is the model's choice (log entry 125). -/
def execPacketAtRouter (r : RouterId) (p : Pkt) (e : FlitEnv) (s : State) : Out :=
  .next (
    let unknown : Bool := match p.op with
      | .unlisted _ => true
      | _ => false
    let drop : State := (s.readFlits r p none).getD s
    if s.flag (meshCtl r) 2 then drop
    else if unknown || decide (e = .headerError) then (if (s.readFlits r p none).isSome then (drop.meshUe r).cycle r else s.cycle r)
    else
      let p' : Pkt := match e with
        | .dataError => { p with poison := true }
        | .sideError => { p with side := p.side &&& ~~~ 1 }
        | _ => p
      match s.readFlits r p (some p') with
      | none => s.cycle r
      | some s1 =>
        let s2 := match e with
          | .corrected => s1.meshCe r
          | .dataError => s1.meshUe r
          | _ => s1
        s2.cycle r)

/-! ## Route changes (R164 to R166) -/

/-- The routers of the mesh. -/
def routers : List Nat := List.range 576

/-- Ports of a router's agents: two at a tile router, one at a stop router. -/
def portsOf (r : Nat) : List Nat := if isTileRouter r then [0, 1] else [0]

/-- The agent that stands for a port. -/
def portRep (r port : Nat) : Agt := { router := r, agent := if isTileRouter r && decide (port = 1) then 2 else 0 }

/-- The destinations of a router with CHG = 1. -/
def State.changed (s : State) (r : Nat) : List Nat := routers.filter (fun d => s.chg r d)

/-- ARM at one router: each port sends a mark of every class to agent 7 of each changed destination. -/
def State.armAt (s : State) (r : Nat) : State :=
  let e := s.flag (meshCtl r) 0
  let ds := s.changed r
  let s1 := s.putFlag (meshCtl r) 1 true
  (portsOf r).foldl (fun (s : State) port =>
    (List.finRange 5).foldl (fun (s : State) (c : Fin 5) =>
      { s with
        net := s.net ++ ds.map (fun d =>
          { op := .Mark c, src := portRep r port, dst := { router := d, agent := 7 }, txid := port, addr := 0, epoch := e }),
        marks := Map.set 0 s.marks ((2 * r + port) * 8 + c) ds.length }) s) s1

/-- Whether the new route of a router to a destination in one leg obeys R155: it leads to a router or to the destination's agents, it
does not turn west after another direction, and it does not reverse. -/
def State.westFirst (s : State) (r d : Nat) (e leg : Bool) : Bool :=
  let x := s.rtEntry r e leg d
  let out := x % 8
  if !leg && decide (8 ≤ x) then true
  else if out = 0 then decide (r = d)
  else if out = 5 then true
  else match neighbour r out with
    | none => false
    | some n =>
      let y := s.rtEntry n e leg d
      decide (n = d) || (!leg && decide (8 ≤ y)) || decide (y % 8 = 5) ||
        (decide (y % 8 ≠ opposite out) && (decide (out = 4) || decide (y % 8 ≠ 4)))

/-- Whether the tables that the DSE has written for the other epoch are ready (R155, R164 step 1): every changed route obeys the
west-first rule, and every RWRITE has been acknowledged. -/
def State.tablesReady (s : State) : Bool :=
  let e' := !s.flag (meshCtl 0) 0
  !s.inMesh (fun p => decide (p.op = .RWRITE ∨ p.op = .RWACK)) &&
    routers.all (fun r => (s.changed r).all (fun d => s.westFirst r d e' false && s.westFirst r d e' true))

/-- ARM: once every RWRITE is acknowledged and the new tables obey R155, every router becomes ARMED (R164 step 2). -/
def execArm (s : State) : Out :=
  .next (if s.flag (meshCtl 0) 1 || !s.tablesReady then s else routers.foldl State.armAt s)

/-- Whether a packet of a mark's class, port and destination router, injected before the mark, is still under way (R164 step 3). -/
def State.markBehind (s : State) (p : Pkt) : Bool :=
  let mine (q : Pkt) : Bool := decide (q ≠ p) && !opIsMark q.op && decide (clsNo (opCls q.op) = clsNo (opCls p.op)) &&
    decide (q.src.router = p.src.router) && decide (portOfAgt q.src = p.txid) && decide (q.dst.router = p.dst.router) && q.epoch == p.epoch
  if s.arrived.contains p then false
  else s.bufs.any (fun b => mine b.pkt) || (s.net.takeWhile (fun q => decide (q ≠ p))).any mine

/-- MARK: a mark arrives at its destination router behind the packets of its class and port; agent 7 ejects it and answers MARK_ACK
(R164 step 3). The spec gives no place for the port that sent a mark and for the class that a MARK_ACK acknowledges: they stand in
TXID and in ADDR (DESIGN CHOICE, log entry 127). -/
def execMark (p : Pkt) (s : State) : Out :=
  .next (match p.op with
    | .Mark c => if s.markBehind p then s else (s.take p).put { op := .MARK_ACK, src := p.dst, dst := p.src, txid := p.txid, addr := c.val }
    | _ => s)

/-- The held packets of a port and class go on under the new epoch. -/
def State.releaseHeld (s : State) (sel : Nat × Pkt → Bool) : State :=
  let out := (s.held.filter sel).map (fun x => { x.2 with epoch := !s.flag (meshCtl (x.1 / 2)) 0 })
  { s with held := s.held.filter (fun x => !sel x), net := s.net ++ out }

/-- MARK_ACK: a port receives an acknowledgment; the last of a class releases that class's held packets (R164 step 3). -/
def execMarkAck (p : Pkt) (s : State) : Out :=
  .next (
    if p.op ≠ .MARK_ACK then s
    else
      let r := p.dst.router
      let port := portOfAgt p.dst
      let key := (2 * r + port) * 8 + p.addr
      let n := Map.get 0 s.marks key - 1
      let s1 := { s.take p with marks := Map.set 0 s.marks key n }
      if n = 0 then
        s1.releaseHeld (fun x => decide (x.1 = 2 * r + port) && decide (clsNo (opCls x.2.op) = p.addr))
      else s1)

/-- Packets of the active epoch still in the mesh, and marks not acknowledged: what count queries sum (R164 step 4). -/
def State.oldCount (s : State) : Nat :=
  let e := s.flag (meshCtl 0) 0
  (s.net.filter (fun p => p.epoch == e && decide (clsNo (opCls p.op) ≠ 5))).length +
    (s.bufs.filter (fun b => b.pkt.epoch == e && decide (clsNo (opCls b.pkt.op) ≠ 5))).length + (s.marks.map (fun x => x.2)).sum

/-- Neighbours of a router set the BLOCKED bit of their side toward it. -/
def State.blockAround (s : State) (r : Nat) : State :=
  [1, 2, 3, 4].foldl (fun (s : State) d =>
    match neighbour r d with
    | some n => s.putFlag (meshCtl n) (2 + opposite d) true
    | none => s) s

/-- A router leaves service (R165): its neighbours block their links to it, and the packets inside it are lost; SWEEP ends what was
issued before (R442). -/
def State.routerOut (s : State) (r : Nat) : State :=
  if s.flag (meshCtl r) 2 then s
  else
    let s1 := (s.putFlag (meshCtl r) 2 true).blockAround r
    { s1 with sweepAt := s.ctime.toNat, bufs := s1.bufs.filter (fun b => decide (b.router ≠ r)),
              held := s1.held.filter (fun x => decide (x.1 / 2 ≠ r)) }.ledger 0x23 [r]

/-- COMMIT: every router takes the new epoch, once the count queries have summed to 0 (R164 step 4); a router that the DSE removes
leaves service (R165). -/
def execCommit (s : State) : Out :=
  .next (
    if s.flag (meshCtl 0) 1 && decide (s.oldCount = 0) then
      let s1 := routers.foldl (fun (s : State) r => (s.putFlag (meshCtl r) 0 (!s.flag (meshCtl r) 0)).putFlag (meshCtl r) 1 false) s
      s1.leaving.foldl (fun (s : State) r => s.routerOut r) { s1 with leaving := [] }
    else s)

/-- RELEASE: every held packet goes on under the new epoch, and REORDER is set (Table 5.9); no port waits for a mark any
more, since COMMIT follows and a mark may be lost in the router that failed (DEDUCED, log entry 32). -/
def execRelease (s : State) : Out :=
  .next (routers.foldl (fun (s : State) r => s.putFlag (meshErr r) 32 true) { s.releaseHeld (fun _ => true) with marks := [] })

/-- COUNT_QUERY: the summed count goes back to the origin in ADDR: for a core's broadcast the accesses marked for that
core (R251), else OLDCNT and MARKS over all routers (R164). -/
def execCountQuery (id : Nat) (s : State) : Out :=
  .next (
    match s.bcasts.find? (fun b => decide (b.id = id)) with
    | some b => match b.origin with
      | some c => s.put (backTo (physAgt (s.phys c)) (s.markedFor c))
      | none => s.put (backTo s.dseA s.oldCount)
    | none => s.put (backTo s.dseA s.oldCount))

/-- BACK: an acknowledgment reaches its parent router, which combines it with its own agents' and its other children's;
the total reaches the origin, whose broadcast is complete (R162, R251). The broadcast's identifier stands in the data of
the packet. -/
def execBack (p : Pkt) (s : State) : Out :=
  .next (
    if p.op ≠ .BACK then s
    else
      let id := p.data.toNat
      if p.dst.agent = 7 then
        (if s.flag (meshCtl p.dst.router) 2 then s.take p
         else
           State.bcTry { s.take p with bcasts := s.bcasts.map (fun b =>
             if b.id = id ∧ b.backs.any (fun x => decide (x.1 = p.src.router)) = false then
               { b with backs := b.backs ++ [(p.src.router, p.addr)] }
             else b) } id p.dst.router)
      else
      match s.bcasts.find? (fun b => decide (b.id = id) && b.done) with
      | some b =>
        let s1 := { s.take p with bcasts := s.bcasts.filter (fun x => decide (x.id ≠ id)) }
        match b.origin with
        | some c => s1.modCore c (fun k => { k with bcasts := k.bcasts.filter (fun i => decide (i ≠ id)) })
        | none => s1
      | none => s.take p)

/-- A write of MESH_RT: refused for a reserved output, an LSW bit of leg 1, or the active epoch (Table 5.11). Packets
that wait at a blocked output go on by the new tables (R165). -/
def State.meshRtWrite (s : State) (a : CsrReq) : Nat × State :=
  s.csrWrite a (fun w =>
    let el := w.ix.headD 0
    let nib (j : Nat) : Nat := bitsN w.val (4 * j + 3) (4 * j)
    if (List.range 16).any (fun j => decide (6 ≤ nib j % 8) || (decide (el % 2 = 1) && decide (8 ≤ nib j))) then some 1
    else if decide (el / 2 = 1) = s.flag (meshCtl (routerOfBlock w.block)) 0 then some 1
    else none) (fun w s => s.cycle (routerOfBlock w.block))

/-- RWRITE: a routing-table, MESH_CHG or MESH_RCHG word arrives at a router, which writes it and answers RWACK (R164 step
1). -/
def execRwrite (p : Pkt) (s : State) : Out :=
  .next (
    if p.op ≠ .RWRITE then s
    else
      let s1 := s.take p
      let a := wr8 p.addr (BitVec.ofNat 64 p.data.toNat) s.dseReq
      let s2 := match regAt (p.addr / 8 * 8) with
        | some (_, row, _) => if row.id = Rid.MESH_RT then (s1.meshRtWrite a).2 else (s1.csrWrite a (fun _ => none) (fun _ s => s)).2
        | none => s1
      s2.put { op := .RWACK, src := p.dst, dst := p.src, txid := p.txid, addr := 0 })

/-- RWACK: an acknowledgment arrives at the DSE. -/
def execRwack (p : Pkt) (s : State) : Out := .next (if p.op = .RWACK then (s.take p).endTx p else s)

/-- The agents of a router (Table 5.1). -/
def agentsOf (r : Nat) : List Agt :=
  (if isTileRouter r then [0, 1, 2, 3] else if r / 36 < 8 then [0, 1, 2, 3, 4, 5] else if r / 36 = 14 then [0, 4, 5] else [0, 5]).map
    (fun a => { router := r, agent := a })

/-- ROUTER_OUT_OF_SERVICE: a faulty router leaves service at once. One whose every agent is fenced is removed while it still works:
it forwards until COMMIT (R165). -/
def execRouterOutOfService (r : RouterId) (s : State) : Out :=
  .next (
    if s.flag (meshCtl r) 2 then s
    else if (agentsOf r).all s.fenced then { s with leaving := if s.leaving.contains r.val then s.leaving else s.leaving ++ [r.val] }
    else s.routerOut r)

/-! ## Fences and proxy sinks (R167, R168) -/

/-- The stale map of an agent takes its outstanding TXIDs, which end. -/
def State.outToStale (s : State) (a : Agt) : State :=
  let mine (k : Nat) : Bool := decide (k / 4096 = 8 * a.router + a.agent)
  let ks := (s.outst.filter (fun e => mine e.1)).map (fun e => e.1)
  { s with
    stale := ks.foldl (fun m k => Map.set false m k true) s.stale,
    outst := s.outst.filter (fun e => !mine e.1),
    reqs := s.reqs.filter (fun e => !mine e.1),
    fwds := s.fwds.filter (fun e => !mine e.1) }

/-- A write of MESH_PROXY: PROXY needs FENCE, and FENCE stays while PROXY = 1 (Table 5.11). -/
def State.meshProxyWrite (s : State) (a : CsrReq) : Nat × State :=
  s.csrWrite a (fun w =>
    if !bitB w.old 1 && bitB w.val 1 && !bitB w.old 0 then some 1
    else if bitB w.old 0 && !bitB w.val 0 && bitB w.old 1 then some 1
    else none)
    (fun w s =>
      if bitB w.new 1 && !bitB w.old 1 then s.outToStale { router := routerOfBlock w.block, agent := w.ix.headD 0 } else s)

/-- FENCE or PROXY of an agent written by the DSE. -/
def State.setProxy (s : State) (a : Agt) (bit : Nat) (b : Bool) : State :=
  (s.meshProxyWrite (wr8 (proxyAddr a) (putB (s.rdCsr (proxyAddr a)) bit b) s.dseReq)).2

/-- MESH_FENCE: the DSE sets FENCE of an agent. -/
def execMeshFence (r : RouterId) (a : Fin 8) (s : State) : Out := .next (s.setProxy { router := r, agent := a } 0 true)
/-- MESH_PROXY_SET: the DSE sets PROXY of a fenced agent. -/
def execMeshProxySet (r : RouterId) (a : Fin 8) (s : State) : Out := .next (s.setProxy { router := r, agent := a } 1 true)
/-- MESH_PROXY_CLEAR: the DSE clears PROXY of an agent. -/
def execMeshProxyClear (r : RouterId) (a : Fin 8) (s : State) : Out := .next (s.setProxy { router := r, agent := a } 1 false)
/-- MESH_FENCE_CLEAR: the DSE clears FENCE of an agent. -/
def execMeshFenceClear (r : RouterId) (a : Fin 8) (s : State) : Out := .next (s.setProxy { router := r, agent := a } 0 false)

/-! ## Rewrites by broadcast -/

/-- L3_REDIR_REWRITE: an entry of every copy of L3_REDIR (R117). -/
def execL3RedirRewrite (i : Fin 16) (fromS toS : TileId) (valid : Bool) (s : State) : Out :=
  .next (s.setRedir i fromS toS valid)

/-- HOMEMAP_REWRITE: an entry of every copy of the home map; it completes the hand-over of a channel evacuation, or the return
to a channel that has been replaced, once the earlier steps are done (R77, R449). -/
def execHomemapRewrite (h : HomeId) (ch : HomeId) (s : State) : Out :=
  .next (if s.evacNotReady h ch then s
    else
      let s1 := (s.setHomemap h ch).evacHandover h ch
      if s.homeReturns h ch then s1.homeReturn h else s1)

/-! ## Logical-core map (R221) -/

/-- A held interrupt write reaches the core: a posted one is not forwarded a second time, and one that its slot does not take has the
outcome of R23 (R222). -/
def State.deliverMsi (s : State) (c : Nat) (x : HeldMsi) : State :=
  let q := (x.router, x.agent, x.addr)
  match x.slot with
  | none => s.pend c x.vec
  | some sl =>
    let r : Bool × State := if x.fwd then ((s.postAt c sl x.vec true q).1.isSome, (s.postAt c sl x.vec true q).2) else s.postWrite c sl x.vec q
    if r.1 then r.2 else s.aerr x.addr true x.router x.agent

/-- Interrupt writes held while a core's number was MOVING reach the core in order (R221). -/
def State.deliverHeld (s : State) (c : Nat) : State :=
  (s.core c).heldMsi.foldl (fun (s : State) x => s.deliverMsi c x) (s.modCore c (fun k => { k with heldMsi := [] }))

/-- An entry of DSE_LCMAP and of its copies written; a core that stops MOVING receives the held interrupts. -/
def State.setLcmap (s : State) (n phys st : Nat) : State :=
  let a := dseBase + 0x10000 + 8 * n
  let s1 := (s.putFld a 10 0 phys).putFld a 14 12 st
  if s.lcState n = 2 ∧ st = 1 then s1.deliverHeld n else s1

/-- LCMAP_REWRITE: an entry of DSE_LCMAP and of its copies is rewritten (R18, R221). -/
def execLcmapRewrite (n : CoreId) (phys : Fin 1088) (st : Fin 4) (s : State) : Out := .next (s.setLcmap n phys st)

end Sys2Proof.Machine
end

