-- ==== Sys2Proof/Machine/Power.lean ====
section
/-! DEFINITION. Power and clocks (14_power_and_clocks.md): tile states, Toll grants, excursions, thermal control and
domain power-down. -/

namespace Sys2Proof.Machine
open Sys2Proof

/-! ## Tile states (R388, R389, R395) -/

/-- Address of TILE_DVFS. -/
def dvfsA (t : Nat) : Nat := tileBase t + 0x10100

/-- Cost of a tile state for 2, 1 or no powered cores (Table 14.1, R395). -/
def stateCost (st cores : Nat) : Nat :=
  if cores = 0 then 0
  else if cores = 1 then [7, 6, 5, 5, 4, 3, 2, 1].getD st 1
  else [12, 10, 9, 8, 7, 4, 3, 2].getD st 2

/-- Whether a domain is down (R402). -/
def State.isDown (s : State) (kind index : Nat) : Bool := Map.get false s.downDom (4096 * kind + index)

/-- The logical core that a physical core carries; a pair's position 1 carries that of position 0. -/
def State.carried (s : State) (p : Nat) : Option Nat :=
  let q := if s.profile = 2 then p / 2 * 2 else p
  findFrom (fun n => decide (s.phys n = q) && decide (s.lcState n ≠ 0)) 0 1024

/-- Whether a physical core is charged as powered: not parked, not an unused spare, its domain neither down nor fenced for
a power-down, which returns its budget at the fence (R395, R402). -/
def State.powered (s : State) (p : Nat) : Bool :=
  (s.carried p).isSome && !s.isDown 0 p && !s.isDown 1 (p / 2) && !s.fenced (physAgt p)

/-- Powered cores of a tile. -/
def State.poweredOf (s : State) (t : Nat) : Nat :=
  (if s.powered (2 * t) then 1 else 0) + (if s.powered (2 * t + 1) then 1 else 0)

/-- Whether a powered physical core retires nothing in WFI. -/
def State.inWfi (s : State) (p : Nat) : Bool :=
  match s.carried p with
  | some n => decide ((s.core n).run = .wfi)
  | none => true

/-- The charge of a tile at a state: all powered cores in WFI are charged as in P7 (R395). -/
def State.chargeAt (s : State) (t st : Nat) : Nat :=
  stateCost (if s.inWfi (2 * t) && s.inWfi (2 * t + 1) then 7 else st) (s.poweredOf t)

/-- State in force, the state that a change in progress leads to, and the last state that is due (R389). -/
def State.curOf (s : State) (t : Nat) : Nat := s.fld (dvfsA t) 8 6
def State.runsTo (s : State) (t : Nat) : Nat :=
  match Map.get 0 s.dvfs t with
  | 0 => s.curOf t
  | n + 1 => n
def State.targetOf (s : State) (t : Nat) : Nat :=
  match Map.get 0 s.dvfsNext t with
  | 0 => s.runsTo t
  | n + 1 => n

/-- What a tile is charged: the dearest of the state in force and of those that are due. -/
def State.charge (s : State) (t : Nat) : Nat := s.chargeAt t (min (s.curOf t) (min (s.runsTo t) (s.targetOf t)))

/-- Voltage of a tile state in mV (Table 14.1). -/
def stateMv (st : Nat) : Nat := [950, 910, 870, 830, 800, 740, 680, 600].getD st 600
/-- How long a change takes in ns: a ramp of 20 mV per microsecond, and the pause of 50 ns (R389). -/
def changeNs (a b : Nat) : Nat := 50 * (max (stateMv a) (stateMv b) - min (stateMv a) (stateMv b)) + 50

/-- Tiles of a compute die. -/
def tilesOfDie (k : Nat) : List Nat := (List.range 544).filter (fun t => decide (dieOfTile t = k))

/-- Credits for the tiles of a die: ALLOC, and what excursion lends, less the uncore's 136 and the pool (R391). -/
def State.tileRoom (s : State) (k : Nat) : Nat :=
  s.fld (dieCfgA k) 13 0 + Map.get 0 s.loans k - 136 - s.fld (dieCfgA k) 23 14

/-- Credits that the tiles of a die are charged. -/
def State.tileUse (s : State) (k : Nat) : Nat := ((tilesOfDie k).map s.charge).sum

/-- The state asked for: REQ, held back by thermal control, and P7 on a HOT die (R399, R400). -/
def State.wanted (s : State) (t : Nat) : Nat :=
  if s.dieHot (dieOfTile t) then 7 else max (s.fld (dvfsA t) 2 0) (Map.get 0 s.thermFloor t)

/-- A change of state begins, or, while one runs, is due at its end (R389). -/
def State.changeTo (s : State) (t st : Nat) : State :=
  if s.targetOf t = st then s
  else if Map.get 0 s.dvfs t ≠ 0 then { s with dvfsNext := Map.set 0 s.dvfsNext t (st + 1) }
  else ({ s with dvfs := Map.set 0 s.dvfs t (st + 1), dvfsAt := Map.set 0 s.dvfsAt t s.ctime.toNat }).putFlag (dvfsA t) 9 true

/-- THROTTLED reads 1 while thermal control holds the tile above REQ (Table 14.2). -/
def State.throttle (s : State) (t : Nat) : State :=
  s.putFlag (dvfsA t) 10 (decide (s.fld (dvfsA t) 2 0 < s.wanted t))

/-- A tile follows its request: a lower state at once, a raise as far as the room allows (R395). A change in progress
ends first (R389). -/
def State.admits (s0 : State) (t : Nat) : State :=
  let s := s0.throttle t
  let k := dieOfTile t
  let want := s.wanted t
  let cur := s.curOf t
  if Map.get 0 s.dvfs t ≠ 0 ∨ want = cur then s
  else if cur < want then s.changeTo t want
  else
    let others := s.tileUse k - s.charge t
    match (List.range cur).find? (fun st => decide (want ≤ st) && decide (others + s.chargeAt t st ≤ s.tileRoom k)) with
    | some st => s.changeTo t st
    | none => s

/-- One tile of a die that exceeds its room is lowered by one state: the fastest, the lower number first among equals
(R395). -/
def State.lowerOne (s : State) (k : Nat) : State :=
  let ts := tilesOfDie k
  let cand := ts.filter (fun t => decide (s.poweredOf t ≠ 0) && decide (s.targetOf t < 7))
  let best := (cand.map s.targetOf).foldl min 7
  match cand.find? (fun t => decide (s.targetOf t = best)) with
  | some t => s.changeTo t (s.targetOf t + 1)
  | none => s

/-- What a die's tiles will be charged once the changes in progress have ended. -/
def State.tileUseAfter (s : State) (k : Nat) : Nat := ((tilesOfDie k).map (fun t => s.chargeAt t (s.targetOf t))).sum

/-- Tiles are lowered until the die fits within ALLOC again. -/
def State.fitDie (s : State) (k : Nat) : Nat → State
  | 0 => s
  | n + 1 => if s.tileRoom k < s.tileUseAfter k then State.fitDie (s.lowerOne k) k n else s

/-- A controller acts on its die: tiles are lowered while room lacks, and follow their requests where room allows. -/
def State.settleDie (s : State) (k : Nat) : State :=
  if 8 ≤ k then s
  else (tilesOfDie k).foldl (fun (s : State) t => s.admits t) (s.fitDie k 476)

/-- A write of TILE_DVFS: REQ below PCAP is refused (Table 14.2). -/
def State.dvfsWrite (s : State) (a : CsrReq) : Nat × State :=
  s.csrWrite a (fun w => if bitsN w.val 2 0 < bitsN w.old 5 3 then some 1 else none) (fun w s => s.admits w.block)

/-- DVFS_REQUEST: a write of TILE_DVFS. -/
def execDvfsRequest (t : TileId) (value : Word) (q : Requester) (s : State) : Out :=
  .next (s.dvfsWrite (wr8 (dvfsA t) value q)).2

/-- DVFS_CHANGE_DONE: ramp and switch have ended; the state is in force, the next change that is due begins, and waiting requests are
admitted (R389, R395). -/
def execDvfsChangeDone (t : TileId) (s : State) : Out :=
  .next (match Map.get 0 s.dvfs t with
    | 0 => s
    | n + 1 =>
      if s.ctime.toNat < Map.get 0 s.dvfsAt t + changeNs (s.curOf t) n then s
      else
        let s1 := (({ s with dvfs := Map.set 0 s.dvfs t 0, dvfsAt := Map.set 0 s.dvfsAt t 0, dvfsNext := Map.set 0 s.dvfsNext t 0 }).putFld
          (dvfsA t) 8 6 n).putFlag (dvfsA t) 9 false
        let s2 := match Map.get 0 s.dvfsNext t with
          | 0 => s1
          | m + 1 => s1.changeTo t m
        s2.settleDie (dieOfTile t))

/-! ## Toll (R391 to R394) -/

/-- The pool a controller grants from, with the excursion credit lent to it (R396). -/
def State.poolNow (s : State) (k : Nat) : Nat :=
  if decide (8 ≤ k) && s.dieHot k then 0 else s.poolOf k + Map.get 0 s.loans (16 + k)

/-- Credits of the grants held. -/
def State.heldOf (s : State) (k : Nat) : Nat := ((s.toll k).held.map (fun x => s.tollCost x.1)).sum

/-- TOLL_REQUEST: a request joins its controller's queue. -/
def execTollRequest (r : TollWho) (s : State) : Out := .next (s.tollEnqueue r)

/-- The first request of a controller is granted when the free pool covers it; WAIT_MAX keeps the longest wait (R393). -/
def State.tollGrant (s : State) (k : Nat) : State :=
  let t := s.toll k
  match t.queue with
  | [] => s
  | (w, at_) :: rest =>
    if s.heldOf k + s.tollCost w ≤ s.poolNow k then
      let now := s.ctime.toNat
      let wait := satN 10 (max (s.fld (dieStatA k) 49 40) ((now - at_) / 1000))
      (((s.setToll k { t with queue := rest, held := t.held ++ [(w, now)] }).tollGive w).tollStat k).putFld (dieStatA k) 49 40 wait
    else s

/-- TOLL_GRANT: controller k grants the first request of its queue. -/
def execTollGrant (k : Fin 10) (s : State) : Out := .next (s.tollGrant k)

/-- A grant is withdrawn; the holder asks again by Table 14.3. -/
def State.withdraw (s : State) (w : TollWho) : State :=
  let s1 := (s.grantReturn w).tollTake w
  if TollWho.again w then s1.tollEnqueue w else s1

/-- LEASE_EXPIRE: grant i of controller k, held for LEASE_US while the queue is not empty, is withdrawn (R393). -/
def execLeaseExpire (k : Fin 10) (i : Nat) (s : State) : Out :=
  .next (
    let t := s.toll k
    match t.held[i]? with
    | some (w, since) =>
      if !t.queue.isEmpty && decide (1000 * s.fld (dieCfgA k) 27 24 ≤ s.ctime.toNat - since) then s.withdraw w else s
    | none => s)

/-- TOLL_RETURN: the holder of grant i of controller k returns it (R393). -/
def execTollReturn (k : Fin 10) (i : Nat) (s : State) : Out :=
  .next (match (s.toll k).held[i]? with
    | some (w, _) => (s.grantReturn w).tollTake w
    | none => s)

/-! ## Estimates and excursions (R391, R396, R458) -/

/-- PWR_PKG_STAT.EST: the sum of the die estimates, saturating. -/
def State.pkgEst (s : State) : State :=
  s.putFld (pwrBase + 0x08) 13 0 (satN 14 ((List.range 10).map (fun k => s.fld (dieStatA k) 13 0)).sum)

/-- What a controller's waiting requests lack, and what its unadmitted raises lack (R396). -/
def State.poolShort (s : State) (k : Nat) : Nat :=
  s.heldOf k + ((s.toll k).queue.map (fun x => s.tollCost x.1)).sum - s.poolOf k
def State.tileShort (s : State) (k : Nat) : Nat :=
  if 8 ≤ k then 0
  else ((tilesOfDie k).map (fun t => s.chargeAt t (s.wanted t))).sum - (s.tileRoom k - Map.get 0 s.loans k)

/-- Excursion credit is lent in proportion to the shortfalls, while EXC_EN = 1 and the bucket is not empty (R396); a
controller without a waiting request or an unadmitted raise returns what it was lent. -/
def State.lend (s : State) : State :=
  let cap := s.fld pwrBase 13 0
  let total := if s.flag pwrBase 14 && decide (0 < s.bucket) then s.fld pwrBase 28 15 - cap else 0
  let short (i : Nat) : Nat := if i < 16 then s.tileShort i else s.poolShort (i - 16)
  let keys := (List.range 10) ++ (List.range 10).map (fun k => 16 + k)
  let all := (keys.map short).sum
  let give := min total all
  let loans := keys.foldl (fun (m : Map Nat) i => Map.set 0 m i (if all = 0 then 0 else give * short i / all)) []
  ({ s with loans := loans }).putFlag (pwrBase + 0x08) 14 (decide (loans ≠ []))

/-- POWER_ESTIMATE: controller k estimates its die's power; excursion credit is shared out and tiles follow the room
(R391, R395, R396). -/
def execPowerEstimate (k : Fin 10) (est : Nat) (s : State) : Out :=
  .next ((((s.putFld (dieStatA k) 13 0 (satN 14 est)).pkgEst).lend).settleDie k)

/-- PMBUS_READ: the regulators' readings correct the estimates, controller by controller; one without a reading keeps its
estimate (R391, R458). -/
def execPmbusRead (corr : List Nat) (s : State) : Out :=
  .next (((corr.take 10).zipIdx.foldl (fun (s : State) (x : Nat × Nat) => s.putFld (dieStatA x.2) 13 0 (satN 14 x.1)) s).pkgEst)

/-- Grants beyond the pool are withdrawn; which of them is a free choice (R396). -/
def State.trimPool (s : State) (k : Nat) : Nat → State
  | 0 => s
  | n + 1 =>
    let held := (s.toll k).held
    if s.poolNow k < s.heldOf k then
      match held[s.draw (max 1 held.length)]? with
      | some (w, _) => State.trimPool (s.bump.withdraw w) k n
      | none => s.bump
    else s

/-- EXCURSION_BUCKET_EMPTY: every lent credit is withdrawn and the tiles are lowered (R396). -/
def execExcursionBucketEmpty (s : State) : Out :=
  .next (
    if s.bucket = 0 then
      let s1 := ({ s with loans := [] }).putFlag (pwrBase + 0x08) 14 false
      (List.range 10).foldl (fun (s : State) k => (s.trimPool k (s.toll k).held.length).settleDie k) s1
    else s)

/-- TIME_DISTRIBUTION: the master count has advanced by a number of ticks, and every island follows it (R390); the
excursion bucket drains by 1 per tick of excursion and refills by a quarter without (R396). -/
def execTimeDistribution (ticks : Nat) (s : State) : Out :=
  .next (
    let exc := s.flag (pwrBase + 0x08) 14
    let b := if exc then s.bucket - 4 * ticks else min 40000000 (s.bucket + ticks)
    ({ s with ctime := s.ctime + BitVec.ofNat 64 ticks, bucket := b }).putFld (pwrBase + 0x08) 28 15 (b / 4000))

/-! ## Registers (R394, R397, Table 14.8) -/

/-- Sum of ALLOC over the ten dies. -/
def State.allocSum (s : State) : Nat := ((List.range 10).map (fun k => s.fld (dieCfgA k) 13 0)).sum

/-- A write of PWR_PKG (R397, Table 14.8). -/
def State.pkgWrite (s : State) (a : CsrReq) : Nat × State :=
  s.csrWrite a (fun w =>
    let cap := bitsN w.val 13 0
    let exc := bitsN w.val 28 15
    if cap < 1000 ∨ (if s.profile = 3 then 4500 else 8500) < cap ∨ (bitB w.val 14 = true ∧ s.profile = 3) ∨ exc < cap ∨
      10500 < exc ∨ cap < s.allocSum then some 1 else none) (fun _ s => s)

/-- Whether a pool and a lease keep the fairness bound (R394): the bound in tenths of a microsecond is at most 500. -/
def boundOk (nmax pool cmax lease : Nat) : Bool :=
  decide (cmax ≤ pool) && decide (ceilDiv' nmax (pool / cmax) * (lease + 1) * 10 + 2 ≤ 500)

/-- A write of PWR_DIE_CFG (R394, R397); WCLR clears WAIT_MAX. -/
def State.dieCfgWrite (s : State) (a : CsrReq) : Nat × State :=
  s.csrWrite a (fun w =>
    let k := w.ix.headD 0
    let new := s.allocSum - bitsN w.old 13 0 + bitsN w.val 13 0
    if !boundOk (s.fld (dieStatA k) 39 32) (bitsN w.val 23 14) (s.fld (dieStatA k) 58 51) (bitsN w.val 27 24) ||
      (decide (s.allocSum < new) && decide (s.fld pwrBase 13 0 < new)) then some 1 else none)
    (fun w s =>
      let k := w.ix.headD 0
      (if bitB w.val 28 then s.putFld (dieStatA k) 49 40 0 else s).settleDie k)

/-- A write of PWR_THERM: T_HOT lies above T_CTL (Table 14.8). -/
def State.thermWrite (s : State) (a : CsrReq) : Nat × State :=
  s.csrWrite a (fun w => if bitsN w.val 7 0 < bitsN w.val 15 8 then none else some 1) (fun _ s => s)

/-! ## Thermal control (R399 to R401, R459) -/

/-- The controller of a sensor: tiles 0..543, then 544 + 16 * die + stop. -/
def ctlOfSensor (i : Nat) : Nat := if i < 544 then dieOfTile i else 8 + (i - 544) / 16

/-- What the power-good loss, a rail trip and a thermal trip leave: everything outside VDD_AON is held in a cold reset
(R456). The DSE, the time base, the fuses, the flash, the sensors and the global blocks lie in VDD_AON. -/
def State.cut (s : State) : State :=
  { State.reset with
    pending := s.pending, free := s.free, ctime := s.ctime, csr := s.csr.filter (fun e => decide (dseBase ≤ e.1)),
    rej := s.rej.filter (fun e => decide (576 ≤ e.1)), nextId := s.nextId, ledgQ := s.ledgQ, temps := s.temps,
    thermAt := s.thermAt, thermOn := s.thermOn, hotAt := s.hotAt, fuses := s.fuses, flash := s.flash, dse := s.dse,
    ras := s.ras, bucket := s.bucket, pins := { s.pins with held := true, drst := [] } }

/-- The hottest filtered temperature and its sensor; the lowest number among equals. -/
def hottest (m : Map Nat) : Nat × Nat := m.foldl (fun (best : Nat × Nat) e => if best.1 < e.2 then (e.2, e.1) else best) (0, 0)

/-- The thermal step of a sensor under control or leaving it (R399). -/
def State.thermStep (s : State) (i tf : Nat) : State :=
  let now := s.ctime.toNat + 1
  let tctl := s.fld (pwrBase + 0x20) 7 0 * 65536
  let low := tctl - s.fld (pwrBase + 0x20) 19 16 * 65536
  let was := Map.get false s.thermOn i
  let on := if tctl ≤ tf then true else if tf < low then false else was
  let at_ := Map.get 0 s.thermAt i
  let s1 := { s with thermOn := Map.set false s.thermOn i on }
  let step (s : State) (down : Bool) : State :=
    let s2 := { s with thermAt := Map.set 0 s.thermAt i now }
    if i < 544 then
      let f := Map.get 0 s2.thermFloor i
      let f' := if down then min 7 (s2.targetOf i + 1) else f - 1
      ({ s2 with thermFloor := Map.set 0 s2.thermFloor i f' }).admits i
    else
      let d := 8 + (i - 544) / 16
      let c := Map.get 0 s2.poolCut d
      { s2 with poolCut := Map.set 0 s2.poolCut d (if down then min 4 (c + 1) else c - 1) }
  let lowered := if i < 544 then decide (Map.get 0 s1.thermFloor i ≠ 0) else decide (Map.get 0 s1.poolCut (8 + (i - 544) / 16) ≠ 0)
  if on then (if !was || decide (at_ + 100000 ≤ now) then step s1 true else s1)
  else if lowered && decide (at_ + 1000000 ≤ now) then step s1 false
  else s1

/-- A die becomes HOT (R400): a compute die withdraws its vector grants and requests and sets every tile to P7; an I/O
die's pool is 0 and its holders go on at their withdrawal rate. -/
def State.enterHot (s : State) (k : Nat) : State :=
  let s1 := ((s.putFlag (dieStatA k) 50 true).putFlag (pwrBase + 0x28) (28 + k) true).thermEvent
  let t := s1.toll k
  let s2 := t.held.foldl (fun (s : State) x => s.withdraw x.1) s1
  let s3 := if k < 8 then (s2.toll k).queue.foldl (fun (s : State) x => (s.grantReturn x.1).tollTake x.1) s2 else s2
  s3.settleDie k

/-- SENSOR_SAMPLE: a raw sample in °C of sensor i is filtered and acted on (R399 to R401); at 105 °C and above it is a
thermal trip (R459). -/
def execSensorSample (i : Fin 576) (raw : Nat) (s : State) : Out :=
  .next (
    let k := ctlOfSensor i
    let tf := (7 * Map.get 0 s.temps i + raw * 65536) / 8
    let s1 := { s with temps := Map.set 0 s.temps i tf }
    let s2 := if i.val < 544 then s1.putFld (dvfsA i) 18 11 (satN 8 (tf / 65536)) else s1
    let (m, site) := hottest s2.temps
    let s3 := (s2.putFld (pwrBase + 0x28) 7 0 (satN 8 (m / 65536))).putFld (pwrBase + 0x28) 17 8 site
    let tctl := s.fld (pwrBase + 0x20) 7 0 * 65536
    let was := s3.flag (pwrBase + 0x28) (18 + k)
    let now := s3.temps.any (fun e => decide (ctlOfSensor e.1 = k) && decide (tctl ≤ e.2))
    let s4 := s3.putFlag (pwrBase + 0x28) (18 + k) now
    let s5 := (if now && !was then s4.thermEvent else s4).thermStep i tf
    let thot := s.fld (pwrBase + 0x20) 15 8
    let s6 := if thot - s.fld (pwrBase + 0x20) 19 16 ≤ raw then { s5 with hotAt := Map.set 0 s5.hotAt k (s5.ctime.toNat + 1) } else s5
    let s7 := if decide (thot ≤ raw) && !s6.dieHot k then s6.enterHot k else s6
    if 105 ≤ raw then { s7.cut with pins := { s7.cut.pins with thermtrip := true } } else s7)

/-- HOT_EXIT: every raw sample of the die has stayed below T_HOT - HYST for 1 ms (R400). -/
def execHotExit (k : Fin 10) (s : State) : Out :=
  .next (
    if s.dieHot k && decide (Map.get 0 s.hotAt k + 1000000 ≤ s.ctime.toNat + 1) then
      ((s.putFlag (dieStatA k) 50 false).putFlag (pwrBase + 0x28) (28 + k) false).settleDie k
    else s)

/-! ## Domains (R402, R403) -/

/-- Address of PWR_DOM. -/
def domA : Nat := pwrBase + 0x40

/-- Numbers of each kind of domain (Table 14.4). -/
def domCount (kind : Nat) : Nat := [1088, 544, 12, 64, 2].getD kind 0

/-- The agents of a domain (Table 14.4, R167). -/
def domAgents (kind i : Nat) : List Agt :=
  if kind = 0 then [physAgt i]
  else if kind = 1 then (List.range 4).map (fun a => { router := routerOfTile i, agent := a })
  else if kind = 2 then [{ router := routerOfCh i, agent := 0 }]
  else if kind = 3 then [portAgt i]
  else [{ router := routerOfStop i 14, agent := 0 }]

/-- A physical core stops, its retired stores being written, and its L2 is drained (Table 14.4). -/
def State.drainCore (s : State) (p : Nat) : State :=
  let held := (s.l2.filter (fun e => decide (e.1 / 2 ^ 42 = p) && decide (e.2.st ≠ .I))).map (fun e => e.1 % 2 ^ 42)
  let s1 := s.giveBack p held
  match s1.carried p with
  | some n => s1.modCore n (fun k => { k with run := .off, resv := none, hold := none })
  | none => s1

/-- The stores of a physical core's logical core are all performed. -/
def State.storesDone (s : State) (p : Nat) : Bool :=
  match s.carried p with
  | some n => (s.core n).sbuf.isEmpty
  | none => true

/-- Whether the drain of a domain can end (Table 14.4). -/
def State.domReady (s : State) (kind i : Nat) : Bool :=
  if kind = 0 then s.storesDone i
  else if kind = 1 then s.storesDone (2 * i) && s.storesDone (2 * i + 1)
  else if kind = 2 then decide (3 ≤ s.fld (chBase i) 23 20)
  else if kind = 3 then decide (s.portLink i = 0) && (decide (s.portMode i = 0) || s.coord.closed.contains i || decide (s.portMode i = 2))
  else
    decide ((s.cfgw (64 + i) 0x44).toNat % 4 = 3) &&
      (List.range 256).all (fun n => decide (s.fld (engBase i + 0xC00018 + 0x1000 * n) 2 0 = 0))

/-- The drained domain of kind 0 or 1 gives its lines back; a slice is disabled with cutover. -/
def State.domDrain (s : State) (kind i : Nat) : State :=
  if kind = 0 then s.drainCore i
  else if kind = 1 then
    let s1 := (s.drainCore (2 * i)).drainCore (2 * i + 1)
    if s1.flag (tileBase i + 0x40008) 1 then s1 else ((s1.putFlag (tileBase i + 0x40000) 16 true).cutover i)
  else s

/-- Grants of a domain return to the pool (R402). -/
def State.domGrants (s : State) (kind i : Nat) : State :=
  let mine : TollWho → Bool
    | .vector p => (decide (kind = 0) && decide (p.val = i)) || (decide (kind = 1) && decide (p.val / 2 = i))
    | .unit d _ => decide (kind = 4) && decide (d.val = i)
    | .mig h => decide (kind = 2) && decide (s.hostCh h = i)
    | .speed p => decide (kind = 3) && decide (p.val = i)
  (s.tolls.flatMap (fun e => (e.2.held ++ e.2.queue).map (fun x => x.1))).foldl
    (fun (s : State) w => if mine w then (s.grantReturn w).tollTake w else s) s

/-- The die whose tiles a domain's budget belongs to. -/
def domDie (kind i : Nat) : Option Nat :=
  if kind = 0 then some (dieOfTile (i / 2)) else if kind = 1 then some (dieOfTile i) else none

/-- The proxy and the removal of power of a drained domain (R167 steps 3 and 4). -/
def State.domOff (s : State) (kind i : Nat) : State :=
  let s1 := (domAgents kind i).foldl (fun (s : State) a => s.setProxy a 1 true) (s.domDrain kind i)
  let s2 := { s1 with downDom := Map.set false s1.downDom (4096 * kind + i) true,
                      pins := if kind = 2 then { s1.pins with drst := Map.set false s1.pins.drst i false } else s1.pins }
  ((s2.putFlag domA 15 false).putFld domA 17 16 0)

/-- DOWN of a domain: fence, return of budget and grants, drain, proxy, power off; a drain that cannot end yet leaves
START at 1 (R402, R167). -/
def State.domDown (s : State) (kind i : Nat) : State :=
  if s.isDown kind i then s.putFld domA 17 16 1
  else
    let s1 := ((domAgents kind i).foldl (fun (s : State) a => s.setProxy a 0 true) s).domGrants kind i
    let s2 := if s1.domReady kind i then s1.domOff kind i else s1.putFlag domA 15 true
    match domDie kind i with
    | some k => s2.settleDie k
    | none => s2

/-- Whether a register belongs to a domain, and takes its reset value when the domain is powered up (R403): the registers of a
core's position in its tile's block, those of a tile's block, of a near channel's stop, of a port but for its mode,
which the settings fix, and of a data engine. The copies of the shared maps, the routers and the I/O translation unit
are no part of a domain. -/
def domReg (kind i pa : Nat) : Bool :=
  match regAt pa with
  | some (b, r, ix) =>
    let pos := decide (r.dims.head?.map (fun d => d.1) = some 2)
    if kind = 0 then decide (r.bk = .tile ∧ b = i / 2 ∧ pos = true ∧ ix.headD 0 = i % 2)
    else if kind = 1 then decide (r.bk = .tile ∧ b = i) && !decide (r.id = .L3_HOMEMAP ∨ r.id = .L3_REDIR)
    else if kind = 2 then decide (r.bk = .near ∧ blockBase b = chBase i)
    else if kind = 3 then decide (r.bk = .port ∧ blockBase b = portBase i ∧ ix.headD 0 = i % 4 ∧ r.id ≠ .PRT_MODE)
    else decide (r.bk = .eng ∧ blockBase b = engBase i) &&
      !([Rid.IOT_CTL, .IOT_CTXBASE, .IOT_CTXINV, .IOT_FLOG_CTL, .IOT_FIRQ, .IOT_HOMEMAP, .IOT_FLOG, .DEN_CAP].contains r.id)
  | none => false

/-- UP of a domain (R403): power and reset, the budget charged (a tile without room starts at P7), PROXY and FENCE
cleared. A near channel's stop is tested and trained (R449): `e` says how its modules train, `ok` whether its checkers
pass. -/
def State.domUp (s : State) (kind i : Nat) (e : ChanEnv) (ok : Bool) : State :=
  if !s.isDown kind i then s.putFld domA 17 16 1
  else
    let was := s.fld (chBase i) 23 20
    let s1 : State :=
      { s with downDom := Map.set false s.downDom (4096 * kind + i) false, csr := s.csr.filter (fun x => !domReg kind i x.1),
               pins := if kind = 2 then { s.pins with drst := Map.set false s.pins.drst i true } else s.pins,
               cfg := if 3 ≤ kind then s.cfg.filter (fun x => decide (x.1 / 4096 ≠ (if kind = 3 then i else 64 + i))) else s.cfg }
    let s2 := if kind < 2 then
        let p := if kind = 0 then i else 2 * i
        let ns := ((s1.carried p).toList ++ (s1.carried (if kind = 0 then i else p + 1)).toList)
        ns.foldl (fun (s : State) n => s.setCore n Core.reset) s1
      else if kind = 2 then s1.chanUp i was e ok
      else if kind = 3 then s1.modPort i (fun y => { y with out := [], wait := [], quar := [], wins := [] })
      else s1.setEng i Engine.reset
    let s3 := match domDie kind i with
      | some k =>
        let t := if kind = 0 then i / 2 else i
        if s2.tileRoom k < s2.tileUse k then s2.putFld (dvfsA t) 8 6 7 else s2
      | none => s2
    let s4 := (domAgents kind i).foldl (fun (s : State) a => (s.setProxy a 1 false).setProxy a 0 false) s3
    s4.putFld domA 17 16 0

/-- A write of PWR_DOM (R402, R403): an unknown kind or index, and a START while a command runs, are refused. -/
def State.domWriteAs (s : State) (a : CsrReq) (e : ChanEnv) (ok : Bool) : Nat × State :=
  s.csrWrite a (fun w =>
    if domCount (bitsN w.val 2 0) ≤ bitsN w.val 13 3 ∨ (bitB w.val 15 = true ∧ bitB w.old 15 = true) then some 1 else none)
    (fun w s =>
      if bitB w.val 15 then
        (if bitB w.new 14 then s.domUp (bitsN w.new 2 0) (bitsN w.new 13 3) e ok else s.domDown (bitsN w.new 2 0) (bitsN w.new 13 3))
      else s)

/-- A write of PWR_DOM that does not say what an UP finds: free values. -/
def State.domWrite (s : State) (a : CsrReq) : Nat × State :=
  let m := Config.modules s.free
  s.bump.domWriteAs a { density := m.1, ranks := m.2.1, pass := m.2.2.1 } m.2.2.2

/-- DOMAIN_DOWN: a write of PWR_DOM with START and ACTION = DOWN. -/
def execDomainDown (value : Word) (q : Requester) (s : State) : Out :=
  .next (s.domWriteAs (wr8 domA (putB (putB value 14 false) 15 true) q) { density := 0, ranks := 0, pass := [] } false).2
/-- DOMAIN_UP: a write of PWR_DOM with START and ACTION = UP. -/
def execDomainUp (value : Word) (q : Requester) (e : ChanEnv) (ok : Bool) (s : State) : Out :=
  .next (s.domWriteAs (wr8 domA (putB (putB value 14 true) 15 true) q) e ok).2

/-- DOMAIN_DRAIN_TIMEOUT: the time of Table 14.4 is over. A drain that has ended by now completes the command; one that
has not ends it with DRAIN_TIMEOUT, and the domain stays fenced (R403). -/
def execDomainDrainTimeout (s : State) : Out :=
  .next (
    if s.flag domA 15 then
      let kind := s.fld domA 2 0
      let i := s.fld domA 13 3
      if s.domReady kind i then s.domOff kind i else (s.putFlag domA 15 false).putFld domA 17 16 2
    else s)

end Sys2Proof.Machine
end

