-- ==== Sys2Proof/Machine/Perf.lean ====
section
/-! DEFINITION. Performance monitoring (13_performance_monitoring.md): sample rings (R377, R379), uncore counters (R382)
and Keystone snapshots (R385 to R387). -/

namespace Sys2Proof.Machine
open Sys2Proof

/-! ## Sampling (R377, R379) -/

/-- SAMPLE_RECORD_WRITE: the tile writes the next record of a core (a LOST record first while drops are unreported) and
the write completes with a status; the tail advances and the watermark interrupt is sent once per crossing, or ERR stops
sampling (R377). -/
def execSampleRecordWrite (c : CoreId) (status : BitVec 8) (s : State) : Out :=
  .next (
    let k := s.core c
    let size := 2 ^ bitsN (k.srv 0x330) 4 0
    let tail := (k.srv 0x332).toNat
    let head := (k.srv 0x331).toNat
    let lost := decide (0 < k.sampDrop)
    let rec? : Option (List Word) := if lost then
        some [sampWord0 3 0 k.pl k.vf 0 0 c 0 0, 0, BitVec.ofNat 64 k.sampDrop, 0, 0, s.ctime, 0, 0]
      else k.sampQ.head?
    match rec? with
    | none => s
    | some r =>
      if (tail + 1) % size = head ∨ bitB (s.rdCsr (keyBase + 0x10)) 32 = true then s
      else
        let w0 := r.headD 0
        let r' := if bitsN w0 3 0 = 4 then r else setAt r 5 s.ctime
        let s1 := s.modCore c (fun k => if lost then { k with sampDrop := 0 } else { k with sampQ := k.sampQ.tail })
        let w := s1.dmaWrite (physAgt (s.phys c)) (bitsN (k.srv 0x330) 51 12 * 2 ^ 12 + 64 * tail) (wordsLine r') 64
        if status = 0 ∧ w.1 = 0 then
          let n := (tail + size - head) % size
          let s2 := w.2.modCore c (fun k => k.setSr 0x332 (BitVec.ofNat 64 ((tail + 1) % size)))
          let mark := bitsN (k.srv 0x333) 47 32
          if bitB (k.srv 0x333) 31 && decide (mark ≤ (n + 1) % size) && decide (n < mark) then
            s2.pend c (bitsN (k.srv 0x301) 10 2)
          else s2
        else s1.modCore c (fun k => k.setSr 0x333 (putB (putB (k.srv 0x333) 48 true) 0 false)))

/-- SAMP_TCLAIM: an MTSR to samp_ctl (R379). -/
def execSampTclaim (c : CoreId) (ra : Reg) (s : State) : Out := .next (s.mtsr c ra 0x333)
/-- SAMP_TRELEASE: an MTSR to samp_ctl (R379). -/
def execSampTrelease (c : CoreId) (ra : Reg) (s : State) : Out := .next (s.mtsr c ra 0x333)
/-- SAMP_BASE: an MTSR to samp_base (R377). -/
def execSampBase (c : CoreId) (ra : Reg) (s : State) : Out := .next (s.mtsr c ra 0x330)
/-- SAMP_HEAD: an MTSR to samp_head (R377). -/
def execSampHead (c : CoreId) (ra : Reg) (s : State) : Out := .next (s.mtsr c ra 0x331)

/-! ## Uncore counters and tagging registers (R381, R382) -/

/-- The highest event code of counter pair i of a block (Table 13.10); 0 where the pair is reserved. -/
def lastEvent (b i : Nat) : Nat :=
  if 6 ≤ i then 5
  else if b < 544 then 0x0E
  else
    let st := (b - 544) % 16
    if stopIs st .near then 0x11 else if stopIs st .port then 0x0D else if stopIs st .eng then 8 else 0

/-- A write of PMU_SEL: an unlisted event is refused, and so is a filter of a slice pair (Table 13.10); the service
stop's pairs 0 to 5 are reserved. -/
def State.pmuSelWrite (s : State) (a : CsrReq) : Nat × State :=
  s.csrWrite a (fun w =>
    let m := lastEvent w.block (w.ix.headD 0)
    let ev := bitsN w.val 7 0
    if m = 0 then none
    else if ev = 0 ∨ m < ev ∨ (w.block < 544 ∧ w.ix.headD 0 < 6 ∧ bitsN w.val 24 9 ≠ 0) then some 1
    else none)
    (fun w s => if lastEvent w.block (w.ix.headD 0) = 0 then s.wrCsr w.pa w.old else s)

/-- A write of PMU_TAG_BASE: the ring lies in system memory; an accepted write restarts it (R381, Table 13.5). -/
def State.tagBaseWrite (s : State) (a : CsrReq) : Nat × State :=
  s.csrWrite a (fun w => if 2 ^ 48 < bitsN w.val 51 12 * 2 ^ 12 + 64 * 2 ^ bitsN w.val 4 0 then some 1 else none)
    (fun w s => (s.wrCsr (w.pa + 8) 0).wrCsr (w.pa + 16) 0)

/-- A write of PMU_TAG_HEAD keeps R9. -/
def State.tagHeadWrite (s : State) (a : CsrReq) : Nat × State :=
  s.csrWrite a (fun w =>
    if badHead (2 ^ s.fld (w.pa - 8) 4 0) (s.rdCsr (w.pa + 8)).toNat w.old.toNat (bitsN w.val 15 0) then some 1 else none)
    (fun _ s => s)

/-! ## Keystone (R385 to R387) -/

/-- Addresses of KEY_CTL and KEY_STATUS. -/
def keyCtl : Nat := keyBase
def keyStat : Nat := keyBase + 0x10

/-- A write of KEY_CTL (R386, R387). -/
def State.keyWrite (s : State) (a : CsrReq) : Nat × State :=
  s.csrWrite a (fun w =>
    let act := bitsN w.val 1 0
    let per := bitsN w.val 35 4
    let frozen := s.flag keyStat 32
    if 0 < per ∧ per < 100 then some 1
    else if bitB w.val 2 && (bitB w.old 2 || decide ((s.rdCsr (keyBase + 8)).toNat < s.ctime.toNat + 20000) ||
        (decide (act = 1) && frozen) || (decide (act = 2) && !frozen) || (decide (per ≠ 0) && decide (act ≠ 0))) then some 1
    else none)
    (fun w s =>
      if bitB w.val 2 then s.putFlag keyCtl 2 true
      else if bitB w.val 3 && bitB w.old 2 && decide (s.ctime.toNat < (s.rdCsr (keyBase + 8)).toNat) then
        ({ s with snap := { s.snap with armed := [] } }).putFlag keyCtl 2 false
      else s)

/-- KEY_SNAP: a write of KEY_CTL with ARM and ACTION SNAP. -/
def execKeySnap (value : Word) (q : Requester) (s : State) : Out :=
  .next (s.keyWrite (wr8 keyCtl (putW value 3 0 4) q)).2
/-- KEY_FREEZE: a write of KEY_CTL with ARM and ACTION FREEZE. -/
def execKeyFreeze (value : Word) (q : Requester) (s : State) : Out :=
  .next (s.keyWrite (wr8 keyCtl (putW value 3 0 5) q)).2
/-- KEY_THAW: a write of KEY_CTL with ARM and ACTION THAW. -/
def execKeyThaw (value : Word) (q : Requester) (s : State) : Out :=
  .next (s.keyWrite (wr8 keyCtl (putW value 3 0 6) q)).2
/-- KEY_CANCEL: a write of KEY_CTL with CANCEL. -/
def execKeyCancel (value : Word) (q : Requester) (s : State) : Out :=
  .next (s.keyWrite (wr8 keyCtl (putW value 3 2 2) q)).2

/-- All instances of a register's dimensions. -/
def allIx : List (Nat × Nat) → List (List Nat)
  | [] => [[]]
  | (n, _) :: ds => (List.range n).flatMap (fun i => (allIx ds).map (fun l => i :: l))

/-- Whether a block is left out of a copy: its router is out of service, an agent of it is fenced or proxied, or a
logical core of it is MOVING (Table 13.12). -/
def State.keyMiss (s : State) (b : Nat) : Bool :=
  let r := if b < 576 then routerOfBlock b else s.dseA.router
  s.flag (routerBase r + 0x50000) 2 ||
    (List.range 8).any (fun g => s.fenced { router := r, agent := g } || s.proxied { router := r, agent := g }) ||
    (decide (b < 544) && (List.range 1024).any (fun n => decide (s.lcState n = 2) && decide (s.phys n / 2 = b)))

/-- Block b copies its counters and status into its snapshot page under a sequence number (R386 step 3). -/
def State.copyBlock (s : State) (b seq : Nat) (late : Bool) : State :=
  let sn := s.snap
  let base := blockBase b
  let mine (pa : Nat) : Bool := decide (blockNo pa = some b)
  let csr0 := sn.csr.filter (fun e => !mine e.1)
  let csr1 := (rowsOf b).foldl (fun (m : Map Word) r =>
    if r.shadowed then
      (allIx r.dims).foldl (fun (m : Map Word) ix =>
        let pa := base + offOf r ix
        Map.set (csrReset s.profile pa) m pa (s.regSee b r ix pa)) m
    else m) csr0
  let cores := if b < 544 then [2 * b, 2 * b + 1] else []
  let sr1 := cores.foldl (fun (m : Map (Map Word)) p =>
    let c := s.coreOfPhys p
    let regs := (List.range 0x500).foldl (fun (x : Map Word) n =>
      if srShadowed n then Map.set (srReset n) x n (if n = 2 then s.rdCsr (keyBase + 8) else s.srSnap c n) else x) []
    Map.set [] m p regs) sn.sr
  { s.bump with snap :=
    { sn with pages := Map.set 0 sn.pages b seq, lates := Map.set false sn.lates b late, prof := s.profile, csr := csr1,
              sr := sr1, rej := Map.set { ents := [], ovf := false, total := 0 } sn.rej b (s.rejOf b),
              clr := sn.clr.filter (fun e => !mine e.1), armed := Map.set false sn.armed b false } }

/-- The blocks that an arming broadcast reaches. -/
def KeyAgent.blocks : KeyAgent → List Nat
  | .block b => [b.val]
  | .all => List.range 580

/-- KEY_ARM_BCAST: the arming broadcast reaches a block's island, which holds it; when the tick has passed, the island
copies at once and marks the copy late (R386, Table 13.12); one that has its copy holds the arming of the next tick. -/
def execKeyArmBcast (b : KeyAgent) (s : State) : Out :=
  .next (
    if !s.flag keyCtl 2 && s.snap.due.isEmpty then s
    else
      (KeyAgent.blocks b).foldl (fun (s : State) n =>
        let seq := (s.fld keyStat 31 0 + s.snap.due.length) % 2 ^ 32
        if !s.snap.due.isEmpty && decide (Map.get 0 s.snap.pages n ≠ seq) then
          if s.keyMiss n then s else (s.copyBlock n seq true).putFlag keyStat 49 true
        else if !s.flag keyCtl 2 then s
        else { s with snap := { s.snap with armed := Map.set false s.snap.armed n true } }) s)

/-- KEYSTONE_TICK: at the tick every island that holds the arming copies its page; FREEZE stops the counters and THAW
restarts them; a periodic snapshot arms its next tick (R386). -/
def execKeystoneTick (s : State) : Out :=
  .next (
    let tick := s.rdCsr (keyBase + 8)
    if !s.flag keyCtl 2 || decide (s.ctime.toNat < tick.toNat) || s.snap.due.contains tick then s
    else
      let act := s.fld keyCtl 1 0
      let seq := (s.fld keyStat 31 0 + s.snap.due.length + 1) % 2 ^ 32
      let bs := (s.snap.armed.filter (fun e => e.2)).map (fun e => e.1)
      let s0 := s.putFlag keyStat 49 false
      let s1 := bs.foldl (fun (s : State) b => if s.keyMiss b then s else s.copyBlock b seq false) s0
      let s2 := { s1 with snap := { s1.snap with armed := [], due := s1.snap.due ++ [tick] } }
      let s3 := if act = 1 then s2.putFlag keyStat 32 true else if act = 2 then s2.putFlag keyStat 32 false else s2
      let per := s.fld keyCtl 35 4
      if per ≠ 0 then s3.wrCsr (keyBase + 8) (tick + BitVec.ofNat 64 (per * 1000)) else s3)

/-- KEYSTONE_DONE: the oldest tick's count queries have counted every copy, or 1 ms has passed: SEQ advances, MISSED counts
the blocks without a copy, ARM returns to 0 unless the snapshot is periodic, and the interrupt is sent (R386). -/
def execKeystoneDone (timedOut : Bool) (s : State) : Out :=
  .next (match s.snap.due with
    | [] => s
    | tick :: rest =>
      let seq := (s.fld keyStat 31 0 + 1) % 2 ^ 32
      let missed := ((List.range 580).filter (fun b => decide (Map.get 0 s.snap.pages b < seq))).length
      if !timedOut && decide (missed ≠ 0) then s
      else
        let s1 := ((({ s with snap := { s.snap with due := rest } }).putFld keyStat 31 0 seq).putFld keyStat 48 33 missed).wrCsr
          (keyBase + 0x18) tick
        (if s.fld keyCtl 35 4 = 0 then s1.putFlag keyCtl 2 false else s1).sendIrq (keyBase + 0x20))

end Sys2Proof.Machine
end

