-- ==== Sys2Proof/Machine/Port.lean ====
section
/-! DEFINITION. Ports (11_ports_and_endpoints.md): links, CXL memory requests, PCI Express requests and completions,
hot-plug, and error reporting. -/

namespace Sys2Proof.Machine
open Sys2Proof

/-! ## Root port events (R334) -/

/-- A hot-plug or link event in Slot Status: its bit, and the MSI when its own enable and the hot-plug interrupt enable of
Slot Control are 1 (R334). -/
def State.slotEvent (s : State) (p bit enable : Nat) : State :=
  let s1 := s.cfgOr p 0x78 (BitVec.ofNat 32 (2 ^ bit))
  if (s.cfgw p 0x78).getLsbD 5 && (s.cfgw p 0x78).getLsbD enable then s1.rootMsi p else s1

/-! ## Answers -/

/-- A request answered by its port: status and detail; data of a CXL read is poisoned with every status but OK (R312,
R316). -/
def State.portAnswer (s : State) (q : Pkt) (status detail : Nat) (d : Line) (poison : Bool) : State :=
  s.inject { rsp q (answerOp q.op) status with
    detail := detail, data := if status = 0 ∨ status = 6 then d else BitVec.allOnes 512, poison := poison }

/-- Whether a packet is a posted write on the link. -/
def isPosted (q : Pkt) : Bool := decide (q.op = .SeWr)

/-- A PAtom is lost after its write was sent, or before it (R127, R312): whether the write was performed is a free choice;
the answer is ATOMIC_UNKNOWN with the old value poisoned. -/
def State.lostAtomic (s : State) (q : Pkt) (sent : Bool) : State :=
  let old : Line := BitVec.ofNat 512 (s.rdN (64 * q.line + (q.aOp).2.2.1) (q.aOp).2.2.2.1)
  (if !sent then s else if s.draw 2 = 0 then s.bump else (s.bump.doAtomic q.line q).1).portAnswer q 6 0 old true

/-- The completion of an inbound read carried by a peer window, returned to its requester (R331). -/
def State.carryEnd (s : State) (r : LinkReq) (status : Nat) (d : Line) : State :=
  match r.carry with
  | some (p, _, _) => s.toDevice p [2, r.rid, r.rtag, status, d.toNat]
  | none => s

/-- A carried read that times out or whose target's link goes down: Completer Abort, logged as INBOUND_UR and reported by
the port it came through (Table 11.4). -/
def State.carryLost (s : State) (r : LinkReq) : State :=
  match r.carry with
  | some (p, _, _) => ((s.portFault p 8 r.rid r.rtag r.pkt.addr 0).aerUnc p 15).2.carryEnd r 4 0
  | none => s

/-- An outstanding request ends because its link is gone (R312). -/
def State.endOut (s : State) (kind : Nat) (r : LinkReq) : State :=
  if r.carry.isSome then s.carryLost r
  else match r.pkt.op with
    | .PRd => s.portAnswer r.pkt 5 kind 0 true
    | .PAtom =>
      if r.phase = 0 then s.portAnswer r.pkt 5 kind 0 true
      else s.lostAtomic r.pkt true
    | _ => s.portAnswer r.pkt 5 kind 0 false

/-- A waiting request ends: a posted write not yet sent is dropped and logged (R312). -/
def State.endWait (s : State) (p kind : Nat) (x : Pkt × Bool) : State :=
  if isPosted x.1 && !x.2 then s.prtLog p kind 0 0 x.1.addr
  else s.portAnswer x.1 5 kind 0 (decide (x.1.op = .PRd ∨ x.1.op = .PAtom))

/-- Every transaction of a link ends at once, and quarantined tags are freed (R312). -/
def State.linkEnd (s : State) (p st kind : Nat) : State :=
  let x := s.port p
  let s1 := (s.setPort p { x with out := [], wait := [], quar := [] }).setLink p st
  let s2 := x.out.foldl (fun (s : State) r => s.endOut kind r) s1
  x.wait.foldl (fun (s : State) w => s.endWait p kind w) s2

/-- A link taken down by software or by a loss of lanes: DOWN, logged as LINK_DOWN (R312, R338). -/
def State.linkDrop (s : State) (p : Nat) : State := (s.linkEnd p 0 1).prtLog p 1 0 0 0

/-! ## Requests to the link -/

/-- A request goes on the link: a posted write is performed as it is accepted (R318); any other takes a tag. -/
def State.linkSend (s : State) (p : Nat) (q : Pkt) (cfg : Bool) : State :=
  let cxl := decide (s.portMode p = 1)
  let s1 := (s.portEv p 0x01).portEv p (if opIsReq q.op && decide (q.op = .PRd ∨ q.op = .SeRd) then 0x05 else 0x06)
  if isPosted q && !cfg then
    (s1.toDevice p [1, q.addr, (q.seOp).2.1, 0, q.data.toNat]).portAnswer q 0 0 0 false
  else
    match (s.port p).freeTag (if cxl then 4096 else 768) with
    | some t => s1.modPort p (fun x =>
        { x with out := x.out ++ [{ pkt := q, tag := t, phase := 0, cfg := cfg, carry := none, rid := 0, rtag := 0, tr := none, marks := [] }] })
    | none => s.modPort p (fun x => { x with wait := x.wait ++ [(q, cfg)] })

/-- Whether a request must wait in the port's buffers: the link is not UP, a PAtom on the same line is under way (R314),
no tag is free, or 256 tags are in quarantine (R321). -/
def State.mustWait (s : State) (p : Nat) (q : Pkt) (cfg : Bool) : Bool :=
  let x := s.port p
  let cxl := decide (s.portMode p = 1)
  decide (s.portLink p ≠ 2) ||
    (cxl && x.out.any (fun r => decide (r.pkt.op = .PAtom) && decide (r.pkt.line = q.line))) ||
    (!(isPosted q && !cfg) && ((x.freeTag (if cxl then 4096 else 768)).isNone || (!cxl && decide (256 ≤ x.quar.length)))) ||
    x.wait.any (fun w => !cxl || decide (w.1.line = q.line))

/-- A request is taken by a port whose link works or retrains. -/
def State.linkTake (s : State) (p : Nat) (q : Pkt) (cfg : Bool) : State :=
  if s.mustWait p q cfg then s.modPort p (fun x => { x with wait := x.wait ++ [(q, cfg)] }) else s.linkSend p q cfg

/-- The waiting requests of a port tried again in arrival order. -/
def State.linkRetry (s : State) (p : Nat) : State :=
  let w := (s.port p).wait
  w.foldl (fun (s : State) x => s.linkTake p x.1 x.2) (s.modPort p (fun x => { x with wait := [] }))

/-- A level-2 request of a home agent at a CXL memory port (R314); a port without a working link answers PORT_ERROR. -/
def State.cxlTake (s : State) (p : Nat) (q : Pkt) : State :=
  let st := s.portLink p
  if s.portMode p ≠ 1 ∨ st = 0 ∨ 4 ≤ st then s.portAnswer q 5 1 0 (decide (q.op = .PRd ∨ q.op = .PAtom))
  else s.linkTake p q false

/-- PRD: a home agent's read becomes MemRd. -/
def execPrd (p : Pkt) (s : State) : Out :=
  .next (if p.op = .PRd then s.deliver p (fun s => s.cxlTake (agtPort p.dst) p) else s)
/-- PWRF: a full write becomes MemWr. -/
def execPwrf (p : Pkt) (s : State) : Out :=
  .next (if p.op = .PWrF then s.deliver p (fun s => s.cxlTake (agtPort p.dst) p) else s)
/-- PWRP: a partial write becomes MemWrPtl. -/
def execPwrp (p : Pkt) (s : State) : Out :=
  .next (if p.op = .PWrP then s.deliver p (fun s => s.cxlTake (agtPort p.dst) p) else s)
/-- PATOM: an atomic is a MemRd, then a MemWrPtl of the result. -/
def execPatom (p : Pkt) (s : State) : Out :=
  .next (if p.op = .PAtom then s.deliver p (fun s => s.cxlTake (agtPort p.dst) p) else s)

/-- The outstanding request under a tag, and the port without it. -/
def Port.pick (x : Port) (t : Nat) : Option LinkReq := x.out.find? (fun r => decide (r.tag = t))
def Port.drop (x : Port) (t : Nat) : Port := { x with out := x.out.filter (fun r => decide (r.tag ≠ t)) }

/-- The stored image of a line's CHIVE block with the bytes that its device changed (R45). -/
def State.patchImage (s : State) (line : Nat) : List (Nat × Byte) → State
  | [] => s
  | (o, v) :: l =>
    let k := blkKey (line / 2 ^ 15) (line / 64 % 512)
    State.patchImage { s with images := Map.set [] s.images k ((Map.get [] s.images k).set o v) } line l

/-- CXL_RESPONSE: a response that carries a system line may find it poisoned; one that carries part of a CHIVE block may find
the stored image changed. A response ends its request, sends the write half of a PAtom, or frees a quarantined tag (R314 to R316). -/
def execCxlResponse (p : PortId) (tag : BitVec 12) (e : CxlEnv) (s : State) : Out :=
  .next (
    let t := tag.toNat
    let x := s.port p
    if s.portMode p ≠ 1 then s
    else if x.quar.contains t then s.setPort p { x with quar := x.quar.filter (fun y => decide (y ≠ t)) }
    else match x.pick t with
      | none => s
      | some r =>
        let s0 := s.portEv p 0x02
        let q := r.pkt
        let sys := decide (q.detail = 0 ∨ q.detail = 5)
        let bad := e.poison || (sys && s.poisoned q.line)
        let mark (s : State) : State := if e.poison && sys then s.setPoison q.line true else s
        match q.op with
        | .PRd =>
          let s1 := (mark (s0.setPort p (x.drop t))).patchImage q.line e.patch
          (s1.inject { rsp q .Data 0 with data := s.rdLine q.line, poison := bad }).linkRetry p
        | .PAtom =>
          if r.phase = 0 then
            let off := (q.aOp).2.2.1
            let size := (q.aOp).2.2.2.1
            if bad then ((mark (s0.setPort p (x.drop t))).portAnswer q 0 0 (BitVec.ofNat 512 (s.rdN (64 * q.line + off) size)) true).linkRetry p
            else s0.setPort p { x with out := x.out.map (fun y => if y.tag = t then { y with phase := 1 } else y) }
          else
            let (s1, old) := (s0.setPort p (x.drop t)).doAtomic q.line q
            (s1.portAnswer q 0 0 (BitVec.ofNat 512 old) false).linkRetry p
        | _ => ((s0.setPort p (x.drop t)).portAnswer q 0 0 0 false).linkRetry p)

/-- MEM_TIMEOUT: a CXL.mem request has no response in time; its tag enters quarantine (R316). -/
def execMemTimeout (p : PortId) (tag : BitVec 12) (s : State) : Out :=
  .next (
    let t := tag.toNat
    let x := s.port p
    match (if s.portMode p = 1 then x.pick t else none) with
    | none => s
    | some r =>
      let q := r.pkt
      let s1 := (s.setPort p { x.drop t with quar := x.quar ++ [t] }).portFault p 4 0 t q.addr 3
      let s2 := match q.op with
        | .PRd => s1.portAnswer q 4 0 0 true
        | .PAtom =>
          s1.lostAtomic q (decide (r.phase ≠ 0))
        | _ => s1.portAnswer q 4 0 0 false
      s2.linkRetry p)

/-! ## PCI Express completions (R320, R321, R338) -/

/-- COMPLETION_RECEIVED: a completion ends its request; one for a quarantined or unknown tag is logged as unexpected
(R320, R321, R338). -/
def execCompletionReceived (p : PortId) (tag : Nat) (e : CplEnv) (s : State) : Out :=
  .next (
    let x := s.port p
    let s0 := s.portEv p 0x02
    if s.portMode p ≠ 2 then s
    else if x.quar.contains tag then
      ((s0.setPort p { x with quar := x.quar.filter (fun y => decide (y ≠ tag)) }).prtLog p 0x0A 0 tag 0).linkRetry p
    else match x.pick tag with
      | none => s0.prtLog p 0x0A 0 tag 0
      | some r =>
        let q := r.pkt
        let s1 := s0.setPort p (x.drop tag)
        let ended (s : State) : State := s.linkRetry p
        match e.status with
        | .rrs =>
          if !r.cfg then ended ((if r.carry.isSome then s1.carryEnd r 1 0 else s1.portAnswer q 5 5 0 false).portFault p 5 0 tag q.addr 0)
          else if decide (q.op = .SeRd) && decide (q.addr % 4096 = 0) && decide ((q.seOp).2.1 = 4) && (s.cfgw p 0x7C).getLsbD 4 then
            ended (s1.portAnswer q 0 0 0xFFFF0001 false)
          else s0
        | .ur => ended ((if r.carry.isSome then s1.carryEnd r 1 0 else s1.portAnswer q 5 5 0 false).portFault p 5 0 tag q.addr 0)
        | .ca => ended ((if r.carry.isSome then s1.carryEnd r 4 0 else s1.portAnswer q 5 6 0 false).portFault p 6 0 tag q.addr 0)
        | .sc =>
          let d := Config.freeLine s.free
          let s2 := s1.bump
          let s3 := if e.ep then s2.prtLog p 9 0 tag q.addr else s2
          ended (if r.carry.isSome then s3.carryEnd r (if e.ep then 0x100 else 0) d
            else s3.portAnswer q 0 0 (if decide (q.op = .SeRd) then d else 0) e.ep))

/-- CPL_TIMEOUT: a non-posted request exceeds its completion timeout; its tag enters quarantine (R321). -/
def execCplTimeout (p : PortId) (tag : Nat) (s : State) : Out :=
  .next (
    let x := s.port p
    match (if s.portMode p = 2 then x.pick tag else none) with
    | none => s
    | some r =>
      let s1 := (s.setPort p { x.drop tag with quar := x.quar ++ [tag] }).portFault p 3 0 tag r.pkt.addr 3
      let s2 := (s1.aerUnc p 14).2
      (if r.carry.isSome then s2.carryLost r else s2.portAnswer r.pkt 4 0 0 true).linkRetry p)

/-- RRS_EXHAUSTED: a configuration request is still retried when RRS_MS passes (R320). -/
def execRrsExhausted (p : PortId) (tag : Nat) (s : State) : Out :=
  .next (
    let x := s.port p
    match (if s.portMode p = 2 then x.pick tag else none) with
    | none => s
    | some r =>
      if r.cfg then (((s.setPort p (x.drop tag)).portFault p 0x0D 0 tag r.pkt.addr 0).portAnswer r.pkt 5 0x0D 0 false).linkRetry p
      else s)

/-- A side-effect access in a port's MMIO window (R307, R317): only a root port sends it, and a CXL memory port takes the
DSE's alone. -/
def State.mmioTake (s : State) (p : Nat) (q : Pkt) (r : Requester) : State :=
  let st := s.portLink p
  let write := decide (q.op = .SeWr)
  if s.portMode p = 0 ∨ (s.portMode p = 1 ∧ r.dse = false) then
    ((s.aerrQ q.addr write r).answer q 2)
  else if s.portMode p = 1 then (if st = 2 ∨ st = 3 then s.linkTake p q false else s.answer q 5)
  else if s.mmioHit p q.addr && decide (st = 2 ∨ st = 3) then s.linkTake p q false
  else
    let s1 := s.prtLog p 7 0 0 q.addr
    if write then s1.portAnswer q 0 0 0 false else s1.portAnswer q 5 7 0 false

/-! ## Links (R308 to R312, R335, R336) -/

/-- Frames that a device of a capacity gives its port: C_p / 2 MiB, at most 4 TiB (R313). -/
def capFrames (bytes : Nat) : Nat := min (bytes / 2 ^ 21) (2 ^ 21)

/-- Frames of a device added to the far pool: F, res and the free count rise (R336). -/
def State.addFrames (s : State) (p n : Nat) : State :=
  let l := s.layout
  let s1 := { s with layout := { l with added := (p, n) :: l.added.filter (fun x => decide (x.1 ≠ p)) },
                     coord := { s.coord with closed := s.coord.closed.filter (fun x => decide (x ≠ p)) } }
  ((s1.setFarCap (s1.fld capFarA 27 0 + n)).putFld freeFarA 27 0 (s1.fld freeFarA 27 0 + n)).spillAll

/-- Lanes of PRT_MODE.MAX_WIDTH. -/
def maxLanes (w : Nat) : Nat := 8 / 2 ^ w

/-- The widest width whose lanes are all good (R308): x4 on lanes 7 to 4 only where the partner accepts reversal. -/
def widestOf (ok : Nat) (reverse : Bool) : Nat :=
  if ok % 256 = 255 then 8
  else if ok % 16 = 15 ∨ (reverse = true ∧ ok / 16 % 16 = 15) then 4
  else if ok % 4 = 3 then 2
  else if ok % 2 = 1 then 1
  else 0

/-- What a port's training reaches without its retired lanes (R308, R450). -/
def State.lanesLeft (s : State) (p : Nat) (e : TrainEnv) : TrainEnv :=
  let out := (List.range 8).filter (fun i => s.dse.gone.contains [18, p, i])
  if out = [] then e
  else
    let ok := out.foldl (fun (w : Nat) i => if w.testBit i then w - 2 ^ i else w) e.lanes.toNat
    { e with lanes := BitVec.ofNat 8 ok, width := min e.width (widestOf ok (decide (e.width = 4))) }

/-- Whether a training result is permitted by the port's mode (R308, Table 11.2). -/
def State.trainOk (s : State) (p : Nat) (e0 : TrainEnv) : Bool :=
  let e := s.lanesLeft p e0
  let m := s.rdCsr (prtBase p)
  e.ok && decide (1 ≤ e.speed ∧ e.speed ≤ bitsN m 4 2) && [1, 2, 4, 8].contains e.width && decide (e.width ≤ maxLanes (bitsN m 6 5)) &&
    (decide (bitsN m 1 0 ≠ 1) || (e.type3 && decide (5 ≤ e.speed) && decide (4 ≤ e.width)))

/-- The end of a port's training: UP, or FAILED with TRAIN_FAIL (R308). -/
def State.trained (s : State) (p : Nat) (e0 : TrainEnv) : State :=
  let e := s.lanesLeft p e0
  let a := prtBase p + 8
  if s.trainOk p e0 then
    let s1 := ((s.setLink p 2).putFld a 6 4 e.speed).putFld a 10 7 e.width
    let s2 := ((s1.putFld a 18 11 e.lanes.toNat).putFlag a 19 (decide (e.speed = 6))).putFlag a 20
      (decide (e.width < maxLanes (s.fld (prtBase p) 6 5)) && decide (e.lanes.toNat ≠ 255))
    let s3 := if s.portMode p = 2 then s2.slotEvent p 24 12 else s2
    s3.linkRetry p
  else (s.linkEnd p 5 0x0E).portFault p 0x0E 0 0 0 2

/-- LINK_TRAINED: a port in TRAINING completes; a device being added joins the far pool (R308, R336). -/
def execLinkTrained (p : PortId) (e : TrainEnv) (s : State) : Out :=
  .next (
    if s.portLink p ≠ 1 then s
    else
      let s1 := s.trained p e
      if decide (s1.portLink p = 2) && (s1.port p).adding && decide (s1.portMode p = 1) then
        (s1.modPort p (fun x => { x with adding := false })).addFrames p (capFrames e.capacity)
      else s1)

/-- DPC triggers: the status with its reason, the link state, the record and the interrupt (R337). -/
def State.dpcEnter (s : State) (p : Nat) (status : BitVec 32) : State :=
  let s1 := ((s.setLink p 4).cfgOr p 0x1C8 status).portFault p 0x0C 0 0 0 0
  if (s.cfgw p 0x1C4).getLsbD 19 then s1.rootMsi p else s1

/-- A link goes down by itself (R312, R335): a root port without SURPRISE reports a Surprise Down error, which may trigger
DPC; a CXL memory port's loss is a fault. -/
def State.surpriseDown (s : State) (p : Nat) : State :=
  if s.portMode p = 2 then
    let surprise := s.flag (prtBase p) 7
    let s1 := (s.linkEnd p 0 (if surprise then 1 else 2)).slotEvent p 24 12
    if surprise then s1.portFault p 1 0 0 0 0
    else
      let (fatal, s2) := (s1.portFault p 2 0 0 0 2).aerUnc p 5
      let en := (s.cfgw p 0x1C4).toNat / 2 ^ 16 % 4
      if !(s.cfgw p 0x108).getLsbD 5 && (if fatal then decide (en = 1 ∨ en = 2) else decide (en = 2)) then
        s2.dpcEnter p 0x1
      else s2
  else (s.linkEnd p 0 1).portFault p 1 0 0 0 2

/-- LINK_DOWN: the link of a port that trains, is up or recovers goes down. -/
def execLinkDown (p : PortId) (s : State) : Out :=
  .next (if 1 ≤ s.portLink p ∧ s.portLink p ≤ 3 then s.surpriseDown p else s)

/-- LINK_RECOVERY: an UP link enters RECOVERY, replays its packets and returns to UP; a raise in progress ends at the new
speed and returns its slot (R310, R311, R398). -/
def execLinkRecovery (p : PortId) (s : State) : Out :=
  .next (
    if s.portLink p ≠ 2 ∧ s.portLink p ≠ 3 then s
    else
      let a := prtBase p + 8
      let k := 8 + p.val / 32
      let t := s.toll k
      let raising := t.slots.contains p.val
      let speed := if raising then s.fld (prtBase p) 4 2 else s.fld a 6 4
      let s1 := if raising then s.setToll k { t with slots := t.slots.filter (fun x => decide (x ≠ p.val)) } else s
      let s2 := (s1.putFld a 36 21 (satN 16 (s.fld a 36 21 + 1))).setLink p 2
      let s3 := ((s2.putFld a 6 4 speed).putFlag a 19 (decide (speed = 6))).portEv p 0x08
      (if (s.port p).out.isEmpty then s3 else s3.portEv p 0x07).linkRetry p)

/-- TRANSITION_SLOT_GRANT: the first waiting raise of an I/O die takes a free slot (R309, R398). -/
def execTransitionSlotGrant (p : PortId) (s : State) : Out :=
  .next (
    let k := 8 + p.val / 32
    let t := s.toll k
    if t.slotQ.head? = some p.val ∧ t.slots.length < 8 then
      s.setToll k { t with slotQ := t.slotQ.tail, slots := t.slots ++ [p.val] }
    else s)

/-- A write of PRT_MODE (Table 11.1): a raise of TGT_SPEED on a link that is up asks for a transition slot; a reduction is
made at once (R309). -/
def State.prtModeWrite (s : State) (a : CsrReq) : Nat × State :=
  s.csrWrite a (fun w =>
    if bitsN w.old 1 0 = 1 ∧ (bitsN w.val 4 2 < 5 ∨ 2 ≤ bitsN w.val 6 5) then some 1 else none)
    (fun w s =>
      let p := 32 * ((w.block - 544) / 16) + 4 * ((w.block - 544) % 16) + w.ix.headD 0
      let l := prtBase p + 8
      let tgt := bitsN w.new 4 2
      let cur := s.fld l 6 4
      if s.portLink p ≠ 2 then s
      else if cur < tgt ∧ bitsN w.old 4 2 ≠ tgt then s.tollEnqueue (.speed (Fin.ofNat 64 p))
      else if tgt < cur then
        ((s.putFld l 6 4 tgt).putFlag l 19 (decide (tgt = 6))).putFld l 36 21 (satN 16 (s.fld l 36 21 + 1))
      else s)

/-! ## DPC (R337) -/

/-- DPC_TRIGGER: ERR_FATAL, or ERR_NONFATAL when DPC Control enables it, disables the link with the outcome of R312. -/
def execDpcTrigger (p : PortId) (fatal : Bool) (s : State) : Out :=
  .next (
    let en := (s.cfgw p 0x1C4).toNat / 2 ^ 16 % 4
    if s.portMode p = 2 ∧ s.portLink p ≠ 4 ∧ (if fatal then en = 1 ∨ en = 2 else en = 2) then
      (s.linkEnd p 4 0x0C).dpcEnter p (if fatal then 0x5 else 0x3)
    else s)

/-- DPC_CLEAR: software clears DPC Trigger Status and the link trains again. -/
def execDpcClear (p : PortId) (s : State) : Out :=
  .next (if s.portLink p = 4 then (s.cfgClear p 0x1C8 0x1).setLink p 1 else s)

/-! ## Hot-plug (R334 to R336, R461, R462) -/

/-- Slot power goes on: PCLK runs, PERST_N stays low. -/
def State.slotOn (s : State) (p : Nat) : State :=
  (s.modPort p (fun x => { x with power := true, perst := true, powerAt := s.ctime.toNat })).cfgClear p 0x78 0x400

/-- Slot power goes off: the link goes down first, PERST_N is asserted, power is removed (R334). -/
def State.slotOff (s : State) (p : Nat) : State :=
  let s1 := if s.portLink p = 0 ∨ s.portLink p = 5 then s else s.linkDrop p
  (s1.modPort p (fun x => { x with power := false, perst := true })).cfgOr p 0x78 0x400

/-- Whether a port's frames are still counted in F (R336). -/
def State.counted (s : State) (p : Nat) : Bool := decide (0 < s.layout.portFrames p) && !s.coord.closed.contains p

/-- SLOT_POWER_ON: software, or the DSE for a CXL memory port, turns slot power on. -/
def execSlotPowerOn (p : PortId) (s : State) : Out :=
  .next (if s.portMode p = 0 ∨ (s.port p).power = true then s else s.slotOn p)

/-- PERST_DEASSERT: 100 ms after slot power is stable the port deasserts PERST# and trains. -/
def execPerstDeassert (p : PortId) (s : State) : Out :=
  .next (
    let x := s.port p
    if x.power && x.perst && decide (x.powerAt + 100000000 ≤ s.ctime.toNat) then
      (s.setPort p { x with perst := false }).setLink p 1
    else s)

/-- SLOT_POWER_OFF: software turns slot power off; refused for a CXL memory port whose frames count in F (R336). -/
def execSlotPowerOff (p : PortId) (s : State) : Out :=
  .next (if !(s.port p).power || (decide (s.portMode p = 1) && s.counted p) then s else s.slotOff p)

/-- PRESENCE_CHANGE: a debounced change of PRSNT_N; present to absent with power on is a surprise removal (R461, R335,
R336). -/
def execPresenceChange (p : PortId) (present : Bool) (s : State) : Out :=
  .next (
    let x := s.port p
    if x.present = present then s
    else
      let s1 := s.setPort p { x with present := present }
      let s2 := if s.portMode p = 2 then
          (if present then s1.cfgOr p 0x78 0x400000 else s1.cfgClear p 0x78 0x400000).slotEvent p 19 3
        else s1
      if !present && x.power && decide (1 ≤ s.portLink p ∧ s.portLink p ≤ 3) then s2.surpriseDown p else s2)

/-- A power fault on a slot (R462): power off, the link down; a root port reports it, a CXL memory port becomes FAILED. -/
def State.powerFault (s : State) (p : Nat) : State :=
  if s.portMode p = 2 then (s.slotOff p).slotEvent p 17 1
  else
    let s1 := s.modPort p (fun x => { x with power := false, perst := true })
    (s1.linkEnd p 5 1).portFault p 1 0 0 0 2

/-- A press of the attention button (R462, R336): reported by a root port; at an empty CXL memory port with a device
present, the DSE adds the device. -/
def State.buttonPress (s : State) (p : Nat) : State :=
  if s.portMode p = 2 then s.slotEvent p 16 0
  else if decide (s.portMode p = 1) && (s.port p).present && decide (s.portLink p = 0) && !s.counted p then
    (s.slotOn p).modPort p (fun x => { x with adding := true })
  else s

/-- One port's bits of a hot-plug frame: ATTN_BTN_N, PWR_FLT_N, MRL_N (Table 17.5). -/
def State.hotplug (s : State) (p : Nat) (b : BitVec 3) : State :=
  let x := s.port p
  let btn := if b.getLsbD 0 then 0 else x.btn + 1
  let flt := if b.getLsbD 1 then 0 else x.flt + 1
  let s1 := s.setPort p { x with btn := min btn 4, flt := min flt 3 }
  let s2 := if btn = 3 then s1.buttonPress p else s1
  let s3 := if flt = 2 ∧ x.power = true then s2.powerFault p else s2
  if s.portMode p = 2 then
    let openNow := !b.getLsbD 2
    if (s.cfgw p 0x78).getLsbD 21 = openNow then s3
    else (if openNow then s3.cfgOr p 0x78 0x200000 else s3.cfgClear p 0x78 0x200000).slotEvent p 18 2
  else s3

/-- HOTPLUG_FRAME: one frame of an I/O die's chain; a missing input reads 1 (R462). -/
def execHotplugFrame (d : IoDie) (inputs : List (BitVec 3)) (s : State) : Out :=
  .next ((List.range 32).foldl (fun (s : State) j => s.hotplug (32 * d.val + j) (inputs.getD j 7)) s)

end Sys2Proof.Machine
end

