-- ==== Sys2Proof/Machine/IoTrans.lean ====
section
/-! DEFINITION. The I/O translation units (08_translation.md, R254 to R260), device requests (R319, Table 11.4), peer
windows that carry them (R331), and the broadcast invalidation (R250). -/

namespace Sys2Proof

/-- ACC of a device request. -/
def Inbound.acc (r : Inbound) : Nat :=
  match r.kind with
  | .read => 1
  | .write => 2
  | .atomic _ _ _ _ => 3

/-- Whether two requests are of one requester. -/
def Inbound.same (a b : Inbound) : Bool := decide (a.port = b.port ∧ a.rid = b.rid)

end Sys2Proof

namespace Sys2Proof.Machine
open Sys2Proof

/-! ## The unit -/

/-- An I/O translation unit. -/
def State.iot (s : State) (d : Nat) : Iot := Map.get Iot.reset s.iots d
def State.setIot (s : State) (d : Nat) (x : Iot) : State := { s with iots := Map.set Iot.reset s.iots d x }

/-- Base of a unit's registers (Table 8.9). -/
def iotBase (d : Nat) : Nat := engBase d + 0x60000

/-- An engine event, filtered by instance and class (Table 13.10). -/
def State.engEv (s : State) (d ev inst cls : Nat) : State :=
  s.ucnt (engBase d) 0 6 ev (fun f => (!f.testBit 8 || decide (f % 256 = inst)) && (!f.testBit 11 || decide (f / 512 % 4 = cls)))

/-- The context of a request (R255, R341). -/
structure IoCtx where
  guest : Bool
  pass : Bool
  vmid : Nat
  asid : Nat
  s1 : Nat
  s2 : Nat

/-- Why a walk failed (R258): its status, whether in stage 2, the level and the address of Table 8.8. -/
structure WBad where
  status : Nat
  stage2 : Bool
  level : Nat
  wher : Nat

/-! ## Walks (R231, R256 to R258) -/

/-- A walk's read of eight bytes. -/
def State.walkRead (s : State) (stage2 : Bool) (lvl a : Nat) : Except WBad Word :=
  if !inSysMem a then .error { status := 0x31, stage2 := stage2, level := lvl, wher := a }
  else match s.dmaRead a 8 with
    | (0, v) => .ok (BitVec.ofNat 64 v)
    | (1, _) => .error { status := 0x31, stage2 := stage2, level := lvl, wher := a }
    | _ => .error { status := 0x30, stage2 := stage2, level := lvl, wher := a }

/-- The walk of one stage from a table (R231), n levels left; tr gives the physical address of a table entry. Answers the
leaf, its level and its address. -/
def State.radix (s : State) (stage2 : Bool) (tr : Nat → Except WBad Nat) (va : Nat) : Nat → Nat → Except WBad (Word × Nat × Nat)
  | 0, t => .error { status := 0x30, stage2 := stage2, level := 4, wher := t }
  | n + 1, t =>
    let lvl := 4 - n
    match tr (t + 8 * (va / 2 ^ (12 + 9 * n) % 512)) with
    | .error e => .error e
    | .ok a =>
      match s.walkRead stage2 lvl a with
      | .error e => .error e
      | .ok e =>
        let bad : Except WBad (Word × Nat × Nat) := .error { status := 0x30, stage2 := stage2, level := lvl, wher := a }
        if !rV e || rRsv e then bad
        else if !rT e then (if lvl = 0 then bad else .ok (e, lvl, a))
        else if lvl = 4 then bad
        else State.radix s stage2 tr va n (bitsN e 51 12 * 2 ^ 12)

/-- Page size code of a leaf at a level (R231); CONT is ignored (R254). -/
def sizeAt (lvl : Nat) : Nat := if lvl = 4 then 0 else if lvl = 3 then 2 else if lvl = 2 then 3 else 4

/-- The stage-2 walk of a GPA: the physical address, the page size and whether W is given. The walk needs R (R256). -/
def State.gpaWalk (s : State) (root gpa : Nat) (needW : Bool) : Except WBad (Nat × Nat × Bool) :=
  match s.radix true (fun a => .ok a) gpa 5 root with
  | .error e => .error e
  | .ok (e, lvl, a) =>
    if !rR e || (needW && !rW e) then .error { status := 0x30, stage2 := true, level := lvl, wher := a }
    else .ok (mapAddr e (sizeAt lvl) gpa, sizeAt lvl, rW e)

/-- A whole walk for an access (1 read, 2 write, 3 atomic) and its marks, set by one CAS on the stage-1 leaf (R256,
R257): the I/O TLB entry, and the state. -/
def State.ioWalk (s : State) (d : Nat) (cx : IoCtx) (va acc : Nat) : Except WBad (IoEntry × State) :=
  let wr := decide (acc ≠ 1)
  let rd := decide (acc ≠ 2)
  if va / 2 ^ 56 ≠ 0 ∧ va / 2 ^ 56 ≠ 255 then .error { status := 0x30, stage2 := false, level := 0, wher := cx.s1 }
  else
    let tr (a : Nat) : Except WBad Nat :=
      if cx.guest then (s.gpaWalk cx.s2 (a % 2 ^ 52) false).map (fun x => x.1) else .ok a
    match s.radix false tr va 5 cx.s1 with
    | .error e => .error e
    | .ok (e, lvl, a) =>
      if (rd && !rR e) || (wr && !rW e) then .error { status := 0x30, stage2 := false, level := lvl, wher := a }
      else
        let sz := sizeAt lvl
        let pa1 := mapAddr e sz va
        match (if cx.guest then s.gpaWalk cx.s2 pa1 wr else .ok (pa1, sz, true)) with
        | .error e => .error e
        | .ok (pa, sz2, w2) =>
          let size := min sz sz2
          let new := if wr then e ||| 0x180 else e ||| 0x80
          let marked := if new = e then (0, s.dmaSeen (engAgt d) a 8) else (s.dmaSeen (engAgt d) a 8).dmaWrite (engAgt d) a new.toNat 8
          if marked.1 ≠ 0 then .error { status := 0x30, stage2 := false, level := 6, wher := a }
          else
            let pb := pageBits size
            .ok ({ guest := cx.guest, vmid := cx.vmid, asid := cx.asid, size := size, vpn := va / 2 ^ pb % 2 ^ (57 - pb),
                   leaf := new, base := pa / 2 ^ pb * 2 ^ pb, r := rR e, w := rW e && w2, d := wr }, marked.2)

/-! ## The I/O TLB (R254) -/

/-- Whether an entry covers an address of a context. -/
def IoEntry.hits (x : IoEntry) (cx : IoCtx) (va : Nat) : Bool :=
  x.guest == cx.guest && (!cx.guest || decide (x.vmid = cx.vmid)) && decide (x.asid = cx.asid) &&
    decide (x.vpn = va / 2 ^ pageBits x.size % 2 ^ (57 - pageBits x.size))

/-- Whether an entry serves an access: a missing right, or a write through an entry without D, starts a new walk (R256,
R257). -/
def IoEntry.serves (x : IoEntry) (acc : Nat) : Bool :=
  (decide (acc = 2) || x.r) && (decide (acc = 1) || (x.w && x.d))

/-- The set of an entry: the spec does not say which bits of an address select it. -/
def ioSet (x : IoEntry) : Nat := Config.iotSet x.size x.vpn % 512

/-- An entry put into the I/O TLB in place of one of the same page, or of the least recently used of its set. -/
def Iot.insert (t : Iot) (x : IoEntry) : Iot :=
  let l := t.tlb.filter (fun y => !(y.guest == x.guest && decide (y.vmid = x.vmid ∧ y.asid = x.asid ∧ y.size = x.size ∧ y.vpn = x.vpn)))
  let inSet := l.filter (fun y => decide (ioSet y = ioSet x))
  { t with tlb := x :: (if inSet.length < 8 then l else match inSet.getLast? with
      | some y => takeOut y l
      | none => l) }

/-- The physical address of an access by a unit without a walk, or none where it must walk (R255, R341). -/
def State.ioHit (s : State) (d : Nat) (cx : IoCtx) (va acc : Nat) : Option (Nat × State) :=
  if !s.flag (iotBase d) 0 || cx.pass then some (va, s)
  else if va / 2 ^ 56 ≠ 0 ∧ va / 2 ^ 56 ≠ 255 then none
  else
    let t := s.iot d
    match t.tlb.find? (fun x => x.hits cx va && x.serves acc && !s.dse.gone.contains [12, d, ioSet x]) with
    | some x => some (x.base + va % 2 ^ pageBits x.size, s.setIot d { t with tlb := x :: takeOut x t.tlb })
    | none => none

/-- The physical address of an access by a unit, with the walk that it needs. -/
def State.ioXlate (s : State) (d : Nat) (cx : IoCtx) (va acc : Nat) : Except WBad (Nat × State) :=
  match s.ioHit d cx va acc with
  | some r => .ok r
  | none =>
    match s.ioWalk d cx va acc with
    | .error e => .error e
    | .ok (x, s1) => .ok (x.base + va % 2 ^ pageBits x.size, s1.setIot d ((s1.iot d).insert x))

/-! ## Context entries (R255, Table 8.7) -/

/-- The context of words of Table 8.7, or none where the entry is invalid, has an RSV bit set, or has PASS with GUEST. -/
def ctxOf (w : List Word) : Option IoCtx :=
  let w0 := w.getD 0 0
  let w1 := w.getD 1 0
  let w2 := w.getD 2 0
  let rsv (x : Word) : Bool := decide (bitsN x 11 0 ≠ 0) || decide (bitsN x 63 52 ≠ 0)
  if !bitB w0 0 || decide (bitsN w0 63 28 ≠ 0) || rsv w1 || rsv w2 || decide (w.getD 3 0 ≠ 0) || (bitB w0 1 && bitB w0 2) then none
  else some { guest := bitB w0 2, pass := bitB w0 1, vmid := bitsN w0 11 3, asid := bitsN w0 27 12,
              s1 := bitsN w1 51 12 * 2 ^ 12, s2 := bitsN w2 51 12 * 2 ^ 12 }

/-- The context of a port's request: from the 256 cached entries, or read from the cluster's table. Which entry a full
cache gives up is a free choice. -/
def State.ioCtx (s : State) (p rid : Nat) : Except WBad (IoCtx × State) :=
  let d := p / 32
  let k := p % 32 / 4
  let t := s.iot d
  let b := s.rdCsr (iotBase d + 0x100 + 8 * k)
  let a := bitsN b 51 21 * 2 ^ 21 + 32 * rid
  let bad (st : Nat) : Except WBad (IoCtx × State) := .error { status := st, stage2 := false, level := 5, wher := a }
  if !bitB b 0 then bad 0x30
  else match t.ctx.find? (fun e => decide (e.1 = k ∧ e.2.1 = rid)) with
  | some e => match ctxOf e.2.2 with
    | some c => .ok (c, s)
    | none => bad 0x30
  | none =>
    if !inSysMem a then bad 0x31
    else
      let s0 := (s.portEv p 0x0D).dmaSeen (portAgt p) a 32
      match s0.dmaRead a 32 with
      | (0, v) =>
        let w := (List.range 4).map (fun i => BitVec.ofNat 64 (v / 2 ^ (64 * i)))
        match ctxOf w with
        | some c =>
          let l := if t.ctx.length < 256 then t.ctx else t.ctx.eraseIdx (s.draw 256)
          .ok (c, (if t.ctx.length < 256 then s0 else s0.bump).setIot d { t with ctx := (k, rid, w) :: l })
        | none => bad 0x30
      | (1, _) => bad 0x31
      | _ => bad 0x30

/-! ## Fault records (R259, Table 8.8) -/

/-- The words of an I/O fault record. -/
def ioRec (b : WBad) (acc : Nat) (engine : Bool) (source port va : Nat) (now : Word) : List Word :=
  [BitVec.ofNat 64 (b.status + (if b.stage2 then 2 ^ 8 else 0) + b.level * 2 ^ 9 + acc * 2 ^ 12 + (if engine then 2 ^ 14 else 0) +
      source % 2 ^ 16 * 2 ^ 15 + port * 2 ^ 31),
    BitVec.ofNat 64 va, BitVec.ofNat 64 (b.wher % 2 ^ 52), now]

/-- A port fault record goes to IOT_FLOG, with its interrupt. -/
def State.ioFault (s : State) (p rid va acc : Nat) (b : WBad) : State :=
  let base := iotBase (p / 32)
  let n := s.fld (base + 0x300) 3 0
  let a := base + 0x1000 + 32 * n
  let full := decide (s.rdCsr a ≠ 0)
  let s1 := (ioRec b acc false rid p va s.ctime).zipIdx.foldl (fun (s : State) x => s.wrCsr (a + 8 * x.2) x.1) s
  let s2 := s1.putFld (base + 0x300) 3 0 ((n + 1) % 16)
  (if full then s2.putFlag (base + 0x300) 4 true else s2).sendIrq (base + 0x308) 4

/-! ## Device requests (R319, Table 11.4) -/

/-- A completion to a device: status 0 successful, 0x100 successful with EP, 1 Unsupported Request, 4 Completer Abort. -/
def State.complete (s : State) (r : Inbound) (status v : Nat) : State :=
  if r.acc = 2 then s else s.toDevice r.port [2, r.rid.toNat, r.tag.toNat, status, v]

/-- A request that fails: logged as INBOUND_UR, reported through AER, and completed with Unsupported Request (status 1) or
Completer Abort (status 4); a posted write is dropped. -/
def State.inFail (s : State) (r : Inbound) (status : Nat) : State :=
  ((s.portFault r.port 8 r.rid.toNat r.tag.toNat r.addr.toNat 0).aerUnc r.port (if status = 4 then 15 else 20)).2.complete r status 0

/-- The row of Table 11.4 that a mesh status selects. -/
def cplOf (status : Nat) : Nat := if status = 1 ∨ status = 2 ∨ status = 3 then 1 else 4

/-- Bytes of a write as (address, byte) pairs from an address, those without byte enable left out. -/
def inCells (pa : Nat) : List (Option Byte) → List (Nat × Byte)
  | [] => []
  | some b :: l => (pa, b) :: inCells (pa + 1) l
  | none :: l => inCells (pa + 1) l

/-- The bytes of a device write that fall in one line: dropped where the line answers with a status, which the home agent of an
UNBACKED frame logs, else written as WrF or WrP does; an EP write leaves poison. A line that a core holds takes it as a packet in
its turn (R142). -/
def State.inLine (s : State) (r : Inbound) (cells : List (Nat × Byte)) (line : Nat) : State :=
  let mine := cells.filter (fun x => decide (x.1 / 64 = line))
  let st := s.dmaStatus line
  let full := decide (mine.length = 64)
  let a := portAgt r.port
  let tag (s : State) : State := s.tagIo a (if full then .WrF else .WrP) (64 * line) st
  if mine.isEmpty then s
  else if st ≠ 0 then tag ((if st = 1 then s.homeSees (line / 2 ^ 15) (agtNo a) else s).inFail r (cplOf st))
  else
    let mask := (mine.map (fun x => 2 ^ (x.1 % 64))).sum
    if s.heldBy 1088 line then tag (s.dmaSend a line full mask ((s.wrCells mine).rdLine line) r.ep)
    else
      let s1 := s.wrCells mine
      tag ((if r.ep then s1.setPoison line true else if full then s1.setPoison line false else s1).dmaPut a line full mask)

/-- A device request performed in system memory. -/
def State.inMem (s : State) (r : Inbound) (pa : Nat) : State :=
  let lines := spanN (pa / 64) ((pa + r.len + 63) / 64 - pa / 64)
  let tag (op : Op) (u : State) : State := lines.foldl (fun (u : State) l => u.tagIo (portAgt r.port) op (64 * l) (s.dmaStatus l)) u
  let a := portAgt r.port
  match r.kind with
  | .read =>
    let u := s.dmaSeen a pa r.len
    tag .RdNC (match s.dmaRead pa r.len with
      | (0, v) => u.complete r 0 v
      | (0x100, _) => u.complete r 0x100 (s.rdN pa r.len)
      | (st, _) => u.inFail r (cplOf st))
  | .write => lines.foldl (fun (s : State) l => s.inLine r (inCells pa r.bytes) l) s
  | .atomic op opd cmp _ =>
    let u := s.dmaSeen a pa r.len
    tag .FAtom (match s.dmaRead pa r.len with
      | (0, old) => ((u.wrN pa (atomOp op.val r.len old opd.toNat cmp.toNat) r.len).dmaPut a (pa / 64) false
          (dmaMask pa r.len (pa / 64))).complete r 0 old
      | (0x100, _) => u.complete r 0x100 (s.rdN pa r.len)
      | (st, _) => u.inFail r (cplOf st))

/-! ## Peer windows (R331) -/

/-- The window of a port that carries an address: ACS Control must have Source Validation and P2P Request Redirect set. -/
def State.peerWin (s : State) (p pa : Nat) : Option (Nat × Win) :=
  let acs := s.cfgw p 0x184
  if acs.getLsbD 16 && acs.getLsbD 18 then
    (s.port p).wins.findSome? (fun e => match e.2 with
      | some w => if w.base ≤ pa ∧ pa ≤ w.limit then some (e.1, w) else none
      | none => none)
  else none

/-- Bytes read from a staging SRAM, as a number. -/
def Engine.stgN (e : Engine) (o : Nat) : Nat → Nat
  | 0 => 0
  | n + 1 => (Map.get 0 e.stg o).toNat + 256 * Engine.stgN e (o + 1) n
/-- Bytes written to a staging SRAM. -/
def Engine.stgPut (e : Engine) : List (Nat × Byte) → Engine
  | [] => e
  | (o, b) :: l => Engine.stgPut { e with stg := Map.set 0 e.stg o b } l

/-- A request carried to the staging SRAM of the port's die. -/
def State.carryStg (s : State) (r : Inbound) (w : Win) (pa : Nat) : State :=
  let d := r.port.val / 32
  let o := w.sram + (pa - w.base)
  match r.kind with
  | .read => s.complete r 0 ((s.eng d).stgN o r.len)
  | .write => s.setEng d ((s.eng d).stgPut (inCells o r.bytes))
  | .atomic _ _ _ _ => s.inFail r 1

/-- A request carried to another port as a TLP, with what translated it; none where no tag of the target is free, so that it waits. -/
def State.carryPort (s : State) (r : Inbound) (wi : Nat) (w : Win) (pa : Nat) (tr : Option (Bool × Nat × Nat × Nat)) : Option State :=
  let t := w.tgt
  if r.acc = 3 ∨ (r.acc = 1 ∧ w.readEn = false) then some (s.inFail r 1)
  else if s.portLink t ≠ 2 then some (s.inFail r (cplOf 5))
  else
    let v := ((inCells 0 r.bytes).map (fun x => x.2.toNat * 256 ^ x.1)).sum
    let s1 := s.toDevice t [1, pa, r.len, r.rid.toNat, v]
    if r.acc = 2 then some s1
    else if 256 ≤ (s.port t).quar.length then none
    else match (s.port t).freeTag 768 with
      | none => none
      | some tag =>
        let q : Pkt := { op := .SeRd, src := portAgt r.port, dst := portAgt t, txid := 0, addr := pa }
        let l : LinkReq := { pkt := q, tag := tag, phase := 0, cfg := false, carry := some (r.port.val, wi, false),
                             rid := r.rid.toNat, rtag := r.tag.toNat, tr := tr, marks := [] }
        some (s1.modPort t (fun x => { x with out := x.out ++ [l] }))

/-- A translated request goes to its target (R27, R331); none where it must wait: an atomic whose line a core holds (R142), or a
request carried to a port without a free tag. -/
def State.inDone (s : State) (r : Inbound) (pa : Nat) (tr : Option (Bool × Nat × Nat × Nat)) : Option State :=
  let atomic := match r.kind with
    | .atomic _ _ _ _ => true
    | _ => false
  if inSysMem pa then (if atomic && s.heldBy 1088 (pa / 64) then none else some (s.inMem r pa))
  else match region pa, s.peerWin r.port pa with
    | .mmio _, some (i, w) => if w.staging then some (s.carryStg r w pa) else s.carryPort r i w pa tr
    | _, _ => some (s.inFail r 1)

/-- A write to the interrupt target window, not translated (R260): delivered by R220; from a guest context only posted
offsets. -/
def State.inIrq (s : State) (r : Inbound) (o : Nat) (guest : Bool) : State :=
  if guest && decide (o / 2 ^ 31 = 0) then s.inFail r 1
  else
    let v := ((inCells 0 r.bytes).map (fun x => x.2.toNat * 256 ^ x.1)).sum
    let x := s.winWrite o r.len v (routerOfPort r.port) 4
    if x.1 = 0 then x.2 else x.2.inFail r (cplOf x.1)

/-- A request tried: whether it is done (or failed), and the state. It is not done where it must wait for a walk, unless
`walk` says that the walk completes now. -/
def State.inTry (s : State) (r : Inbound) (walk : Bool) : Bool × State :=
  let p := r.port.val
  let d := p / 32
  let va := r.addr.toNat
  let irq : Option Nat := match region va with
    | .intWin o => if r.acc = 2 then some o else none
    | _ => none
  let go (s : State) (pa : Nat) (tr : Option (Bool × Nat × Nat × Nat)) : Bool × State := match s.inDone r pa tr with
    | some s1 => (true, s1)
    | none => (false, s)
  let fault (b : WBad) : Bool × State := (true, (s.ioFault p r.rid.toNat va r.acc b).inFail r 1)
  if s.flag (meshCtl (routerOfStop d 14)) 2 then (true, s.inFail r 1)
  else if !s.flag (iotBase d) 0 then
    match irq with
    | some o => (true, s.inIrq r o false)
    | none => go s va none
  else match s.ioCtx p r.rid.toNat with
    | .error b => fault b
    | .ok (cx, s1) =>
      match irq with
      | some o => (true, s1.inIrq r o cx.guest)
      | none =>
        let tr := if cx.pass then none else some (cx.guest, cx.vmid, cx.asid, va)
        match s1.ioHit d cx va r.acc with
        | some (pa, s2) => go s2 pa tr
        | none =>
          if !walk then (false, s1)
          else match (s1.engEv d 7 256 4).ioXlate d cx va r.acc with
            | .error b => fault b
            | .ok (pa, s2) => go (s2.engEv d 8 256 4) pa tr

/-- INBOUND_REQUEST: a device request enters through the front end (R319): discarded while the port has no working link;
refused by Table 11.4; held while a request of the same requester waits, or while its page must be walked. -/
def execInboundRequest (r : Inbound) (s : State) : Out :=
  .next (
    let p := r.port.val
    let d := p / 32
    if s.portMode p ≠ 2 ∨ (s.portLink p ≠ 2 ∧ s.portLink p ≠ 3) then s
    else
      let s0 := (s.portEv p 0x02).portEv p (if r.acc = 1 then 0x0B else 0x0C)
      let wide : Bool := match r.kind with
        | .atomic _ _ _ w => w
        | _ => false
      let s1 := if r.ep then s0.prtLog p 9 r.rid.toNat r.tag.toNat r.addr.toNat else s0
      if r.pfx || decide (r.atf ≠ 0) || wide || !(s.cfgw p 0x04).getLsbD 2 then s1.inFail r 1
      else
        let hold (s : State) : State := s.setIot d { s.iot d with waits := (s.iot d).waits ++ [r] }
        if (s.iot d).waits.any r.same then hold s1
        else match s1.inTry r false with
          | (true, s2) => s2
          | (false, s2) => hold s2)

/-- The waiting requests tried again in arrival order, none before an earlier one of its requester. -/
def State.inSweep (s : State) (d : Nat) : State :=
  let w := (s.iot d).waits
  let r := w.foldl (fun (a : List Inbound × State) x =>
    if a.1.any x.same then (a.1 ++ [x], a.2)
    else match a.2.inTry x false with
      | (true, s1) => (a.1, s1)
      | (false, s1) => (a.1 ++ [x], s1)) ([], s.setIot d { s.iot d with waits := [] })
  r.2.setIot d { r.2.iot d with waits := r.1 }

/-- IO_WALK_DONE: the walk of the i-th waiting request completes: it sets its marks and the request is released, or it
fails (R257, R258); requests that it held, or that wait for the same page, go on. One of the first 64 walks. -/
def execIoWalkDone (d : IoDie) (i : Nat) (s : State) : Out :=
  .next (
    let w := (s.iot d).waits
    match w[i]? with
    | none => s
    | some r =>
      if (w.take i).any r.same || decide (64 ≤ (w.take i).length) then s
      else match s.inTry r true with
        | (true, s1) => (s1.setIot d { s1.iot d with waits := w.eraseIdx i }).inSweep d
        | (false, s1) => s1)

/-! ## Context invalidation (R255) -/

/-- A write of IOT_CTXINV: START removes the cached contexts it names. -/
def State.ctxInvWrite (s : State) (a : CsrReq) : Nat × State :=
  s.csrWrite a (fun _ => none) (fun w s =>
    let d := (w.block - 544) / 16
    let t := s.iot d
    if bitB w.val 20 then
      s.setIot d { t with ctx := t.ctx.filter (fun e => !(bitB w.val 19 ||
        (decide (e.1 = bitsN w.val 18 16) && decide (e.2.1 = bitsN w.val 15 0)))) }
    else s)

/-- IOT_CTXINV: a write of IOT_CTXINV. -/
def execIotCtxinv (d : IoDie) (value : Word) (q : Requester) (s : State) : Out :=
  .next (s.ctxInvWrite (wr8 (iotBase d + 0x200) value q)).2

/-! ## Broadcast invalidation (R250) -/

/-- Whether an entry of a core's TLBs covers a translated address. -/
def Core.covers (k : Core) (v : Bool) (x : Nat × Nat × Nat) : Bool × Bool :=
  (k.tlb.any (fun e => e.2.any (fun t => t.hits v x.2.1 x.2.2 (x.1 / 2 ^ 12 % 2 ^ 45))),
    v && k.s2tlb.any (fun e => e.2.any (fun t => decide (t.vmid = x.2.1) &&
      decide (t.vpn / 2 ^ (pageBits t.size - 12) = x.1 % 2 ^ 52 / 2 ^ pageBits t.size))))

/-- A store-buffer entry marked when the entry that translated it has been removed. -/
def StEntry.markFor (e : StEntry) (k k1 : Core) (id : Nat) : StEntry :=
  let gone (x : Nat × Nat × Nat) : Bool :=
    ((k.covers e.v x).1 && !(k1.covers e.v x).1) || ((k.covers e.v x).2 && !(k1.covers e.v x).2)
  if e.tr.any gone then { e with marks := e.marks ++ [id] } else e

/-- A far atomic in flight marked when the entry that translated it has been removed. -/
def FarOp.markFor (f : FarOp) (v : Bool) (k k1 : Core) (id : Nat) : FarOp :=
  let gone (x : Nat × Nat × Nat) : Bool :=
    ((k.covers v x).1 && !(k1.covers v x).1) || ((k.covers v x).2 && !(k1.covers v x).2)
  if f.tr.any gone then { f with marks := f.marks ++ [id] } else f

/-- Whether an entry of an I/O TLB covers a translated address. -/
def Iot.covers (t : Iot) (x : Bool × Nat × Nat × Nat) : Bool :=
  t.tlb.any (fun e => e.hits { guest := x.1, pass := false, vmid := x.2.1, asid := x.2.2.1, s1 := 0, s2 := 0 } x.2.2.2)

/-- A device request outstanding at a port marked when the I/O TLB entry that translated it has been removed. -/
def LinkReq.markFor (r : LinkReq) (t t1 : Iot) (id : Nat) : LinkReq :=
  if r.tr.any (fun x => t.covers x && !t1.covers x) then { r with marks := r.marks ++ [id] } else r

/-- Entries of an I/O TLB removed (R246, R248). -/
def Iot.bcRemove (t : Iot) : BcOp → Iot
  | .tlbInv g vm sc asid va =>
    let inPage (x : IoEntry) : Bool := decide (x.vpn = va / 2 ^ pageBits x.size % 2 ^ (57 - pageBits x.size))
    { t with tlb := t.tlb.filter (fun x => !(x.guest == g && (!g || decide (x.vmid = vm)) &&
        (if sc = 0 then (rG x.leaf || decide (x.asid = asid)) && inPage x
         else if sc = 1 then !rG x.leaf && decide (x.asid = asid)
         else if sc = 2 then inPage x
         else true))) }
  | .s2Inv vm sc _ => { t with tlb := t.tlb.filter (fun x => !(x.guest && (decide (sc = 2) || decide (x.vmid = vm)))) }
  | _ => t

/-- Number of an agent in a broadcast's list of acknowledgments. -/
def InvAgent.no : InvAgent → Nat
  | .core p => p.val
  | .iot d => 1088 + d.val

/-- TLB_INVALIDATION_BCAST: a receiving agent removes the entries, marks what was translated through them and is not yet
performed, and acknowledges (a proxy sink for its agent, Table 5.10) to its router, which sends its BACK once its agents and children have (R250, R162); the
copy waits while the router's table is full (R163). -/
def execTlbInvalidationBcast (id : Nat) (a : InvAgent) (s : State) : Out :=
  .next (
    let r := bcRouter (InvAgent.no a)
    match s.bcasts.find? (fun b => decide (b.id = id)) with
    | none => s
    | some b =>
      if b.done || b.acked.contains (InvAgent.no a) || s.oosList.contains r || s.bcFull id r then s
      else
        let s1 : State := match a with
          | .core p =>
            let c := s.coreOfPhys p
            if 1024 ≤ c ∨ s.proxied (physAgt p) = true then s
            else s.modCore c (fun k =>
              let k1 := k.bcRemove b.op
              { k1 with sbuf := k1.sbuf.map (fun e => e.markFor k k1 id), far := k1.far.map (fun f => f.markFor k.vf k k1 id) })
          | .iot d =>
            if s.proxied { router := r, agent := 4 } then s
            else
              let t := s.iot d
              let t1 := t.bcRemove b.op
              let mark (e : Nat × Port) : Nat × Port :=
                (e.1, { e.2 with out := e.2.out.map (fun l => if l.carry.any (fun x => decide (x.1 / 32 = d.val)) then l.markFor t t1 id else l) })
              { s with ports := s.ports.map mark }.setIot d t1
        let b1 := { b with acked := b.acked ++ [InvAgent.no a] }
        State.bcTry { s1 with bcasts := s1.bcasts.map (fun x => if x.id = id then b1 else x) } id r)

end Sys2Proof.Machine
end

