-- ==== Sys2Proof/Machine/EngMem.lean ====
section
/-! DEFINITION. The data engines' memory: instances and their registers, accesses through the I/O translation unit (R341),
operands and buffer lists (R343 to R346), completion and fault records (R349, R350, R366). -/

namespace Sys2Proof.Machine
open Sys2Proof

/-! ## Instances -/

/-- An instance of an engine. -/
def State.inst (s : State) (d n : Nat) : Inst := Map.get Inst.reset (s.eng d).insts n
def State.setInst (s : State) (d n : Nat) (x : Inst) : State :=
  s.setEng d { s.eng d with insts := Map.set Inst.reset (s.eng d).insts n x }
def State.modInst (s : State) (d n : Nat) (f : Inst → Inst) : State := s.setInst d n (f (s.inst d n))

/-- A word of Table 12.9. -/
def Inst.arg (x : Inst) (i : Nat) : Word := BitVec.ofNat 64 (x.args.getD i 0)

/-- An instance's doorbell page and its registers (Table 12.3). -/
def dbA (d n : Nat) : Nat := engBase d + 0xC00000 + 0x1000 * n
def State.instSt (s : State) (d n : Nat) : Nat := s.fld (dbA d n + 0x18) 2 0
def State.setInstSt (s : State) (d n st : Nat) : State := s.putFld (dbA d n + 0x18) 2 0 st
def State.setLast (s : State) (d n st : Nat) : State := s.putFld (dbA d n + 0x18) 46 39 st
/-- SHARE of an instance (Table 12.7). -/
def shareA (d n : Nat) : Nat := engBase d + 0x804008 + 16 * n

/-- Whether the function may issue requests: Bus Master Enable, D0, no function reset (R328). -/
def State.engOn (s : State) (d : Nat) : Bool :=
  (s.cfgw (64 + d) 0x04).getLsbD 2 && decide ((s.cfgw (64 + d) 0x44).toNat % 4 = 0) && !(s.cfgw (64 + d) 0x68).getLsbD 21


/-- An engine event counted n times. -/
def State.engEvN (s : State) (d ev inst cls : Nat) : Nat → State
  | 0 => s
  | n + 1 => State.engEvN (s.engEv d ev inst cls) d ev inst cls n

/-! ## MSI-X (R327, R350) -/

/-- Vector v of an engine's function is signalled: kept pending while masked or while the function may not write; false for
an address that is neither the interrupt window nor system memory. -/
def State.msixSend (s : State) (d v : Nat) : Bool × State :=
  let fn := 64 + d
  let a := engBase d + 0x900000 + 16 * v
  let w1 := s.rdCsr (a + 8)
  let ctl := s.cfgw fn 0x48
  if !ctl.getLsbD 31 then (true, s)
  else if ctl.getLsbD 30 || bitB w1 32 || !s.engOn d then (true, s.putFlag (engBase d + 0x908000 + 8 * (v / 64)) (v % 64) true)
  else s.msgWrite (s.rdCsr a).toNat (bitsN w1 31 0) (engAgt d)

/-- Vector v is signalled; a message that cannot be sent is an error of the function, in AER and by vector AER_VEC where
AER does not mask it (R327, R337). -/
def State.msix (s : State) (d v : Nat) : State :=
  match s.msixSend d v with
  | (true, s1) => s1
  | (false, s1) =>
    let s2 := (s1.cfgOr (64 + d) 0x104 0x100000).cfgOr (64 + d) 0x68 0x80000
    if (s2.cfgw (64 + d) 0x108).getLsbD 20 then s2 else (s2.msixSend d ((s2.cfgw (64 + d) 0x158).toNat / 2 ^ 16 % 2 ^ 11)).2

/-- The vectors of an engine that are pending are tried again. -/
def State.msixRetry (s : State) (d : Nat) (vs : List Nat) : State :=
  vs.foldl (fun (s : State) v =>
    let p := engBase d + 0x908000 + 8 * (v / 64)
    if s.flag p (v % 64) then (s.putFlag p (v % 64) false).msix d v else s) s

/-- The instance's vector is signalled. -/
def State.instIrq (s : State) (d n : Nat) : State := s.msix d (bitsN ((s.inst d n).arg 6) 10 0)

/-! ## Accesses (R341) -/

/-- A range of bytes: a staging offset, or an untranslated address. -/
structure Ext where
  stg : Bool
  addr : Nat
  len : Nat

/-- The part of an operand from a position. -/
def cutExts : List Ext → Nat → Nat → List Ext
  | [], _, _ => []
  | e :: es, pos, len =>
    if len = 0 then []
    else if e.len ≤ pos then cutExts es (pos - e.len) len
    else
      let n := min len (e.len - pos)
      { stg := e.stg, addr := e.addr + pos, len := n } :: cutExts es 0 (len - n)

/-- A range cut at the lines' boundaries. -/
def Ext.lines (e : Ext) : List Ext :=
  (List.range ((e.addr % 64 + e.len + 63) / 64)).map (fun i =>
    let lo := max e.addr ((e.addr / 64 + i) * 64)
    let hi := min (e.addr + e.len) ((e.addr / 64 + i + 1) * 64)
    { stg := e.stg, addr := lo, len := hi - lo })

/-- The pieces of an operand from a position. -/
def pieces (l : List Ext) (pos len : Nat) : List Ext := (cutExts l pos len).flatMap Ext.lines

/-- The context of an instance's requests. -/
def Inst.cx (x : Inst) : IoCtx :=
  let a := x.arg 0
  { guest := bitB a 0, pass := bitB a 1, vmid := bitsN a 10 2, asid := bitsN a 26 11,
    s1 := bitsN (x.arg 1) 51 12 * 2 ^ 12, s2 := bitsN (x.arg 2) 51 12 * 2 ^ 12 }

/-- An address translated for an instance, or why the walk failed. -/
def State.instXlate (s : State) (d n va acc : Nat) : Except WBad (Nat × State) :=
  let cx := (s.inst d n).cx
  match s.ioHit d cx va acc with
  | some r => .ok r
  | none => ((s.engEv d 7 n 4).engEv d 8 n 4).ioXlate d cx va acc

/-- Byte of the staging SRAM that an instance's staging offset names (R343). -/
def Inst.stgOff (x : Inst) (o : Nat) : Nat := 65536 * bitsN (x.arg 6) 30 22 + o

/-- A fault record goes to the instance's fault ring (R259, R366): dropped with FQ_OVF while the ring is full or when the
write fails, which also signals the vector. -/
def State.instFault (s : State) (d n va acc : Nat) (b : WBad) : State :=
  let x := s.inst d n
  let size := 2 ^ bitsN (x.arg 5) 4 0
  let tail := s.fld (dbA d n + 0x20) 15 0
  let head := s.fld (dbA d n + 0x10) 15 0
  let ovf := s.putFlag (dbA d n + 0x18) 4 true
  if (tail + 1) % size = head ∨ s.engOn d = false then ovf
  else
    let a := bitsN (x.arg 5) 63 12 * 2 ^ 12 + 32 * tail
    let v := wordsLine (ioRec b acc true n 0 va s.ctime)
    match s.instXlate d n a 2 with
    | .error _ => ovf.instIrq d n
    | .ok (pa, s1) =>
      if !inSysMem pa then ovf.instIrq d n
      else match s1.dmaWrite (engAgt d) pa v 32 with
        | (0, s2) => (s2.putFld (dbA d n + 0x20) 15 0 ((tail + 1) % size)).instIrq d n
        | _ => ovf.instIrq d n

/-- A read of a piece: its bytes and whether they are poisoned, or a status and detail of Table 12.5; and the state. -/
def State.engRd (s : State) (d n : Nat) (e : Ext) : Except (Nat × Nat) (List Byte × Bool) × State :=
  if e.stg then (.ok (bytesOf ((s.eng d).stgN ((s.inst d n).stgOff e.addr) e.len) e.len, false), s)
  else match s.instXlate d n e.addr 1 with
    | .error b => (.error (b.status, 0), s.instFault d n e.addr 1 b)
    | .ok (pa, s0) =>
      if !inSysMem pa then (.error (0x0A, 2), s0)
      else
        let s1 := (s0.dmaSeen (engAgt d) pa e.len).tagIo (engAgt d) .RdNC pa (s0.dmaStatus (pa / 64))
        match s0.dmaRead pa e.len with
        | (0, v) => (.ok (bytesOf v e.len, false), s1)
        | (0x100, _) => (.ok (bytesOf (s0.rdN pa e.len) e.len, true), s1)
        | (st, _) => (.error (0x0A, st), s1)

/-- A write of a piece, with poison: none, or a status and detail; and the state. -/
def State.engWr (s : State) (d n : Nat) (e : Ext) (bs : List Byte) (poison : Bool) : Option (Nat × Nat) × State :=
  if e.stg then (none, s.setEng d ((s.eng d).stgPut (bs.zipIdx.map (fun x => ((s.inst d n).stgOff e.addr + x.2, x.1)))))
  else
    let cx := (s.inst d n).cx
    match region e.addr with
    | .intWin o =>
      if cx.guest && decide (o / 2 ^ 31 = 0) then (some (0x0A, 2), s)
      else
        let r := s.winWrite o e.len (numOf bs) (engAgt d).router 0
        (if r.1 = 0 then none else some (0x0A, r.1), r.2)
    | _ =>
      match s.instXlate d n e.addr 2 with
      | .error b => (some (b.status, 0), s.instFault d n e.addr 2 b)
      | .ok (pa, s0) =>
        if !inSysMem pa then (some (0x0A, 2), s0)
        else
          let tag (s : State) : State := s.tagIo (engAgt d) (if e.len = 64 then .WrF else .WrP) pa (s0.dmaStatus (pa / 64))
          match s0.dmaWrite (engAgt d) pa (numOf bs) e.len with
          | (0, s2) => (none, tag (if poison then s2.setPoison (pa / 64) true else s2))
          | (st, s2) => (some (0x0A, st), tag s2)

/-- What a sequence of reads gave: the bytes of each piece with its poison, how it ended (none: every piece was read),
and the state. -/
def State.readAll (s : State) (d n : Nat) : List Ext → List (List Byte × Bool) × Option (Nat × Nat) × State
  | [] => ([], none, s)
  | e :: es =>
    match s.engRd d n e with
    | (.error x, s1) => ([], some x, s1)
    | (.ok b, s1) =>
      let r := State.readAll s1 d n es
      (b :: r.1, r.2.1, r.2.2)

/-- The bytes of an operand from a position, up to the first error or poison: the bytes, how it ended, the state. -/
def State.engRead (s : State) (d n : Nat) (l : List Ext) (pos len : Nat) : List Byte × Option (Nat × Nat) × State :=
  let r := s.readAll d n (pieces l pos len)
  let clean := r.1.takeWhile (fun x => !x.2)
  let bs := clean.flatMap (fun x => x.1)
  (bs, if clean.length < r.1.length then some (9, pos + bs.length) else r.2.1, r.2.2)

/-- Bytes written to an operand from a position: how many were written, how it ended, the state. -/
def State.engWriteL (s : State) (d n : Nat) : List Ext → List Byte → Nat × Option (Nat × Nat) × State
  | [], _ => (0, none, s)
  | e :: es, bs =>
    match s.engWr d n e (bs.take e.len) false with
    | (some x, s1) => (0, some x, s1)
    | (none, s1) =>
      let r := State.engWriteL s1 d n es (bs.drop e.len)
      (e.len + r.1, r.2.1, r.2.2)

def State.engWrite (s : State) (d n : Nat) (l : List Ext) (pos : Nat) (bs : List Byte) : Nat × Option (Nat × Nat) × State :=
  s.engWriteL d n (pieces l pos bs.length) bs

/-! ## Descriptors and operands (R344 to R346) -/

/-- A word of a descriptor. -/
def Job.w (j : Job) (i : Nat) : Word := j.desc.getD i 0
def Job.op (j : Job) : Nat := bitsN (j.w 0) 3 1
def Job.fmt (j : Job) : Nat := bitsN (j.w 0) 6 4
def Job.ctx (j : Job) : Nat := (j.w 4).toNat

/-- Class of unit that runs a descriptor (Table 12.1); a descriptor with an invalid OP or FORMAT may end on any unit, and
ends on the MOVE units. -/
def Job.cls (j : Job) : Nat :=
  if j.op = 3 then (if j.fmt = 4 then 2 else if j.fmt < 4 then 0 else 3)
  else if j.op = 4 then (if j.fmt = 4 then 2 else if j.fmt < 4 then 1 else 3)
  else 3

/-- The offending word of a descriptor by its own bits (Table 12.2, R346), or none. -/
def Job.bad (j : Job) : Option Nat :=
  let w0 := j.w 0
  let lev := bitsN w0 10 7
  let wlog := bitsN w0 15 11
  let srcL := bitB w0 22
  let dstL := bitB w0 23
  let sl := bitsN (j.w 2) 31 0
  let dl := bitsN (j.w 2) 63 32
  let codec := decide (j.op = 3 ∨ j.op = 4)
  if 4 < j.op ∨ (codec ∧ 4 < j.fmt) ∨ (¬ codec ∧ j.fmt ≠ 0) ∨
      (if j.op = 3 ∧ j.fmt < 3 then 9 < lev else if j.op = 3 ∧ j.fmt = 3 then lev < 1 ∨ 6 < lev else lev ≠ 0) ∨
      (if j.op = 3 ∧ j.fmt = 3 then wlog < 17 ∨ 23 < wlog else wlog ≠ 0) ∨
      (srcL ∧ bitB w0 24) ∨ (dstL ∧ bitB w0 25) ∨ bitsN w0 63 27 ≠ 0 then some 0
  else if srcL ∧ j.op ≠ 1 ∧ (j.w 1).toNat % 16 ≠ 0 then some 1
  else if (if j.op = 1 then sl ≠ 0 else if srcL then sl < 1 ∨ 4096 < sl else 2 ^ 31 < sl) ∨
      (if dstL then dl < 1 ∨ 4096 < dl else 2 ^ 31 < dl) then some 2
  else if dstL ∧ (j.w 3).toNat % 16 ≠ 0 then some 3
  else if j.ctx % 64 ≠ 0 ∨ (bitB w0 17 ∧ j.ctx = 0) then some 4
  else if bitsN (j.w 7) 11 0 ≠ 0 ∧ (j.w 5).toNat % 16 ≠ 0 then some 5
  else if bitsN (j.w 7) 23 12 ≠ 0 ∧ (j.w 6).toNat % 16 ≠ 0 then some 6
  else if bitsN (j.w 7) 31 24 ≠ 0 then some 7
  else none

/-- Total length of an operand. -/
def extLen (l : List Ext) : Nat := (l.map (fun e => e.len)).sum

/-- The entries of a buffer list from its bytes; none where R345 refuses it. -/
def listExts (n : Nat) (bs : List Byte) : Option (List Ext) :=
  let word (i k : Nat) : Word := BitVec.ofNat 64 (numOf ((bs.drop (16 * i + 8 * k)).take 8))
  let l := (List.range n).map (fun i => ({ stg := bitB (word i 1) 32, addr := (word i 0).toNat, len := bitsN (word i 1) 31 0 } : Ext))
  if l.any (fun e => decide (e.len = 0) || decide (2 ^ 31 < e.len)) ||
      (List.range n).any (fun i => decide (bitsN (word i 1) 63 33 ≠ 0)) || decide (2 ^ 31 < extLen l) then none
  else some l

/-- An operand of a job: its ranges, or a status and detail. `word` is the descriptor word at fault. -/
def State.operand (s : State) (d n : Nat) (isList stg : Bool) (addr len word : Nat) : Except (Nat × Nat) (List Ext) × State :=
  let room := 65536 * bitsN ((s.inst d n).arg 6) 40 31
  let checked (l : List Ext) : Except (Nat × Nat) (List Ext) :=
    if l.any (fun e => e.stg && decide (room < e.addr + e.len)) then .error (4, word) else .ok l
  if !isList then (checked [{ stg := stg, addr := addr, len := len }], s)
  else
    let r := s.engRead d n [{ stg := false, addr := addr, len := 16 * len }] 0 (16 * len)
    match r.2.1 with
    | some x => (.error x, r.2.2)
    | none => match listExts len r.1 with
      | some l => (checked l, r.2.2)
      | none => (.error (4, word), r.2.2)

/-- Whether untranslated ranges of two operands overlap. -/
def overlapExts (a b : List Ext) : Bool :=
  a.any (fun x => b.any (fun y => x.stg == y.stg && decide (x.addr < y.addr + y.len) && decide (y.addr < x.addr + x.len)))

/-- Source and destination of a job, checked as R346 says. -/
def State.operands (s : State) (d : Nat) (j : Job) : Except (Nat × Nat) (List Ext × List Ext) × State :=
  let w0 := j.w 0
  match (if j.op = 1 then (.ok [], s) else s.operand d j.inst (bitB w0 22) (bitB w0 24) (j.w 1).toNat (bitsN (j.w 2) 31 0) 1) with
  | (.error e, s1) => (.error e, s1)
  | (.ok src, s1) =>
    match s1.operand d j.inst (bitB w0 23) (bitB w0 25) (j.w 3).toNat (bitsN (j.w 2) 63 32) 3 with
    | (.error e, s2) => (.error e, s2)
    | (.ok dst, s2) =>
      if j.op = 2 ∧ extLen src ≠ extLen dst then (.error (4, 2), s2)
      else if (j.op = 3 ∨ j.op = 4) ∧ overlapExts src dst then (.error (4, 3), s2)
      else if j.op = 3 ∧ j.fmt = 4 ∧ extLen src % 4096 ≠ 0 then (.error (4, 2), s2)
      else (.ok (src, dst), s2)

/-! ## Records (R349, R350) -/

/-- The next held record of an instance, written at CQ_TAIL: false where the ring has no free record, the function may not
write, or the write fails (which signals the vector). -/
def State.putRec (s : State) (d n : Nat) (rec : List Word) : Bool × State :=
  let x := s.inst d n
  let a := dbA d n + 0x18
  let size := 2 ^ bitsN (x.arg 4) 4 0
  let tail := s.fld a 37 22
  let head := s.fld (dbA d n + 8) 15 0
  if !s.engOn d then (false, s)
  else if (tail + 1) % size = head then (false, s.putFlag a 3 true)
  else
    let ph := s.flag a 38
    let v := wordsLine [putB (rec.getD 0 0) 0 ph, rec.getD 1 0, rec.getD 2 0, rec.getD 3 0]
    let va := bitsN (x.arg 4) 63 12 * 2 ^ 12 + 32 * tail
    match s.instXlate d n va 2 with
    | .error b => (false, (s.instFault d n va 2 b).instIrq d n)
    | .ok (pa, s1) =>
      match (if inSysMem pa then s1.dmaWrite (engAgt d) pa v 32 else (2, s1)) with
      | (0, s2) =>
        let s3 := (s2.putFld a 37 22 ((tail + 1) % size)).putFlag a 38 (if tail + 1 = size then !ph else ph)
        (true, if rec.getD 4 0 = 1 then s3.instIrq d n else s3)
      | (_, s2) => (false, s2.instIrq d n)

/-- Records written in order while there is room; those left. -/
def State.putRecs (s : State) (d n : Nat) : List (List Word) → List (List Word) × State
  | [] => ([], s)
  | r :: rs =>
    match s.putRec d n r with
    | (true, s1) => State.putRecs s1 d n rs
    | (false, s1) => (r :: rs, s1)

/-- The held records of an instance are written while the ring has room; CQ_FULL shows whether one still waits for it. -/
def State.flushRecs (s : State) (d n : Nat) : State :=
  let r := (s.putFlag (dbA d n + 0x18) 3 false).putRecs d n (s.inst d n).held
  r.2.modInst d n (fun x => { x with held := r.1 })

/-- The record of a job that ended (Table 12.4). -/
def jobRec (j : Job) (r : JobRes) (now : Word) : List Word :=
  [BitVec.ofNat 64 (r.status * 2 ^ 8 + j.slot * 2 ^ 16 + bitsN (j.w 7) 63 32 * 2 ^ 32),
    BitVec.ofNat 64 (r.srcUsed + r.dstUsed * 2 ^ 32), BitVec.ofNat 64 (r.check + r.detail * 2 ^ 32), now,
    if bitB (j.w 0) 20 ∨ r.status ≠ 0 then 1 else 0]

/-- A job ends: LAST, and its record, held behind the records that wait (R349, R366). -/
def State.jobDone (s : State) (d : Nat) (j : Job) (r : JobRes) : State :=
  let s1 := ((s.setLast d j.inst r.status).engEv d 1 j.inst j.cls).modInst d j.inst
    (fun x => { x with held := x.held ++ [jobRec j r s.ctime] })
  s1.flushRecs d j.inst

end Sys2Proof.Machine
end

