-- ==== Sys2Proof/Machine/Deflate.lean ====
section
/-! DEFINITION. DEFLATE streams and their wrappers (R353, R354, R359 to R363; RFC 1950, 1951 and 1952): the decompressor, which
goes on from a context, and the compressor, whose search is free and whose blocks decode to their source. -/

namespace Sys2Proof.Machine
open Sys2Proof

/-! ## Bits and prefix codes -/

/-- The bits of a byte list, the least significant of each byte first. -/
def bitsLsb (l : List Byte) : List Bool := l.flatMap (fun b => (List.range 8).map (fun i => b.getLsbD i))
/-- The number that bits spell, the first the least significant. -/
def numBits : List Bool → Nat
  | [] => 0
  | b :: l => (if b then 1 else 0) + 2 * numBits l
/-- n bits of a number, the least significant first. -/
def bitsFor (v n : Nat) : List Bool := (List.range n).map (fun i => v.testBit i)
/-- The bytes that bits spell; the last is padded with zeros. -/
def packBits : Nat → List Bool → List Byte
  | 0, _ => []
  | n + 1, l => if l.isEmpty then [] else BitVec.ofNat 8 (numBits (l.take 8)) :: packBits n (l.drop 8)
/-- A number of n bits read from the front of a bit list, with what is left; none where it ends early. -/
def readBits (n : Nat) (l : List Bool) : Option (Nat × List Bool) :=
  let f := l.take n
  if f.length < n then none else some (numBits f, l.drop n)

/-- What reading an element of a stream gives: a value and the bits left, the end of the source, or malformed input. -/
inductive Rd (α : Type) where
  | ok (a : α) (rest : List Bool)
  | short
  | bad

/-- A canonical prefix code: how many codes have each length from 1 up, and the symbols in order of their codes. -/
structure Huff where
  cnt : List Nat
  syms : List Nat

/-- The code that a list of lengths gives (RFC 1951, 3.2.2). -/
def huffOf (lens : List Nat) : Huff :=
  let at' (n : Nat) : List Nat := (lens.zipIdx.filter (fun x => decide (x.1 = n))).map (fun x => x.2)
  { cnt := (List.range 15).map (fun i => (at' (i + 1)).length), syms := (List.range 15).flatMap (fun i => at' (i + 1)) }

/-- The codes that a list of counts leaves unused, or none where it has too many. -/
def huffLeft : List Nat → Nat → Option Nat
  | [], left => some left
  | c :: cs, left => if 2 * left < c then none else huffLeft cs (2 * left - c)

/-- Whether a code is complete, or a single code of length 1, or has no symbol. -/
def Huff.okFor (h : Huff) (alone : Bool) : Bool :=
  match huffLeft h.cnt 1 with
  | none => false
  | some left => decide (left = 0) || (alone && (h.syms.isEmpty || (decide (h.syms.length = 1) && decide (h.cnt.headD 0 = 1))))

/-- A symbol read by a code, from the code of length 1 up. -/
def huffRead : List Nat → List Nat → Nat → Nat → List Bool → Rd Nat
  | [], _, _, _, _ => .bad
  | _ :: _, _, _, _, [] => .short
  | c :: cs, syms, code, first, b :: l =>
    let code := code + (if b then 1 else 0)
    if code < first + c then .ok (syms.getD (code - first) 0) l
    else huffRead cs (syms.drop c) (2 * code) (2 * (first + c)) l
/-- A symbol read by a code. -/
def Huff.read (h : Huff) (l : List Bool) : Rd Nat := huffRead h.cnt h.syms 0 0 l

/-! ## The decompressor (RFC 1951) -/

/-- Base and extra bits of the length symbols from 257, and of the distance symbols. -/
def lenTab : List (Nat × Nat) :=
  [(3, 0), (4, 0), (5, 0), (6, 0), (7, 0), (8, 0), (9, 0), (10, 0), (11, 1), (13, 1), (15, 1), (17, 1), (19, 2), (23, 2), (27, 2),
   (31, 2), (35, 3), (43, 3), (51, 3), (59, 3), (67, 4), (83, 4), (99, 4), (115, 4), (131, 5), (163, 5), (195, 5), (227, 5), (258, 0)]
def distTab : List (Nat × Nat) :=
  [(1, 0), (2, 0), (3, 0), (4, 0), (5, 1), (7, 1), (9, 2), (13, 2), (17, 3), (25, 3), (33, 4), (49, 4), (65, 5), (97, 5), (129, 6),
   (193, 6), (257, 7), (385, 7), (513, 8), (769, 8), (1025, 9), (1537, 9), (2049, 10), (3073, 10), (4097, 11), (6145, 11), (8193, 12),
   (12289, 12), (16385, 13), (24577, 13)]
/-- The order of the code length codes. -/
def clOrder : List Nat := [16, 17, 18, 0, 8, 7, 9, 6, 10, 5, 11, 4, 12, 3, 13, 2, 14, 1, 15]
/-- The lengths of the fixed codes: 288 literal and length codes, then 32 distance codes. -/
def fixedLens : List Nat := List.replicate 144 8 ++ List.replicate 112 9 ++ List.replicate 24 7 ++ List.replicate 8 8 ++ List.replicate 32 5

/-- Where a decompressor stands in a stream (Table 12.6): its stage, whether the last block has begun, the type of the open
block (3: none is open, the model's code, log entry 141), the bytes left of a stored one, the lengths and codes of a
compressed one, the bytes before it, latest first, and how many of them this job wrote. -/
structure Infl where
  stage : Nat
  last : Bool
  btype : Nat
  left : Nat
  lens : List Nat
  lit : Huff
  dst : Huff
  rev : List Byte
  n : Nat

/-- A block opened with the codes of 320 lengths. -/
def Infl.codes (x : Infl) (btype : Nat) (lens : List Nat) : Infl :=
  { x with btype := btype, lens := lens, lit := huffOf (lens.take 288), dst := huffOf (lens.drop 288) }

/-- n code lengths of a dynamic block, by the code length code. -/
def readLens (h : Huff) (n : Nat) : Nat → List Nat → List Bool → Rd (List Nat)
  | 0, _, _ => .bad
  | f + 1, acc, l =>
    if n ≤ acc.length then (if acc.length = n then .ok acc.reverse l else .bad)
    else match h.read l with
      | .short => .short
      | .bad => .bad
      | .ok sym r =>
        let rep (v k base : Nat) (r : List Bool) : Rd (List Nat) :=
          match readBits k r with
          | none => .short
          | some (e, r1) => readLens h n f (List.replicate (base + e) v ++ acc) r1
        if sym < 16 then readLens h n f (sym :: acc) r
        else if sym = 16 then (match acc with
          | [] => .bad
          | v :: _ => rep v 2 3 r)
        else if sym = 17 then rep 0 3 3 r
        else rep 0 7 11 r

/-- The header of a dynamic block after its type (RFC 1951, 3.2.7): the 320 lengths. -/
def readDynamic (l : List Bool) : Rd (List Nat) :=
  match readBits 5 l with
  | none => .short
  | some (hlit, l1) => match readBits 5 l1 with
    | none => .short
    | some (hdist, l2) => match readBits 4 l2 with
      | none => .short
      | some (hclen, l3) =>
        if 29 < hlit ∨ 29 < hdist then .bad
        else if l3.length < 3 * (hclen + 4) then .short
        else
          let v (i : Nat) : Nat := numBits ((l3.drop (3 * i)).take 3)
          let cl := (List.range 19).map (fun s => match clOrder.findIdx? (fun x => decide (x = s)) with
            | some i => if i < hclen + 4 then v i else 0
            | none => 0)
          let h := huffOf cl
          if !h.okFor false then .bad
          else match readLens h (hlit + 257 + hdist + 1) 400 [] (l3.drop (3 * (hclen + 4))) with
            | .short => .short
            | .bad => .bad
            | .ok ls r =>
              let pad (n : Nat) (x : List Nat) : List Nat := x ++ List.replicate (n - x.length) 0
              let lens := pad 288 (ls.take (hlit + 257)) ++ pad 32 (ls.drop (hlit + 257))
              if (huffOf (lens.take 288)).okFor true && (huffOf (lens.drop 288)).okFor true && decide (lens.getD 256 0 ≠ 0) then .ok lens r
              else .bad

/-- k bytes copied from a distance back. -/
def copyBack (d : Nat) : Nat → List Byte → List Byte
  | 0, rev => rev
  | k + 1, rev => copyBack d k (rev.getD (d - 1) 0 :: rev)

/-- Why a decompressor stops: the destination is full, the source ends, malformed input, a match before the history, or the
end of the last block. -/
inductive InflEnd where
  | full | short | bad | hist (d : Nat) | done

/-- One element of a stream: a block header, a literal, a match, the end of a block. -/
def inflStep (room : Nat) (x : Infl) (l : List Bool) : InflEnd ⊕ (Infl × List Bool) :=
  if x.stage = 2 then .inl .done
  else if x.btype = 3 then
    if x.last then .inr ({ x with stage := 2 }, l)
    else match readBits 3 l with
      | none => .inl .short
      | some (h, r) =>
        let y := { x with last := decide (h % 2 = 1) }
        match h / 2 with
        | 0 => match readBits 32 (r.drop (r.length % 8)) with
          | none => .inl .short
          | some (v, r1) =>
            if v % 65536 + v / 65536 = 65535 then .inr ({ y with btype := 0, left := v % 65536 }, r1) else .inl .bad
        | 1 => .inr (y.codes 1 fixedLens, r)
        | 2 => match readDynamic r with
          | .short => .inl .short
          | .bad => .inl .bad
          | .ok lens r1 => .inr (y.codes 2 lens, r1)
        | _ => .inl .bad
  else if x.btype = 0 then
    if x.left = 0 then .inr ({ x with btype := 3 }, l)
    else match readBits 8 l with
      | none => .inl .short
      | some (v, r) =>
        if room ≤ x.n then .inl .full
        else .inr ({ x with left := x.left - 1, rev := BitVec.ofNat 8 v :: x.rev, n := x.n + 1 }, r)
  else match x.lit.read l with
    | .short => .inl .short
    | .bad => .inl .bad
    | .ok sym r =>
      if sym < 256 then
        (if room ≤ x.n then .inl .full else .inr ({ x with rev := BitVec.ofNat 8 sym :: x.rev, n := x.n + 1 }, r))
      else if sym = 256 then .inr ({ x with btype := 3 }, r)
      else match lenTab[sym - 257]? with
        | none => .inl .bad
        | some (lb, le) => match readBits le r with
          | none => .inl .short
          | some (e, r1) => match x.dst.read r1 with
            | .short => .inl .short
            | .bad => .inl .bad
            | .ok ds r2 => match distTab[ds]? with
              | none => .inl .bad
              | some (db, de) => match readBits de r2 with
                | none => .inl .short
                | some (e2, r3) =>
                  let d := db + e2
                  if x.rev.length < d then .inl (.hist d)
                  else if room < x.n + lb + e then .inl .full
                  else .inr ({ x with rev := copyBack d (lb + e) x.rev, n := x.n + lb + e }, r3)

/-- Elements in turn while they come whole and their output fits. -/
def inflRun (room : Nat) : Nat → Infl → List Bool → InflEnd × Infl × List Bool
  | 0, x, l => (.short, x, l)
  | f + 1, x, l => match inflStep room x l with
    | .inl e => (e, x, l)
    | .inr (y, r) => inflRun room f y r

/-- Elements that n bits of a stream can hold. -/
def inflFuel (n : Nat) : Nat := 3 * n + 8

/-! ## Wrappers (R354) -/

/-- Adler-32 of bytes, going on from a value. -/
def adler32 (a : Nat) (l : List Byte) : Nat :=
  let r := l.foldl (fun (x : Nat × Nat) b => let s := (x.1 + b.toNat) % 65521; (s, (x.2 + s) % 65521)) (a % 65536, a / 65536)
  r.2 * 65536 + r.1
/-- The bytes of a number, most significant first. -/
def bytesBE (v n : Nat) : List Byte := (bytesOf v n).reverse

/-- A zero-ended field of a header: how many bytes it takes. -/
def zeroEnd : List Byte → Option Nat
  | [] => none
  | b :: l => if b = 0 then some 1 else (zeroEnd l).map (· + 1)

/-- The length of a gzip header (RFC 1952): none inside where it is malformed, none where the source ends in it. -/
def gzipHead (l : List Byte) : Option (Option Nat) :=
  if l.length < 10 then none
  else
    let flg := (l.getD 3 0).toNat
    if l.take 3 ≠ [0x1F, 0x8B, 8] ∨ 32 ≤ flg then some none
    else
      let after (n : Nat) (bit : Nat) (f : List Byte → Option Nat) : Option Nat :=
        if flg.testBit bit then (f (l.drop n)).map (n + ·) else some n
      let extra (m : List Byte) : Option Nat :=
        let k := 2 + numOf (m.take 2)
        if m.length < 2 ∨ m.length < k then none else some k
      match (((after 10 2 extra).bind (fun n => after n 3 zeroEnd)).bind (fun n => after n 4 zeroEnd)) with
      | none => none
      | some n =>
        if !flg.testBit 1 then some (some n)
        else if l.length < n + 2 then none
        else if numOf ((l.drop n).take 2) = crc32 0 (l.take n) % 65536 then some (some (n + 2)) else some none

/-- The length of a zlib header (RFC 1950) and whether it names a dictionary; a dictionary must be the one given. -/
def zlibHead (dict l : List Byte) : Option (Option (Nat × Bool)) :=
  if l.length < 2 then none
  else
    let cmf := (l.getD 0 0).toNat
    let flg := (l.getD 1 0).toNat
    if cmf % 16 ≠ 8 ∨ 7 < cmf / 16 ∨ (256 * cmf + flg) % 31 ≠ 0 then some none
    else if !flg.testBit 5 then some (some (2, false))
    else if l.length < 6 then none
    else if dict ≠ [] ∧ (l.drop 2).take 4 = bytesBE (adler32 1 dict) 4 then some (some (6, true)) else some none

/-! ## Jobs -/

/-- What a codec produced: status, source bytes used, detail, check value, output, context. -/
structure CodecRes where
  status : Nat
  used : Nat
  detail : Nat
  check : Nat
  out : List Byte
  ctx : List Byte

/-- The running check value of a stream of a format (R359). -/
def checkOf (fmt prev : Nat) (l : List Byte) : Nat := if fmt = 2 then crc32 prev l else crc32c prev l

/-- No block is open, and nothing has been decoded. -/
def Infl.start (rev : List Byte) : Infl :=
  { stage := 1, last := false, btype := 3, left := 0, lens := [], lit := { cnt := [], syms := [] }, dst := { cnt := [], syms := [] },
    rev := rev, n := 0 }

/-- Where a decompressor goes on by a context (Table 12.6). -/
def Infl.ofCtx (c : List Byte) (rev : List Byte) : Infl :=
  let w0 := numOf (c.take 8)
  let w5 := numOf ((c.drop 0x28).take 8)
  let lens := ((c.drop 0x40).take 160).flatMap (fun b => [b.toNat % 16, b.toNat / 16])
  let x := Infl.start rev
  ({ x with stage := w0 / 2 ^ 14 % 4, last := w0.testBit 19, left := w5 / 2 ^ 16 % 2 ^ 16 }).codes (w5 / 64 % 4) lens

/-- The fields of a context that DEFLATE decompression keeps, from offset 0 (Table 12.6). -/
def Infl.toCtx (x : Infl) (pos adler : Nat) : List Byte :=
  let nib (i : Nat) : Nat := x.lens.getD i 0
  bytesOf (x.stage * 2 ^ 14 + pos % 8 * 2 ^ 16 + (if x.last then 2 ^ 19 else 0)) 8 ++ List.replicate 20 0 ++ bytesOf adler 4 ++
    List.replicate 8 0 ++ bytesOf (x.btype * 64 + x.left * 2 ^ 16) 8 ++ List.replicate 16 0 ++
    (List.range 160).map (fun i => BitVec.ofNat 8 (nib (2 * i) + 16 * nib (2 * i + 1)))

/-- Decompression of DEFLATE (0), ZLIB (1) or GZIP (2): `c` is the context of a job that resumes, else empty; `final` says that
the source ends the stream; prevOut and prevCk are OUT_TOTAL and CHECK before. -/
def inflateJob (fmt : Nat) (final : Bool) (c hist dict src : List Byte) (room prevOut prevCk : Nat) : CodecRes :=
  let w0 := numOf (c.take 8)
  let adler0 := if c.isEmpty then 1 else numOf ((c.drop 0x1C).take 4)
  let res (status used detail : Nat) (x : Infl) (pos : Nat) : CodecRes :=
    let out := (x.rev.take x.n).reverse
    { status := status, used := used, detail := detail, check := checkOf fmt prevCk out, out := out,
      ctx := x.toCtx pos (adler32 adler0 out) }
  let fresh := c.isEmpty || decide (w0 / 2 ^ 14 % 4 = 0)
  let x0 := Infl.start hist.reverse
  let short (x : Infl) (pos : Nat) : CodecRes := if final then res 5 (pos / 8) (pos / 8) x pos else res 0 (pos / 8) 0 x pos
  let head : Option (Option (Nat × Bool)) :=
    if !fresh then some (some (0, false))
    else if fmt = 1 then zlibHead dict src
    else if fmt = 2 then (gzipHead src).map (fun x => x.map (fun n => (n, false)))
    else some (some (0, false))
  match head with
  | none => short { x0 with stage := 0 } 0
  | some none => res 5 0 0 { x0 with stage := 0 } 0
  | some (some (hn, preset)) =>
    let x1 := if fresh then (if preset then { x0 with rev := dict.reverse } else x0) else Infl.ofCtx c hist.reverse
    let total := 8 * src.length
    let skip := if fresh then 8 * hn else w0 / 2 ^ 16 % 8
    let r := inflRun room (inflFuel total) x1 ((bitsLsb src).drop skip)
    let x := r.2.1
    let pos := total - r.2.2.length
    match r.1 with
    | .full => res 2 (pos / 8) 0 x pos
    | .short => short x pos
    | .bad => res 5 (pos / 8) (pos / 8) x pos
    | .hist d => res 7 (pos / 8) d x pos
    | .done =>
      let out := (x.rev.take x.n).reverse
      let a := (pos + 7) / 8
      let tail := if fmt = 1 then bytesBE (adler32 adler0 out) 4
        else if fmt = 2 then bytesOf (crc32 prevCk out) 4 ++ bytesOf ((prevOut + x.n) % 2 ^ 32) 4 else []
      if src.length < a + tail.length then short x pos
      else if (src.drop a).take tail.length = tail then res 0 (a + tail.length) 0 { x with stage := 3 } 0
      else res 6 (a + tail.length) 0 x pos

/-! ## The compressor (R353, R354, R360, R361) -/

/-- A stored block after `held` bits of an unfinished byte. -/
def storedBlock (final : Bool) (held : Nat) (l : List Byte) : List Bool :=
  [final, false, false] ++ List.replicate ((8 - (held + 3) % 8) % 8) false ++ bitsFor l.length 16 ++ bitsFor (65535 - l.length) 16 ++ bitsLsb l

/-- The next block of a compressor: its bits and the source bytes that it covers. What the search finds is free, Config.deflatePlan; it
is used when it decodes to the source, in at most 64 KiB, and is no larger than a stored block. LEVEL 0 stores. -/
def nextBlock (level draw : Nat) (final : Bool) (held : Nat) (rev src : List Byte) : List Bool × Nat :=
  let n := min 65535 src.length
  let stored := (storedBlock (final && decide (n = src.length)) held (src.take n), n)
  if level = 0 then stored
  else if src.isEmpty then ([final, true, false] ++ List.replicate 7 false, 0)
  else
    let cand := Config.deflatePlan level draw rev src
    let pad := (8 - (held + cand.length) % 8) % 8
    let r := inflRun 65536 (inflFuel (cand.length + pad)) (Infl.start rev) (cand ++ List.replicate pad false)
    let y := r.2.1
    if y.btype = 3 ∧ r.2.2.length = pad ∧ 0 < y.n ∧ (y.rev.take y.n).reverse = src.take y.n ∧ y.last = (final && decide (y.n = src.length)) ∧
        cand.length ≤ (storedBlock y.last held (src.take y.n)).length then (cand, y.n)
    else stored

/-- Blocks in turn while whole ones fit: the bits, held ones first, the source bytes used, and whether all is done. -/
def deflBlocks (level draw : Nat) (final : Bool) (room : Nat) : Nat → List Bool → List Byte → List Byte → Nat → List Bool × Nat × Bool
  | 0, bits, _, _, used => (bits, used, false)
  | f + 1, bits, rev, src, used =>
    if src.isEmpty && (!final || decide (0 < used)) then (bits, used, true)
    else
      let b := nextBlock level (draw + used) final (bits.length % 8) rev src
      let all := bits ++ b.1
      if room < (all.length + (if final && decide (b.2 = src.length) then 7 else 0)) / 8 then (bits, used, false)
      else if b.2 = src.length then (all, used + b.2, true)
      else deflBlocks level draw final room f all (((src.take b.2).reverse ++ rev).take 32768) (src.drop b.2) (used + b.2)

/-- The header that a compressor writes (R354). -/
def deflHead (fmt level : Nat) (dict : List Byte) : List Byte :=
  if fmt = 1 then
    let fl := if level ≤ 1 then 0 else if level ≤ 5 then 1 else if level = 6 then 2 else 3
    let b := 0x7800 + fl * 64 + (if dict.isEmpty then 0 else 32)
    bytesBE (b + (31 - b % 31) % 31) 2 ++ (if dict.isEmpty then [] else bytesBE (adler32 1 dict) 4)
  else if fmt = 2 then [0x1F, 0x8B, 8, 0, 0, 0, 0, 0, 0, 0xFF]
  else []

/-- Compression to DEFLATE, ZLIB or GZIP. -/
def deflateJob (fmt level draw : Nat) (final : Bool) (c hist dict src : List Byte) (room prevIn prevCk : Nat) : CodecRes :=
  let w0 := numOf (c.take 8)
  let stage := if c.isEmpty then 0 else w0 / 2 ^ 14 % 4
  let adler0 := if c.isEmpty then 1 else numOf ((c.drop 0x1C).take 4)
  let held := if c.isEmpty then [] else bitsFor (numOf ((c.drop 0x20).take 8)) (numOf ((c.drop 0x28).take 8) % 64)
  let res (status used stage : Nat) (last : Bool) (bits : List Bool) (tail : List Byte) : CodecRes :=
    let taken := src.take used
    let ad := adler32 adler0 taken
    let ends := decide (stage = 3)
    let whole := if ends then (bits.length + 7) / 8 else bits.length / 8
    let rest := bits.drop (8 * whole)
    { status := status, used := used, detail := 0, check := checkOf fmt prevCk taken, out := packBits whole (bits.take (8 * whole)) ++ tail,
      ctx := bytesOf (stage * 2 ^ 14 + (if last then 2 ^ 19 else 0)) 8 ++ List.replicate 20 0 ++ bytesOf ad 4 ++ bytesOf (numBits rest) 8 ++
        bytesOf rest.length 8 }
  let head := if stage = 0 then deflHead fmt level dict else []
  if room < head.length then res 2 0 0 false [] []
  else
    let rev := if stage = 0 ∧ fmt = 1 ∧ dict ≠ [] then dict.reverse else hist.reverse
    let r := if stage = 2 then (held, 0, true)
      else deflBlocks level draw final room (src.length + 2) (held ++ bitsLsb head) rev src 0
    if !r.2.2 then res 2 r.2.1 1 false r.1 []
    else if !final && decide (stage ≠ 2) then res 0 r.2.1 1 false r.1 []
    else
      let taken := src.take r.2.1
      let tail := if fmt = 1 then bytesBE (adler32 adler0 taken) 4
        else if fmt = 2 then bytesOf (crc32 prevCk taken) 4 ++ bytesOf ((prevIn + r.2.1) % 2 ^ 32) 4 else []
      if room < (r.1.length + 7) / 8 + tail.length then res 2 r.2.1 2 true r.1 [] else res 0 r.2.1 3 true r.1 tail

end Sys2Proof.Machine
end

