-- ==== Sys2Proof/Machine/Zstd.lean ====
section
/-! DEFINITION. Zstandard frames (R355, R359 to R363; RFC 8878): the decompressor, which goes on from a context at the start of a
block, and the compressor, whose search is free and whose blocks decode to their source. -/

namespace Sys2Proof.Machine
open Sys2Proof

/-! ## XXH64 (R359) -/

def xxP : Nat → BitVec 64
  | 1 => 0x9E3779B185EBCA87
  | 2 => 0xC2B2AE3D27D4EB4F
  | 3 => 0x165667B19E3779F9
  | 4 => 0x85EBCA77C2B2AE63
  | _ => 0x27D4EB2F165667C5
/-- One input word mixed into a lane. -/
def xxRound (a w : BitVec 64) : BitVec 64 := ((a + w * xxP 2).rotateLeft 31) * xxP 1
/-- A lane merged into the value. -/
def xxMerge (h a : BitVec 64) : BitVec 64 := (h ^^^ xxRound 0 a) * xxP 1 + xxP 4
/-- The four lanes after the stripes of 32 bytes, and the bytes left. -/
def xxStripes : Nat → BitVec 64 × BitVec 64 × BitVec 64 × BitVec 64 → List Byte → (BitVec 64 × BitVec 64 × BitVec 64 × BitVec 64) × List Byte
  | 0, v, l => (v, l)
  | n + 1, (a, b, c, d), l =>
    let w (i : Nat) : BitVec 64 := BitVec.ofNat 64 (numOf ((l.drop (8 * i)).take 8))
    xxStripes n (xxRound a (w 0), xxRound b (w 1), xxRound c (w 2), xxRound d (w 3)) (l.drop 32)
/-- The last bytes mixed in: eight, four, then one at a time. -/
def xxTail : Nat → BitVec 64 → List Byte → BitVec 64
  | 0, h, _ => h
  | n + 1, h, l =>
    if 8 ≤ l.length then
      xxTail n ((h ^^^ xxRound 0 (BitVec.ofNat 64 (numOf (l.take 8)))).rotateLeft 27 * xxP 1 + xxP 4) (l.drop 8)
    else if 4 ≤ l.length then
      xxTail n ((h ^^^ (BitVec.ofNat 64 (numOf (l.take 4)) * xxP 1)).rotateLeft 23 * xxP 2 + xxP 3) (l.drop 4)
    else match l with
      | [] => h
      | b :: l => xxTail n ((h ^^^ (b.setWidth 64 * xxP 5)).rotateLeft 11 * xxP 1) l
/-- XXH64 with seed 0. -/
def xxh64 (l : List Byte) : BitVec 64 :=
  let n := l.length / 32
  let h := if n = 0 then xxP 5
    else
      let v := (xxStripes n (xxP 1 + xxP 2, xxP 2, 0, 0 - xxP 1) l).1
      let h := v.1.rotateLeft 1 + v.2.1.rotateLeft 7 + v.2.2.1.rotateLeft 12 + v.2.2.2.rotateLeft 18
      xxMerge (xxMerge (xxMerge (xxMerge h v.1) v.2.1) v.2.2.1) v.2.2.2
  let h := xxTail 40 (h + BitVec.ofNat 64 l.length) (l.drop (32 * n))
  let h := (h ^^^ (h >>> 33)) * xxP 2
  let h := (h ^^^ (h >>> 29)) * xxP 3
  h ^^^ (h >>> 32)
/-- The check value of a stream: low half of XXH64 from its first byte; after a context, which keeps 32 bits only, it is free
(Config.xxhMore, log entry 141). -/
def zstdCheck (prevOut prev : Nat) (l : List Byte) : Nat :=
  if prevOut = 0 then (xxh64 l).toNat % 2 ^ 32 else Config.xxhMore prevOut prev l % 2 ^ 32

/-! ## Finite state entropy tables (RFC 8878, 4.1) -/

/-- Normalized counts of a table, with its accuracy log; a count of -1 is less than one. -/
structure Fse where
  log : Nat
  norm : List Int

/-- Zero counts that two-bit flags repeat. -/
def fseZeros : Nat → Nat → List Bool → Option (Nat × List Bool)
  | 0, _, _ => none
  | f + 1, n, l => match readBits 2 l with
    | none => none
    | some (3, r) => fseZeros f (n + 3) r
    | some (k, r) => some (n + k, r)

/-- The counts of a table description: what is left to distribute, the counts so far, latest first. -/
def fseCounts (most : Nat) : Nat → Nat → List Int → List Bool → Option (List Int × List Bool)
  | 0, _, _, _ => none
  | f + 1, left, acc, l =>
    if left = 0 then some (acc.reverse, l)
    else if most ≤ acc.length then none
    else
      let bits := Nat.log2 (left + 1) + 1
      let thr := 2 ^ bits - 1 - (left + 1)
      match readBits (bits - 1) l with
      | none => none
      | some (lo, r) =>
        let got : Option (Nat × List Bool) :=
          if lo < thr then some (lo, r)
          else match readBits 1 r with
            | none => none
            | some (b, r1) => some (if b = 1 then lo + 2 ^ (bits - 1) - thr else lo, r1)
        match got with
        | none => none
        | some (v, r1) =>
          let took := if v = 0 then 1 else v - 1
          if left < took then none
          else if v = 1 then (match fseZeros 200 0 r1 with
            | none => none
            | some (z, r2) => if most < acc.length + 1 + z then none else fseCounts most f left (List.replicate (z + 1) 0 ++ acc) r2)
          else fseCounts most f (left - took) (((v : Int) - 1) :: acc) r1

/-- A table description read from bytes: the table and the bytes it took. -/
def fseRead (maxLog most : Nat) (l : List Byte) : Option (Fse × Nat) :=
  let bits := bitsLsb (l.take 512)
  match readBits 4 bits with
  | none => none
  | some (v, r) =>
    if maxLog < v + 5 then none
    else match fseCounts most 600 (2 ^ (v + 5)) [] r with
      | none => none
      | some (n, r1) => some ({ log := v + 5, norm := n }, (bits.length - r1.length + 7) / 8)

/-- Cells given to a symbol by the stepping walk, above `high` skipped: the cells and the next position. -/
def fsePlace (size high sym : Nat) : Nat → Nat → List Nat → Nat → List Nat × Nat
  | 0, _, t, p => (t, p)
  | _, 0, t, p => (t, p)
  | f + 1, k + 1, t, p =>
    let step := size / 2 + size / 8 + 3
    if p < high then fsePlace size high sym f k (t.set p sym) ((p + step) % size)
    else fsePlace size high sym f (k + 1) t ((p + step) % size)

/-- The symbol of each state: counts of -1 take the last cells, the others are spread. -/
def Fse.spread (x : Fse) : List Nat :=
  let size := 2 ^ x.log
  let low := (x.norm.zipIdx.filter (fun e => decide (e.1 = -1))).map (fun e => e.2)
  let t0 := low.zipIdx.foldl (fun t e => t.set (size - 1 - e.2) e.1) (List.replicate size 0)
  (x.norm.zipIdx.foldl (fun (tp : List Nat × Nat) e =>
    if 0 < e.1 then fsePlace size (size - low.length) e.2 (4 * size) e.1.toNat tp.1 tp.2 else tp) (t0, 0)).1

/-- The decoding table: symbol, bits to read, base of the next state. -/
def Fse.table (x : Fse) : List (Nat × Nat × Nat) :=
  let size := 2 ^ x.log
  let next := x.norm.map (fun n => if n = -1 then 1 else n.toNat)
  ((x.spread.foldl (fun (a : List (Nat × Nat × Nat) × List Nat) s =>
    let k := a.2.getD s 1
    let nb := x.log - Nat.log2 k
    ((s, nb, k * 2 ^ nb - size) :: a.1, a.2.set s (k + 1))) ([], next)).1).reverse

/-! ## Backward bit streams and literals (RFC 8878, 4.2) -/

/-- The bits of a stream that is read from its end, past the flag bit; none where there is no flag. -/
def bitsBack (l : List Byte) : Option (List Bool) :=
  match (bitsLsb l).reverse.dropWhile (fun b => !b) with
  | [] => none
  | _ :: r => if l.getLastD 0 = 0 then none else some r

/-- A number of n bits, the first the most significant. -/
def takeMsb (n : Nat) (l : List Bool) : Option (Nat × List Bool) :=
  let f := l.take n
  if f.length < n then none else some (numBits f.reverse, l.drop n)

/-- Weights of a Huffman tree completed by its last: all of them, and the longest code. -/
def fullWeights (ws : List Nat) : Option (List Nat × Nat) :=
  let sum := (ws.map (fun w => if w = 0 then 0 else 2 ^ (w - 1))).sum
  if sum = 0 then none
  else
    let mb := Nat.log2 sum + 1
    let left := 2 ^ mb - sum
    if 11 < mb ∨ 2 ^ Nat.log2 left ≠ left then none else some (ws ++ [Nat.log2 left + 1], mb)

/-- Weights decoded by two states in turn, until the bits end. -/
def weightRun (t : List (Nat × Nat × Nat)) : Nat → Nat → Nat → List Bool → List Nat → Option (List Nat)
  | 0, _, _, _, _ => none
  | f + 1, a, b, l, acc =>
    let e := t.getD a (0, 0, 0)
    match takeMsb e.2.1 l with
    | none => some ((t.getD b (0, 0, 0)).1 :: e.1 :: acc).reverse
    | some (v, r) => weightRun t f b (e.2.2 + v) r (e.1 :: acc)

/-- A Huffman tree description: its weights and the bytes it took. -/
def huffWeights (l : List Byte) : Option (List Nat × Nat) :=
  match l with
  | [] => none
  | hb :: r =>
    let n := hb.toNat
    if 128 ≤ n then
      let k := n - 127
      if r.length < (k + 1) / 2 then none
      else some ((List.range k).map (fun i => let b := (r.getD (i / 2) 0).toNat; if i % 2 = 0 then b / 16 else b % 16), 1 + (k + 1) / 2)
    else if r.length < n then none
    else match fseRead 6 255 (r.take n) with
      | none => none
      | some (x, used) =>
        match bitsBack ((r.take n).drop used) with
        | none => none
        | some bits => match takeMsb x.log bits with
          | none => none
          | some (a, r1) => match takeMsb x.log r1 with
            | none => none
            | some (b, r2) => (weightRun x.table 260 a b r2 []).map (fun ws => (ws, 1 + n))

/-- The code of a list of weights, read on complemented bits: the longest codes stand lowest. -/
def weightCode (ws : List Nat) (mb : Nat) : Huff :=
  let at' (n : Nat) : List Nat := (ws.zipIdx.filter (fun x => decide (0 < x.1 ∧ mb + 1 - x.1 = n))).map (fun x => x.2)
  { cnt := (List.range 11).map (fun i => (at' (i + 1)).length), syms := (List.range 11).flatMap (fun i => (at' (i + 1)).reverse) }

/-- n symbols of one stream, which they use up. -/
def huffStream (h : Huff) : Nat → List Bool → Option (List Byte)
  | 0, l => if l.isEmpty then some [] else none
  | n + 1, l => match h.read l with
    | .ok s r => (huffStream h n r).map (fun x => BitVec.ofNat 8 s :: x)
    | _ => none

/-- Symbols of one backward stream. -/
def huffBytes (h : Huff) (n : Nat) (l : List Byte) : Option (List Byte) := (bitsBack l).bind (fun b => huffStream h n (b.map (fun x => !x)))

/-! ## Blocks (RFC 8878, 3.1.1) -/

/-- The tables that a block may repeat: Huffman weights, then those of literal lengths, offsets and match lengths; the repeat offsets;
the bytes before, latest first. -/
structure ZTab where
  ws : List Nat
  ll : Option Fse
  off : Option Fse
  ml : Option Fse
  rep : Nat × Nat × Nat
  rev : List Byte

/-- A table of one symbol. -/
def Fse.rle (s : Nat) : Fse := { log := 0, norm := List.replicate s 0 ++ [1] }

def defLl : Fse := { log := 6, norm := [4, 3, 2, 2, 2, 2, 2, 2, 2, 2, 2, 2, 2, 1, 1, 1, 2, 2, 2, 2, 2, 2, 2, 2, 2, 3, 2, 1, 1, 1, 1, 1, -1, -1, -1, -1] }
def defMl : Fse := { log := 6, norm := [1, 4, 3, 2, 2, 2, 2, 2, 2] ++ List.replicate 37 1 ++ List.replicate 7 (-1) }
def defOff : Fse := { log := 5, norm := [1, 1, 1, 1, 1, 1, 2, 2, 2] ++ List.replicate 15 1 ++ List.replicate 5 (-1) }

/-- Base and extra bits of the literal length and match length codes. -/
def llTab : List (Nat × Nat) := (List.range 16).map (fun i => (i, 0)) ++
  [(16, 1), (18, 1), (20, 1), (22, 1), (24, 2), (28, 2), (32, 3), (40, 3), (48, 4), (64, 6)] ++ (List.range 10).map (fun i => (2 ^ (i + 7), i + 7))
def mlTab : List (Nat × Nat) := (List.range 32).map (fun i => (i + 3, 0)) ++
  [(35, 1), (37, 1), (39, 1), (41, 1), (43, 2), (47, 2), (51, 3), (59, 3), (67, 4), (83, 4), (99, 5)] ++
  (List.range 10).map (fun i => (2 ^ (i + 7) + 3, i + 7))

/-- The literals of a block: the literals, the weights after, and the bytes the section took. -/
def literals (ws : List Nat) (l : List Byte) : Option (List Byte × List Nat × Nat) :=
  match l with
  | [] => none
  | b0 :: _ =>
    let v := numOf (l.take 5)
    let kind := b0.toNat % 4
    let sf := b0.toNat / 4 % 4
    if kind < 2 then
      let hl := if sf % 2 = 0 then 1 else if sf = 1 then 2 else 3
      let n := if sf % 2 = 0 then v / 8 % 32 else if sf = 1 then v / 16 % 2 ^ 12 else v / 16 % 2 ^ 20
      if l.length < hl + (if kind = 0 then n else 1) then none
      else if kind = 0 then some ((l.drop hl).take n, ws, hl + n)
      else some (List.replicate n (l.getD hl 0), ws, hl + 1)
    else
      let bits := if sf < 2 then 10 else if sf = 2 then 14 else 18
      let hl := if sf < 2 then 3 else if sf = 2 then 4 else 5
      let n := v / 16 % 2 ^ bits
      let c := v / 2 ^ (4 + bits) % 2 ^ bits
      if l.length < hl + c then none
      else
        let body := (l.drop hl).take c
        let tree : Option (List Nat × Nat) := if kind = 2 then huffWeights body else if ws.isEmpty then none else some (ws, 0)
        match tree with
        | none => none
        | some (w, used) => match fullWeights w with
          | none => none
          | some (full, mb) =>
            let h := weightCode full mb
            let s := body.drop used
            let out : Option (List Byte) :=
              if sf = 0 then huffBytes h n s
              else
                let z (i : Nat) : Nat := numOf ((s.drop (2 * i)).take 2)
                let d := s.drop 6
                let k := (n + 3) / 4
                if s.length < 6 + z 0 + z 1 + z 2 ∨ n < 3 * k then none
                else
                  match huffBytes h k (d.take (z 0)), huffBytes h k ((d.drop (z 0)).take (z 1)),
                    huffBytes h k ((d.drop (z 0 + z 1)).take (z 2)), huffBytes h (n - 3 * k) (d.drop (z 0 + z 1 + z 2)) with
                  | some a, some b, some c, some e => some (a ++ b ++ c ++ e)
                  | _, _, _, _ => none
            out.map (fun o => (o, w, hl + c))

/-- A table of a sequences section by its mode: the table and the bytes it took. -/
def seqTable (mode maxLog most : Nat) (dflt : Fse) (prev : Option Fse) (l : List Byte) : Option (Fse × Nat) :=
  match mode with
  | 0 => some (dflt, 0)
  | 1 => match l with
    | b :: _ => if b.toNat < most then some (Fse.rle b.toNat, 1) else none
    | [] => none
  | 2 => fseRead maxLog most l
  | _ => prev.map (fun x => (x, 0))

/-- Where the sequences of a block stand: the output still to skip (BLOCK_OUT of a context), the bytes of the block so far, the
bytes this job wrote, the sequences done, the literals left. -/
structure ZRun where
  rev : List Byte
  skip : Nat
  blk : Nat
  n : Nat
  done : Nat
  lits : List Byte
  rep : Nat × Nat × Nat

/-- Why a block stops: it ends, the destination is full, malformed input, a match before the history. -/
inductive ZEnd where
  | ok | full | bad | hist (d : Nat)
  deriving DecidableEq

/-- k bytes of a unit are added to the output, where they fit. -/
def ZRun.fits (x : ZRun) (room k : Nat) : Bool := decide (x.n + (k - x.skip) ≤ room)
def ZRun.wrote (x : ZRun) (k : Nat) (rev : List Byte) : ZRun :=
  { x with rev := rev, skip := x.skip - k, blk := x.blk + k, n := x.n + (k - x.skip) }

/-- The offset that an offset value names, and the repeat offsets after it (RFC 8878, 3.1.1.5). -/
def repOffset (ov ll : Nat) (rep : Nat × Nat × Nat) : Nat × (Nat × Nat × Nat) :=
  let (a, b, c) := rep
  if 3 < ov then (ov - 3, (ov - 3, a, b))
  else
    let i := ov - 1 + (if ll = 0 then 1 else 0)
    if i = 0 then (a, rep) else if i = 1 then (b, (b, a, c)) else if i = 2 then (c, (c, a, b)) else (a - 1, (a - 1, a, b))

/-- The sequences of a block: k to come, the three states, the bits. -/
def seqRun (room window base : Nat) (tl tof tm : List (Nat × Nat × Nat)) : Nat → Nat × Nat × Nat → List Bool → ZRun → ZEnd × ZRun
  | 0, _, l, x =>
    if !l.isEmpty then (.bad, x)
    else if !x.fits room x.lits.length then (.full, x)
    else (.ok, { x.wrote x.lits.length (x.lits.reverse ++ x.rev) with lits := [] })
  | k + 1, (sl, so, sm), l, x =>
    let el := tl.getD sl (0, 0, 0)
    let eo := tof.getD so (0, 0, 0)
    let em := tm.getD sm (0, 0, 0)
    match llTab[el.1]?, mlTab[em.1]? with
    | some (lb, le), some (mb, me) =>
      match takeMsb eo.1 l with
      | none => (.bad, x)
      | some (ox, l1) => match takeMsb me l1 with
        | none => (.bad, x)
        | some (mx, l2) => match takeMsb le l2 with
          | none => (.bad, x)
          | some (lx, l3) =>
            let ll := lb + lx
            let ml := mb + mx
            let (d, rep) := repOffset (2 ^ eo.1 + ox) ll x.rep
            let rev1 := (x.lits.take ll).reverse ++ x.rev
            let upd : Option ((Nat × Nat × Nat) × List Bool) :=
              if k = 0 then some ((0, 0, 0), l3)
              else match takeMsb el.2.1 l3 with
                | none => none
                | some (a, r1) => match takeMsb em.2.1 r1 with
                  | none => none
                  | some (c, r2) => match takeMsb eo.2.1 r2 with
                    | none => none
                    | some (b, r3) => some ((el.2.2 + a, eo.2.2 + b, em.2.2 + c), r3)
            if x.lits.length < ll ∨ d = 0 ∨ 131072 < x.blk + ll + ml then (.bad, x)
            else if rev1.length < d then (.hist d, x)
            else if window < d ∧ d ≤ base + x.blk + ll then (.bad, x)
            else if !x.fits room (ll + ml) then (.full, x)
            else
              let y := { x.wrote (ll + ml) (copyBack d ml rev1) with lits := x.lits.drop ll, rep := rep, done := x.done + 1 }
              match upd with
              | none => (.bad, y)
              | some (st, l4) => seqRun room window base tl tof tm k st l4 y
    | _, _ => (.bad, x)

/-- A compressed block from its content: why it stopped, how far it came, and the tables after it. -/
def zBlock (room window base : Nat) (t : ZTab) (skip n : Nat) (l : List Byte) : ZEnd × ZRun × ZTab :=
  let x0 : ZRun := { rev := t.rev, skip := skip, blk := 0, n := n, done := 0, lits := [], rep := t.rep }
  match literals t.ws l with
  | none => (.bad, x0, t)
  | some (lits, ws, used) =>
    let x := { x0 with lits := lits }
    let s := l.drop used
    let b (i : Nat) : Nat := (s.getD i 0).toNat
    let hl := if b 0 = 0 ∨ b 0 < 128 then 1 else if b 0 < 255 then 2 else 3
    let cnt := if b 0 < 128 then b 0 else if b 0 < 255 then (b 0 - 128) * 256 + b 1 else b 1 + 256 * b 2 + 0x7F00
    if s.length < hl then (.bad, x, t)
    else if cnt = 0 then
      (if s.length ≠ 1 then (.bad, x, t) else
        let r := seqRun room window base [] [] [] 0 (0, 0, 0) [] x
        (r.1, r.2, { t with ws := ws, rev := r.2.rev }))
    else
      let m := b hl
      let s1 := s.drop (hl + 1)
      if s.length < hl + 1 ∨ m % 4 ≠ 0 then (.bad, x, t)
      else match seqTable (m / 64) 9 36 defLl t.ll s1 with
        | none => (.bad, x, t)
        | some (ll, n1) => match seqTable (m / 16 % 4) 8 32 defOff t.off (s1.drop n1) with
          | none => (.bad, x, t)
          | some (off, n2) => match seqTable (m / 4 % 4) 9 53 defMl t.ml (s1.drop (n1 + n2)) with
            | none => (.bad, x, t)
            | some (ml, n3) => match bitsBack (s1.drop (n1 + n2 + n3)) with
              | none => (.bad, x, t)
              | some bits => match takeMsb ll.log bits with
                | none => (.bad, x, t)
                | some (a, r1) => match takeMsb off.log r1 with
                  | none => (.bad, x, t)
                  | some (o, r2) => match takeMsb ml.log r2 with
                    | none => (.bad, x, t)
                    | some (c, r3) =>
                      let r := seqRun room window base ll.table off.table ml.table cnt (a, o, c) r3 x
                      (r.1, r.2, { ws := ws, ll := some ll, off := some off, ml := some ml, rep := r.2.rep, rev := r.2.rev })

/-- A raw or RLE block of k bytes: one unit. -/
def zPlain (room : Nat) (t : ZTab) (skip n : Nat) (bytes : List Byte) : ZEnd × ZRun × ZTab :=
  let x : ZRun := { rev := t.rev, skip := skip, blk := 0, n := n, done := 0, lits := [], rep := t.rep }
  if !x.fits room bytes.length then (.full, x, t)
  else
    let rev := bytes.reverse ++ t.rev
    (.ok, x.wrote bytes.length rev, { t with rev := rev })

/-- Blocks of a frame: why decoding stopped (short: the source ends in a block), the tables at the start of the open block, the run
in it, the source bytes of whole blocks, whether the last block has ended. -/
inductive ZStop where
  | done | short | full | bad | hist (d : Nat)

structure ZPos where
  tab : ZTab
  run : ZRun
  used : Nat

/-- Blocks in turn; `base` is what the stream has written before the first of them. -/
def zBlocks (room window base0 : Nat) : Nat → ZTab → Nat → Nat → Nat → List Byte → ZStop × ZPos
  | 0, t, skip, n, used, _ => (.short, ⟨t, ⟨t.rev, skip, 0, n, 0, [], t.rep⟩, used⟩)
  | f + 1, t, skip, n, used, l =>
    let here : ZPos := ⟨t, ⟨t.rev, 0, skip, n, 0, [], t.rep⟩, used⟩
    if l.length < 3 then (.short, here)
    else
      let v := numOf (l.take 3)
      let size := v / 8
      let kind := v / 2 % 4
      let clen := if kind = 1 then 1 else size
      let most := min window 131072
      if kind = 3 ∨ most < size then (.bad, here)
      else if l.length < 3 + clen then (.short, here)
      else
        let c := (l.drop 3).take clen
        let base := base0 + n - skip
        let r := if kind = 0 then zPlain room t skip n c
          else if kind = 1 then zPlain room t skip n (List.replicate size (c.getD 0 0))
          else zBlock room window base t skip n c
        match r.1 with
        | .full => (.full, ⟨t, r.2.1, used⟩)
        | .bad => (.bad, ⟨t, r.2.1, used⟩)
        | .hist d => (.hist d, ⟨t, r.2.1, used⟩)
        | .ok =>
          if v % 2 = 1 then (.done, ⟨r.2.2, { r.2.1 with blk := 0, done := 0 }, used + 3 + clen⟩)
          else zBlocks room window base0 f r.2.2 0 r.2.1.n (used + 3 + clen) (l.drop (3 + clen))

/-! ## Frames (RFC 8878, 3.1.1.1, 3.1.2, 5) -/

/-- A frame header: its length, Window_Size, Dictionary_ID, Frame_Content_Size, whether a checksum follows. -/
structure ZHead where
  len : Nat
  window : Nat
  dict : Nat
  fcs : Option Nat
  ck : Bool

/-- A frame header: none where the source ends in it, none inside where it is malformed. -/
def zHead (l : List Byte) : Option (Option ZHead) :=
  if l.length < 5 then none
  else
    let d := (l.getD 4 0).toNat
    let ss := d.testBit 5
    let dl := [0, 1, 2, 4].getD (d % 4) 0
    let fl := if d / 64 = 0 then (if ss then 1 else 0) else 2 ^ (d / 64)
    let wl := if ss then 0 else 1
    let n := 5 + wl + dl + fl
    if d.testBit 3 then some none
    else if l.length < n then none
    else
      let w := (l.getD 5 0).toNat
      let f := numOf ((l.drop (5 + wl + dl)).take fl) + (if fl = 2 then 256 else 0)
      let win := 2 ^ (10 + w / 8) + 2 ^ (10 + w / 8) / 8 * (w % 8)
      some (some { len := n, window := if ss then f else win, dict := numOf ((l.drop (5 + wl)).take dl),
                   fcs := if fl = 0 then none else some f, ck := d.testBit 2 })

/-- The tables that a frame starts with: those of a formatted dictionary, or its raw content. -/
def zStart (rev : List Byte) : ZTab := { ws := [], ll := none, off := none, ml := none, rep := (1, 4, 8), rev := rev }
/-- A formatted dictionary with an ID (RFC 8878, 5). -/
def zDict (id : Nat) (l : List Byte) : Option ZTab :=
  if numOf (l.take 4) ≠ 0xEC30A437 ∨ numOf ((l.drop 4).take 4) ≠ id then none
  else match huffWeights (l.drop 8) with
    | none => none
    | some (ws, a) => match fseRead 8 32 (l.drop (8 + a)) with
      | none => none
      | some (off, b) => match fseRead 9 53 (l.drop (8 + a + b)) with
        | none => none
        | some (ml, c) => match fseRead 9 36 (l.drop (8 + a + b + c)) with
          | none => none
          | some (ll, d) =>
            let r := l.drop (8 + a + b + c + d)
            let o (i : Nat) : Nat := numOf ((r.drop (4 * i)).take 4)
            if r.length < 12 then none
            else some { ws := ws, ll := some ll, off := some off, ml := some ml, rep := (o 0, o 1, o 2), rev := (r.drop 12).reverse }

/-- The bytes of skippable frames at the front; none where the source ends in one. -/
def zSkip : Nat → Nat → List Byte → Option Nat
  | 0, _, _ => none
  | f + 1, used, l =>
    if l.length < 4 then none
    else if numOf (l.take 4) / 16 = 0x184D2A5 then
      let n := 8 + numOf ((l.drop 4).take 4)
      if l.length < 8 ∨ l.length < n then none else zSkip f (used + n) (l.drop n)
    else some used

/-! ## Contexts (Table 12.6) -/

/-- Counts of a table as the context keeps them; TMODES has for each table a mode, 0 none and 2 a table, and its accuracy log, and in
bit 15 whether a checksum follows: the model's layout (log entry 141). -/
def fseBytes (n : Nat) (x : Option Fse) : List Byte :=
  (List.range n).flatMap (fun i => bytesOf (match x with
    | some e => ((e.norm.getD i 0) % 65536).toNat
    | none => 0) 2)
def tmode (x : Option Fse) : Nat :=
  match x with
  | none => 0
  | some e => 16 + (if e.log = 0 then 15 else e.log)
def fseOf (n mode : Nat) (l : List Byte) : Option Fse :=
  if mode / 16 % 2 = 0 then none
  else some { log := if mode % 16 = 15 then 0 else mode % 16,
              norm := (List.range n).map (fun i => let v := numOf ((l.drop (2 * i)).take 2); if 32768 ≤ v then (v : Int) - 65536 else v) }

/-- The context of a decompression job that stops. -/
def zCtx (stage : Nat) (last ck : Bool) (window : Nat) (p : ZPos) : List Byte :=
  let ws := p.tab.ws
  let modes := tmode p.tab.ll + 32 * tmode p.tab.off + 1024 * tmode p.tab.ml + (if ck then 32768 else 0)
  bytesOf (stage * 2 ^ 14 + (if last then 2 ^ 19 else 0)) 8 ++ List.replicate 40 0 ++ bytesOf window 8 ++ bytesOf p.run.done 4 ++ bytesOf p.run.blk 4 ++
    (List.range 128).map (fun i => BitVec.ofNat 8 (ws.getD (2 * i) 0 + 16 * ws.getD (2 * i + 1) 0)) ++
    fseBytes 36 p.tab.ll ++ fseBytes 53 p.tab.ml ++ fseBytes 32 p.tab.off ++ bytesOf modes 2 ++ List.replicate 12 0 ++
    bytesOf p.tab.rep.1 4 ++ bytesOf p.tab.rep.2.1 4 ++ bytesOf p.tab.rep.2.2 4

/-- The tables of a context; weights end at the last that is not 0. -/
def zOfCtx (c : List Byte) (rev : List Byte) : ZTab :=
  let modes := numOf ((c.drop 0x1B2).take 2)
  let o (i : Nat) : Nat := numOf ((c.drop (0x1C0 + 4 * i)).take 4)
  let ws := ((c.drop 0x40).take 128).flatMap (fun b => [b.toNat % 16, b.toNat / 16])
  { ws := (ws.reverse.dropWhile (fun w => decide (w = 0))).reverse, ll := fseOf 36 (modes % 32) (c.drop 0xC0),
    ml := fseOf 53 (modes / 1024 % 32) (c.drop (0xC0 + 72)), off := fseOf 32 (modes / 32 % 32) (c.drop (0xC0 + 178)),
    rep := (o 0, o 1, o 2), rev := rev }

/-! ## Jobs -/

/-- Decompression of Zstandard (R355): `c` is the context of a job that resumes, else empty. -/
def unzstdJob (final : Bool) (c hist dict src : List Byte) (room prevOut prevCk : Nat) : CodecRes :=
  let w0 := numOf (c.take 8)
  let stage := if c.isEmpty then 0 else w0 / 2 ^ 14 % 4
  let res (status used detail : Nat) (rev : List Byte) (n : Nat) (ctx : List Byte) : CodecRes :=
    let out := (rev.take n).reverse
    { status := status, used := used, detail := detail, check := zstdCheck prevOut prevCk out, out := out, ctx := ctx }
  let none' : ZPos := ⟨zStart [], ⟨[], 0, 0, 0, 0, [], (1, 4, 8)⟩, 0⟩
  let short (used : Nat) (p : ZPos) (ctx : List Byte) : CodecRes :=
    if final then res 5 used used p.run.rev p.run.n ctx else res 0 used 0 p.run.rev p.run.n ctx
  let trailer (ck : Bool) (fcs : Option Nat) (window : Nat) (p : ZPos) : CodecRes :=
    let out := (p.run.rev.take p.run.n).reverse
    if fcs.any (fun f => decide (f ≠ prevOut + p.run.n)) then res 5 p.used p.used p.run.rev p.run.n []
    else if !ck then res 0 p.used 0 p.run.rev p.run.n (zCtx 3 true ck window p)
    else if src.length < p.used + 4 then short p.used p (zCtx 2 true ck window p)
    else if numOf ((src.drop p.used).take 4) = zstdCheck prevOut prevCk out then
      res 0 (p.used + 4) 0 p.run.rev p.run.n (zCtx 3 true ck window p)
    else res 6 (p.used + 4) 0 p.run.rev p.run.n []
  let body (t : ZTab) (ck : Bool) (fcs : Option Nat) (window skip at' : Nat) : CodecRes :=
    let r := zBlocks room window prevOut (src.length + 1) t skip 0 at' (src.drop at')
    let p := r.2
    match r.1 with
    | .done => trailer ck fcs window p
    | .short => short p.used p (zCtx 1 false ck window p)
    | .full => res 2 p.used 0 p.run.rev p.run.n (zCtx 1 false ck window p)
    | .bad => res 5 p.used p.used p.run.rev p.run.n []
    | .hist d => res 7 p.used d p.run.rev p.run.n []
  let ckOf := (numOf ((c.drop 0x1B2).take 2)).testBit 15
  let window := numOf ((c.drop 0x30).take 8)
  if stage = 2 then trailer ckOf none window none'
  else if stage = 1 then
    let skip := numOf ((c.drop 0x3C).take 4)
    body (zOfCtx c (hist.reverse.drop skip)) ckOf none window skip 0
  else match zSkip (src.length + 1) 0 src with
    | none => short 0 none' (zCtx 0 false false 0 none')
    | some a =>
      let l := src.drop a
      if numOf (l.take 4) ≠ 0xFD2FB528 then res 5 a a [] 0 []
      else match zHead l with
        | none => short a none' (zCtx 0 false false 0 none')
        | some none => res 5 a a [] 0 []
        | some (some h) =>
          let t : Option ZTab := if h.dict = 0 then some (zStart (if dict.isEmpty then hist.reverse else dict.reverse)) else zDict h.dict dict
          match t with
          | none => res 8 a a [] 0 []
          | some t =>
            if 2 ^ 31 < h.window then res 8 a a [] 0 []
            else body t h.ck h.fcs h.window 0 (a + h.len)

/-- A block of a compressor, its bytes and the source bytes that it covers: what the search finds (Config.zstdPlan) where it decodes to the
source and is smaller, else RLE or raw (R355). -/
def zNext (level wlog draw : Nat) (final : Bool) (t : ZTab) (base : Nat) (src : List Byte) : List Byte × Nat × ZTab :=
  let window := 2 ^ wlog
  let most := min window 131072
  let hdr (kind size n : Nat) : List Byte := bytesOf (size * 8 + kind * 2 + (if final ∧ n = src.length then 1 else 0)) 3
  let n := min most src.length
  let l := src.take n
  let plain (n : Nat) (b : List Byte) : List Byte × Nat × ZTab := (b, n, { t with rev := ((src.take n).reverse ++ t.rev).take window })
  let b0 := src.headD 0
  if !src.isEmpty ∧ l.all (fun b => decide (b = b0)) then plain n (hdr 1 n n ++ [b0])
  else
    let cand := Config.zstdPlan level draw t.rev src
    let r := zBlock most window base t 0 0 cand.1
    let k := r.2.1.n
    if r.1 = .ok ∧ 0 < k ∧ k = cand.2 ∧ cand.1.length < k ∧ (r.2.1.rev.take k).reverse = src.take k then
      (hdr 2 cand.1.length k ++ cand.1, k, { r.2.2 with rev := r.2.2.rev.take window })
    else plain n (hdr 0 n n ++ l)

/-- Blocks in turn while whole ones fit: the bytes, the source bytes used, the tables, and whether all is done. -/
def zCompress (level wlog draw : Nat) (final : Bool) (base : Nat) : Nat → Nat → ZTab → List Byte → List Byte → Nat → List Byte × Nat × ZTab × Bool
  | 0, _, t, out, _, used => (out, used, t, false)
  | f + 1, room, t, out, src, used =>
    if src.isEmpty && !final then (out, used, t, true)
    else
      let b := zNext level wlog (draw + used) final t (base + used) src
      if room < b.1.length then (out, used, t, false)
      else if b.2.1 = src.length then (out ++ b.1, used + b.2.1, b.2.2, true)
      else zCompress level wlog draw final base f (room - b.1.length) b.2.2 (out ++ b.1) (src.drop b.2.1) (used + b.2.1)

/-- Compression to Zstandard (R355): `zck` is ZCK. -/
def zstdJob (level wlog draw : Nat) (zck final : Bool) (c hist dict src : List Byte) (room prevIn prevCk : Nat) : CodecRes :=
  let stage := if c.isEmpty then 0 else numOf (c.take 8) / 2 ^ 14 % 4
  let o (i : Nat) : Nat := numOf ((c.drop (0x1C0 + 4 * i)).take 4)
  let res (status used stage : Nat) (t : ZTab) (out : List Byte) : CodecRes :=
    { status := status, used := used, detail := 0, check := zstdCheck prevIn prevCk (src.take used), out := out,
      ctx := zCtx stage (decide (2 ≤ stage)) zck (2 ^ wlog) ⟨{ zStart [] with rep := t.rep }, ⟨[], 0, 0, 0, 0, [], t.rep⟩, 0⟩ }
  let n := src.length
  let fcs := decide (stage = 0) && c.isEmpty && final
  let fl := if !fcs then 0 else if 256 ≤ n ∧ n < 65792 then 1 else if n < 2 ^ 32 then 2 else 3
  let head := if stage ≠ 0 then [] else
    bytesOf 0xFD2FB528 4 ++ [BitVec.ofNat 8 (fl * 64 + (if zck then 4 else 0)), BitVec.ofNat 8 ((wlog - 10) * 8)] ++
      (if fl = 0 then [] else if fl = 1 then bytesOf (n - 256) 2 else bytesOf n (2 ^ fl))
  let t0 : ZTab := { zStart (if stage = 0 ∧ dict ≠ [] then dict.reverse else hist.reverse) with rep := if stage = 0 then (1, 4, 8) else (o 0, o 1, o 2) }
  if room < head.length then res 2 0 0 t0 []
  else
    let r := if stage = 2 then (head, 0, t0, true)
      else zCompress level wlog draw final prevIn (n + 2) (room - head.length) t0 head src 0
    let t := r.2.2.1
    if !r.2.2.2 then res 2 r.2.1 1 t r.1
    else if !final && decide (stage ≠ 2) then res 0 r.2.1 1 t r.1
    else
      let tail := if zck then bytesOf (zstdCheck prevIn prevCk (src.take r.2.1)) 4 else []
      if room < r.1.length + tail.length then res 2 r.2.1 2 t r.1 else res 0 r.2.1 3 t (r.1 ++ tail)

end Sys2Proof.Machine
end

