-- ==== Sys2Proof/Machine/Engine.lean ====
section
/-! DEFINITION. The data engines at work (12_data_engine.md): doorbells and descriptor fetch (R347, R348), dispatch, shares
and rounds (R349, R368), the operations (R351 to R366) and the end of a job. -/

namespace Sys2Proof.Machine
open Sys2Proof

/-! ## Jobs in flight, and the end of a drain (R349, R369) -/

/-- The jobs of an instance on units of its engine. -/
def State.onUnits (s : State) (d n : Nat) : List Job :=
  ((List.range 18).filterMap (fun u => ((s.eng d).unit u).job)).filter (fun j => decide (j.inst = n))

/-- Jobs of an instance consumed and not ended, and ended ones whose records are held: at most INFLIGHT run or are held at
once (R349). -/
def State.inFlight (s : State) (d n : Nat) : Nat :=
  (s.inst d n).ready.length + (s.inst d n).susp.length + (s.onUnits d n).length + (s.inst d n).held.length

/-- An instance returns to the state after CREATE, with its arguments; LAST shows the last job that ended. -/
def State.instFresh (s : State) (d n : Nat) : State :=
  let a := dbA d n
  let last := s.fld (a + 0x18) 46 39
  let s1 := ((s.wrCsr a 0).wrCsr (a + 8) 0).wrCsr (a + 0x10) 0
  let s2 := (s1.wrCsr (a + 0x18) (BitVec.ofNat 64 (0x4000200001 + last * 2 ^ 39))).wrCsr (a + 0x20) 0
  s2.modInst d n (fun x => { x with ready := [], susp := [], held := [], budgets := [], stop := false, mis := false })

/-- A mailbox command ends with a result, and its interrupt (Table 12.7). -/
def State.mbxEnd (s : State) (d res : Nat) : State :=
  let b := engBase d + 0x808000
  let s1 := (s.putFld (b + 0x48) 2 0 res).putFlag b 16 false
  if s.flag (b + 0x50) 11 then s1.msix d (s.fld (b + 0x50) 10 0) else s1

/-- A DRAIN ends when every consumed job has ended and its record is written. -/
def State.drainEnd (s : State) (d n : Nat) : State :=
  if s.instSt d n = 2 ∧ s.inFlight d n = 0 then
    let b := engBase d + 0x808000
    let s1 := s.instFresh d n
    if s.flag b 16 && decide (s.fld b 7 0 = 4) && decide (s.fld b 15 8 = n) then s1.mbxEnd d 0 else s1
  else s

/-! ## Doorbells (R347, R348, Table 12.10) -/

/-- A write of a doorbell page: dropped and logged where the instance is UNUSED or ENDED. -/
def State.doorbell (s : State) (a : CsrReq) (own : CsrW → Option Nat) (eff : Nat → Nat → CsrW → State → State) : Nat × State :=
  match s.csrForm a with
  | none => s.csrWrite a own (fun _ s => s)
  | some w =>
    let d := (w.block - 544) / 16
    let n := w.ix.headD 0
    let st := s.instSt d n
    if s.csrAccepts a.pa true a.req && decide (st = 0 ∨ st = 5) then (2, s.aerrQ a.pa true a.req)
    else s.csrWrite a own (eff d n)

/-- A write of DB_SQ_TAIL (R9, R348): dropped while the instance is reset; a changed tail lets the engine read the slot
again. -/
def State.sqTailWrite (s : State) (a : CsrReq) : Nat × State :=
  s.doorbell a (fun w =>
      let d := (w.block - 544) / 16
      let n := w.ix.headD 0
      if badTail (2 ^ bitsN ((s.inst d n).arg 3) 4 0) w.old.toNat (s.fld (dbA d n + 0x18) 20 5) (bitsN w.val 15 0) then some 1 else none)
    (fun d n w s =>
      if s.instSt d n = 2 ∨ s.instSt d n = 3 then s.wrCsr w.pa w.old
      else if w.new = w.old then s
      else s.modInst d n (fun x => { x with mis := false }))

/-- A write of DB_CQ_HEAD (R9, R349): held records are written. -/
def State.cqHeadWrite (s : State) (a : CsrReq) : Nat × State :=
  s.doorbell a (fun w =>
      let d := (w.block - 544) / 16
      let n := w.ix.headD 0
      if badHead (2 ^ bitsN ((s.inst d n).arg 4) 4 0) (s.fld (dbA d n + 0x18) 37 22) w.old.toNat (bitsN w.val 15 0) then some 1 else none)
    (fun d n w s =>
      if s.instSt d n = 4 ∨ w.new = w.old then s else (s.flushRecs d n).drainEnd d n)

/-- A write of DB_FQ_HEAD (R9). -/
def State.fqHeadWrite (s : State) (a : CsrReq) : Nat × State :=
  s.doorbell a (fun w =>
      let d := (w.block - 544) / 16
      let n := w.ix.headD 0
      if badHead (2 ^ bitsN ((s.inst d n).arg 5) 4 0) (s.fld (dbA d n + 0x20) 15 0) w.old.toNat (bitsN w.val 15 0) then some 1 else none)
    (fun _ _ _ s => s)

/-- A write of DB_STATUS clears FQ_OVF (Table 12.3). -/
def State.dbStatusWrite (s : State) (a : CsrReq) : Nat × State := s.doorbell a (fun _ => none) (fun _ _ _ s => s)

/-- DB_SQ_TAIL: a write of DB_SQ_TAIL. -/
def execDbSqTail (d : IoDie) (n : InstId) (value : Word) (q : Requester) (s : State) : Out :=
  .next (s.sqTailWrite (wr8 (dbA d n) value q)).2
/-- DB_CQ_HEAD: a write of DB_CQ_HEAD. -/
def execDbCqHead (d : IoDie) (n : InstId) (value : Word) (q : Requester) (s : State) : Out :=
  .next (s.cqHeadWrite (wr8 (dbA d n + 8) value q)).2

/-! ## Fetch (R342, R348, R366) -/

/-- Address of the slot at SQ_HEAD. -/
def State.slotVa (s : State) (d n : Nat) : Nat :=
  bitsN ((s.inst d n).arg 3) 63 12 * 2 ^ 12 + 64 * s.fld (dbA d n + 0x18) 20 5

/-- The slot at SQ_HEAD is read and, when its PHASE matches, consumed (R348); a fault stops the instance's fetching. -/
def State.fetchSlot (s : State) (d n : Nat) : State :=
  let a := dbA d n + 0x18
  let head := s.fld a 20 5
  let size := 2 ^ bitsN ((s.inst d n).arg 3) 4 0
  if !s.engOn d || decide (s.instSt d n ≠ 1) || (s.inst d n).stop || decide (head = s.fld (dbA d n) 15 0) ||
      decide (bitsN ((s.inst d n).arg 6) 21 19 ≤ s.inFlight d n) then s
  else
    let r := s.engRead d n [{ stg := false, addr := s.slotVa d n, len := 64 }] 0 64
    match r.2.1 with
    | some e => ((r.2.2.modInst d n (fun x => { x with stop := true })).setLast d n e.1).instIrq d n
    | none =>
      let desc := (List.range 8).map (fun i => BitVec.ofNat 64 (numOf ((r.1.drop (8 * i)).take 8)))
      let ph := s.flag a 21
      if bitB (desc.headD 0) 0 != ph then r.2.2.modInst d n (fun x => { x with mis := true })
      else
        let j : Job := { inst := n, slot := head, desc := desc, pos := 0, check := 0, passed := 0, res := none }
        ((r.2.2.putFld a 20 5 ((head + 1) % size)).putFlag a 21 (if head + 1 = size then !ph else ph)).modInst d n
          (fun x => { x with ready := x.ready ++ [j], mis := false })

/-- DESCRIPTOR_READ: the engine reads the slot at SQ_HEAD of an instance whose last slot matched. -/
def execDescriptorRead (d : IoDie) (n : InstId) (s : State) : Out :=
  .next (if (s.inst d n).mis then s else s.fetchSlot d n)
/-- DESCRIPTOR_RETRY: 10 µs after a PHASE mismatch the engine reads the slot again. -/
def execDescriptorRetry (d : IoDie) (n : InstId) (s : State) : Out :=
  .next (if (s.inst d n).mis then s.fetchSlot d n else s)

/-! ## Shares and dispatch (R340, R349, R368, R369) -/

/-- Units of a class. -/
def classUnits (c : Nat) : Nat := if c = 0 then 4 else if c = 1 then 8 else if c = 2 then 4 else 2
def Inst.budget (x : Inst) (c : Nat) : Int := x.budgets.getD c 0
def Inst.setBudget (x : Inst) (c : Nat) (v : Int) : Inst :=
  { x with budgets := (List.range 4).map (fun i => if i = c then v else x.budget i) }

/-- The job of an instance that a unit of class c would take: a suspended one first, else the next in ring order, which
waits for every earlier one when it has FENCE. -/
def State.nextJob (s : State) (d n c : Nat) : Option (Job × Bool) :=
  let x := s.inst d n
  match x.susp.find? (fun j => decide (j.cls = c)) with
  | some j => some (j, true)
  | none =>
    match x.ready with
    | [] => none
    | j :: _ =>
      if decide (j.cls = c) && !(bitB (j.w 0) 21 && (!x.susp.isEmpty || !(s.onUnits d n).isEmpty)) then some (j, false) else none

/-- Whether an instance waits for a unit of class c. -/
def State.waitsFor (s : State) (d n c : Nat) : Bool :=
  decide (s.instSt d n = 1 ∨ s.instSt d n = 2) && decide (s.fld (shareA d n) 7 0 ≠ 0) && (s.inst d n).held.isEmpty &&
    (s.nextJob d n c).isSome

/-- The instance of highest budget among those that wait, ties to the lower number. -/
def State.pickInst (s : State) (d c : Nat) : Option Nat :=
  ((List.range 256).filter (fun n => s.waitsFor d n c)).foldl (fun best n =>
    match best with
    | none => some n
    | some m => if (s.inst d m).budget c < (s.inst d n).budget c then some n else some m) none

/-- A unit takes a job. -/
def State.unitJob (s : State) (d u : Nat) (j : Option Job) : State :=
  s.setUnit d u { (s.eng d).unit u with job := j, slow := ((s.eng d).unit u).slow && j.isSome }

/-- A job on a unit ends with a result, whose record JOB_END writes. -/
def State.endJob (s : State) (d u : Nat) (j : Job) (r : JobRes) : State := s.unitJob d u (some { j with res := some r })

/-- DISPATCH: a free unit takes the next job of the instance with the highest budget, and asks for a Toll grant when it
holds none; a descriptor that its own bits refuse ends with BAD_DESC. -/
def execDispatch (d : IoDie) (u : UnitId) (s : State) : Out :=
  .next (
    let x := (s.eng d).unit u
    let c := unitClass u
    if x.job.isSome || x.retired || s.testing 0x28 (32 * d + u) || !s.engOn d then s
    else match s.pickInst d c with
      | none => s
      | some n =>
        match s.nextJob d n c with
        | none => s
        | some (j, susp) =>
          let s1 := s.modInst d n (fun y => if susp then { y with susp := takeOut j y.susp } else { y with ready := y.ready.tail })
          let s2 := match (if susp then none else j.bad) with
            | some w => s1.endJob d u j { status := 4, srcUsed := 0, dstUsed := 0, check := 0, detail := w }
            | none => s1.unitJob d u (some j)
          if x.grant then s2 else s2.tollEnqueue (.unit d u))

/-- A job's time charged to its instance's budget: bytes at a rate in bytes per ns (Table 12.1), a quarter of it on a unit whose
grant was withdrawn (Table 14.3). -/
def State.charged (s : State) (d u : Nat) (j : Job) (bytes rate : Nat) : State :=
  let t := (bytes + rate - 1) / rate * (if ((s.eng d).unit u).slow then 4 else 1)
  s.modInst d j.inst (fun x => x.setBudget j.cls (x.budget j.cls - (t : Nat)))

/-- Bytes per ns of a job's unit (Table 12.1). -/
def Job.rate (j : Job) : Nat :=
  let lev := bitsN (j.w 0) 10 7
  if j.op = 2 then 30
  else if j.op < 2 then 60
  else if j.fmt = 4 then 30
  else if j.op = 4 then 10
  else if lev ≤ 3 then 10
  else if lev ≤ 6 then 6
  else 3

/-- BLOCK_BOUNDARY: a job is suspended while its instance's budget is spent and another with a positive budget waits, or
while its share is 0 (R368, R369). -/
def execBlockBoundary (d : IoDie) (u : UnitId) (s : State) : Out :=
  .next (
    match ((s.eng d).unit u).job with
    | none => s
    | some j =>
      let c := j.cls
      let other := (List.range 256).any (fun n => decide (n ≠ j.inst) && s.waitsFor d n c && decide (0 < (s.inst d n).budget c))
      if j.res.isSome || !(decide (s.fld (shareA d j.inst) 7 0 = 0) || (decide ((s.inst d j.inst).budget c ≤ 0) && other)) then s
      else ((s.unitJob d u none).modInst d j.inst (fun x => { x with susp := x.susp ++ [j] })).engEv d 6 j.inst c)

/-- Whether an instance holds a consumed or consumable descriptor of a class. -/
def State.holdsClass (s : State) (d n c : Nat) : Bool :=
  let x := s.inst d n
  (x.ready ++ x.susp ++ s.onUnits d n).any (fun j => decide (j.cls = c)) ||
    (decide (s.fld (dbA d n + 0x18) 20 5 ≠ s.fld (dbA d n) 15 0) && s.engOn d &&
      (let r := s.engRead d n [{ stg := false, addr := s.slotVa d n, len := 8 }] 0 8
       let w := BitVec.ofNat 64 (numOf r.1)
       r.2.1.isNone && bitB w 0 == s.flag (dbA d n + 0x18) 21 &&
         decide (({ inst := n, slot := 0, desc := [w], pos := 0, check := 0, passed := 0, res := none } : Job).cls = c)))

/-- ROUND_START: at the next tick of ctime that is a multiple of 64,000 and has passed, every share takes its next value, and each class's time is divided by the shares of the instances that
hold work for it; a negative balance is carried (R368). -/
def execRoundStart (d : IoDie) (s : State) : Out :=
  .next (
    let at' := ((s.eng d).roundAt / 64000 + 1) * 64000
    if s.ctime.toNat < at' then s
    else
    let ns := (List.range 256).filter (fun n => decide (s.instSt d n ≠ 0))
    let s1 := ns.foldl (fun (s : State) n => s.putFld (shareA d n) 7 0 (s.fld (shareA d n) 15 8)) s
    let s2 := (List.range 4).foldl (fun (s : State) c =>
      let act := ns.filter (fun n => decide (s1.fld (shareA d n) 7 0 ≠ 0) && s1.holdsClass d n c)
      let sum := (act.map (fun n => s1.fld (shareA d n) 7 0)).sum
      ns.foldl (fun (s : State) n =>
        let carry := min ((s1.inst d n).budget c) 0
        let part : Nat := if act.contains n then classUnits c * 64000 * s1.fld (shareA d n) 7 0 / sum else 0
        s.modInst d n (fun x => x.setBudget c (carry + part))) s) s1
    (s2.wrCsr (engBase d + 0x800008) (s2.rdCsr (engBase d + 0x800008) + 1)).setEng d { s2.eng d with roundAt := at' })

/-- UNIT_IDLE: a unit idle for 10 µs returns its grant (R340). -/
def execUnitIdle (d : IoDie) (u : UnitId) (s : State) : Out :=
  .next (
    let x := (s.eng d).unit u
    if x.job.isNone && x.grant && decide (x.idleAt + 10000 ≤ s.ctime.toNat) then
      (s.setUnit d u { x with grant := false }).grantReturn (.unit d u)
    else s)

/-! ## Operations (R351 to R365) -/

/-- Source bytes read and destination bytes written by the blocks that a job has done. -/
def Job.srcDone (j : Job) : Nat := if j.op = 1 then 0 else j.pos
def Job.dstDone (j : Job) : Nat := if j.op = 2 then 0 else j.pos

/-- The job of an operation that a unit may run: granted, or going on after its grant was withdrawn, enabled, of an instance that runs. -/
def State.running (s : State) (d u op : Nat) : Option Job :=
  match ((s.eng d).unit u).job with
  | some j =>
    if (((s.eng d).unit u).grant || ((s.eng d).unit u).slow) && s.engOn d && j.res.isNone && decide (j.op = op) &&
        decide (s.instSt d j.inst = 1 ∨ s.instSt d j.inst = 2) then some j else none
  | none => none

/-- One step of an operation on a unit. -/
def State.opStep (s : State) (d u op : Nat) (f : Job → List Ext → List Ext → State → State) : Out :=
  .next (match s.running d u op with
    | none => s
    | some j => match s.operands d j with
      | (.error e, s1) => s1.endJob d u j { status := e.1, srcUsed := j.srcDone, dstUsed := j.dstDone, check := j.check, detail := e.2 }
      | (.ok (src, dst), s1) => f j src dst s1)

/-- Source and destination traffic counted in 64-byte units. -/
def State.traffic (s : State) (d : Nat) (j : Job) (src dst : Nat) : State :=
  (s.engEvN d 2 j.inst j.cls ((src + 63) / 64)).engEvN d 3 j.inst j.cls ((dst + 63) / 64)

/-- How far a copy came: position, check value, poisoned lines passed, how it ended, the state. -/
structure CopyRes where
  pos : Nat
  check : Nat
  passed : Nat
  err : Option (Nat × Nat)
  st : State

/-- Source pieces, as read, written to the destination (R351, R365): PPASS passes an aligned poisoned line. -/
def copyOut (d : Nat) (j : Job) (dst : List Ext) : CopyRes → List (Ext × List Byte × Bool) → CopyRes
  | r, [] => r
  | r, (e, bs, poison) :: l =>
    let outs := pieces dst r.pos e.len
    let line := decide (e.len = 64) && decide (e.addr % 64 = 0) && !e.stg &&
      outs.all (fun t => !t.stg && decide (t.addr % 64 = 0) && decide (t.len = 64))
    if poison && !(bitB (j.w 0) 26 && line) then { r with err := some (9, r.pos) }
    else if poison then
      match outs with
      | [t] => match r.st.engWr d j.inst t bs true with
        | (none, s) => copyOut d j dst { pos := r.pos + 64, check := crc32c r.check bs, passed := r.passed + 1, err := none, st := s } l
        | (some x, s) => { r with err := some x, st := s }
      | _ => { r with err := some (9, r.pos) }
    else
      let w := r.st.engWriteL d j.inst outs bs
      match w.2.1 with
      | none => copyOut d j dst { r with pos := r.pos + e.len, check := crc32c r.check bs, st := w.2.2 } l
      | some x => { r with pos := r.pos + w.1, check := crc32c r.check (bs.take w.1), err := some x, st := w.2.2 }

/-- A job goes on to its next block, or ends. -/
def State.advance (s : State) (d u : Nat) (j : Job) (done : Bool) (r : JobRes) : State :=
  if done then s.endJob d u j r else s.unitJob d u (some j)

/-- COPY: one block of 64 KiB; a copy whose ranges overlap is one block, since it must preserve its source (R351). -/
def execCopy (d : IoDie) (u : UnitId) (s : State) : Out :=
  s.opStep d u 0 (fun j src dst s =>
    let total := min (extLen src) (extLen dst)
    let n := if overlapExts src dst then total - j.pos else min 65536 (total - j.pos)
    let ps := pieces src j.pos n
    let rd := s.readAll d j.inst ps
    let r := copyOut d j dst { pos := j.pos, check := j.check, passed := j.passed, err := none, st := rd.2.2 } (ps.zip rd.1)
    let err := r.err.orElse (fun _ => rd.2.1)
    let s1 := (r.st.charged d u j (r.pos - j.pos) j.rate).traffic d j (r.pos - j.pos) (r.pos - j.pos)
    let st := match err with
      | some e => e.1
      | none => if extLen dst < extLen src then 2 else 0
    let detail := match err with
      | some e => e.2
      | none => if bitB (j.w 0) 26 then r.passed else 0
    s1.advance d u { j with pos := r.pos, check := r.check, passed := r.passed } (err.isSome || decide (r.pos = total))
      { status := st, srcUsed := r.pos, dstUsed := r.pos, check := r.check, detail := detail })

/-- FILL: one block of 64 KiB of the 8-byte pattern. -/
def execFill (d : IoDie) (u : UnitId) (s : State) : Out :=
  s.opStep d u 1 (fun j _ dst s =>
    let total := extLen dst
    let n := min 65536 (total - j.pos)
    let pat := bytesOf (j.w 1).toNat 8
    let bs := (List.range n).map (fun i => pat.getD ((j.pos + i) % 8) 0)
    let w := s.engWrite d j.inst dst j.pos bs
    let pos := j.pos + w.1
    let check := crc32c j.check (bs.take w.1)
    let s1 := (w.2.2.charged d u j w.1 j.rate).traffic d j 0 w.1
    let e := w.2.1.getD (0, 0)
    s1.advance d u { j with pos := pos, check := check } (w.2.1.isSome || decide (pos = total))
      { status := e.1, srcUsed := 0, dstUsed := pos, check := check, detail := e.2 })

/-- Bytes that two lists have in common from their start. -/
def common : List Byte → List Byte → Nat
  | a :: l, b :: m => if a = b then common l m + 1 else 0
  | _, _ => 0

/-- COMPARE: one block of 64 KiB of each operand. -/
def execCompare (d : IoDie) (u : UnitId) (s : State) : Out :=
  s.opStep d u 2 (fun j src dst s =>
    let total := extLen src
    let n := min 65536 (total - j.pos)
    let a := s.engRead d j.inst src j.pos n
    let b := a.2.2.engRead d j.inst dst j.pos n
    let k := common a.1 b.1
    let m := min a.1.length b.1.length
    let pos := j.pos + k
    let check := crc32c j.check (a.1.take k)
    let s1 := (b.2.2.charged d u j k j.rate).traffic d j k 0
    let e := if k < m then (3, pos) else ((if a.1.length ≤ b.1.length then a.2.1.orElse (fun _ => b.2.1) else b.2.1)).getD (0, 0)
    s1.advance d u { j with pos := pos, check := check } (decide (e.1 ≠ 0) || decide (pos = total))
      { status := e.1, srcUsed := pos, dstUsed := 0, check := check, detail := e.2 })

/-! ### Codecs -/

/-- A record of a 4 KiB block (R356): ZERO, CHIVE or RAW. -/
def chiveRec (blk : List Byte) : List Byte :=
  let crc := crc32c 0 blk
  if blk.all (fun b => decide (b = 0)) then bytesOf (crc * 2 ^ 32) 8
  else match chiveEncode blk with
    | some img => bytesOf (1 + img.length / 512 * 4 + crc * 2 ^ 32) 8 ++ img
    | none => bytesOf (2 + 8 * 4 + crc * 2 ^ 32) 8 ++ blk

/-- Blocks compressed while whole records fit: the output and the source bytes used. -/
def chiveComp (src : List Byte) (room : Nat) : Nat → List Byte × Nat
  | 0 => ([], 0)
  | n + 1 =>
    let r := chiveRec (src.take 4096)
    if src.length < 4096 ∨ room < r.length then ([], 0)
    else
      let x := chiveComp (src.drop 4096) (room - r.length) n
      (r ++ x.1, 4096 + x.2)

/-- Records decompressed while whole blocks fit: status, source bytes used, output (R356, R361), and the computed check
value of the block that ends with CHECK_FAIL (R359). -/
def chiveDecomp (final : Bool) (src : List Byte) (room : Nat) : Nat → Nat × Nat × List Byte × Nat
  | 0 => (0, 0, [], 0)
  | n + 1 =>
    if src.isEmpty then (0, 0, [], 0)
    else
      let w := BitVec.ofNat 64 (numOf (src.take 8))
      let k := bitsN w 1 0
      let ns := bitsN w 5 2
      let body := (src.drop 8).take (512 * ns)
      let short : Nat × Nat × List Byte × Nat := (if final then 5 else 0, 0, [], 0)
      if src.length < 8 then short
      else if k = 3 ∨ bitsN w 31 6 ≠ 0 ∨ (k = 0 ∧ ns ≠ 0) ∨ (k = 1 ∧ (ns = 0 ∨ 7 < ns)) ∨ (k = 2 ∧ ns ≠ 8) then (5, 0, [], 0)
      else if body.length < 512 * ns then short
      else
        let dec := if k = 0 then (0, List.replicate 4096 (0 : Byte)) else if k = 2 then (0, body) else chiveDecode ns body
        let crc := crc32c 0 dec.2
        if dec.1 = 1 then (5, 0, [], 0)
        else if dec.1 ≠ 0 ∨ crc ≠ bitsN w 63 32 then (6, 0, [], crc)
        else if room < 4096 then (2, 0, [], 0)
        else
          let x := chiveDecomp final (src.drop (8 + 512 * ns)) (room - 4096) n
          (x.1, 8 + 512 * ns + x.2.1, dec.2 ++ x.2.2.1, x.2.2.2)

/-- The Chive format (R356). -/
def chiveRun (j : Job) (src : List Byte) (room prev : Nat) : CodecRes :=
  if j.op = 3 then
    let x := chiveComp src room (src.length / 4096)
    { status := if x.2 < src.length then 2 else 0, used := x.2, detail := 0, check := crc32c prev (src.take x.2), out := x.1, ctx := [] }
  else
    let x := chiveDecomp (bitB (j.w 0) 16) src room (src.length + 1)
    { status := x.1, used := x.2.1, detail := if x.1 = 5 then x.2.1 else 0, check := if x.1 = 6 then x.2.2.2 else crc32c prev x.2.2.1,
      out := x.2.2.1, ctx := [] }

/-- The other formats (R353 to R355, R361): `c` is the context of a job that resumes, else empty. -/
def codecRun (j : Job) (draw : Nat) (c hist dict src : List Byte) (room : Nat) : CodecRes :=
  let fin := bitB (j.w 0) 16
  let level := bitsN (j.w 0) 10 7
  let prevIn := numOf ((c.drop 8).take 8)
  let prevOut := numOf ((c.drop 16).take 8)
  let prevCk := numOf ((c.drop 24).take 4)
  if j.op = 3 then
    if j.fmt = 3 then zstdJob level (bitsN (j.w 0) 15 11) draw (bitB (j.w 0) 19) fin c hist dict src room prevIn prevCk
    else deflateJob j.fmt level draw fin c hist dict src room prevIn prevCk
  else if j.fmt = 3 then unzstdJob fin c hist dict src room prevOut prevCk
  else inflateJob j.fmt fin c hist dict src room prevOut prevCk

/-- A context (Table 12.6) that a job leaves: its own fields over the codec's. -/
def ctxBytes (j : Job) (r : CodecRes) (inTot outTot : Nat) : List Byte :=
  let body := (r.ctx ++ List.replicate 508 0).take 508
  let w0 := (if j.fmt = 4 then 1 else numOf (body.take 8) / 2 ^ 14) * 2 ^ 14 + 1 + j.op * 2 ^ 8 + j.fmt * 2 ^ 11
  let l := bytesOf (w0 % 2 ^ 20) 8 ++ bytesOf inTot 8 ++ bytesOf outTot 8 ++ bytesOf r.check 4 ++ body.drop 28
  l ++ bytesOf (crc32c 0 l) 4

/-- The context that a resuming job continues: none where it fails R362. -/
def ctxOk (j : Job) (c : List Byte) : Bool :=
  let w0 := BitVec.ofNat 64 (numOf (c.take 8))
  decide (c.length = 512) && decide (bitsN w0 7 0 = 1) && decide (bitsN w0 10 8 = j.op) && decide (bitsN w0 13 11 = j.fmt) &&
    decide (bitsN w0 15 14 ≠ 3) && decide (numOf (c.drop 508) = crc32c 0 (c.take 508))

/-- The last bytes of the list at an address, up to the window (R363). -/
def State.history (s : State) (d n addr cnt window word : Nat) : Except (Nat × Nat) (List Byte) × State :=
  if cnt = 0 then (.ok [], s)
  else match s.operand d n true false addr cnt word with
    | (.error e, s1) => (.error e, s1)
    | (.ok l, s1) =>
      let total := extLen l
      let k := min window total
      let r := s1.engRead d n l (total - k) k
      match r.2.1 with
      | some e => (.error e, r.2.2)
      | none => (.ok r.1, r.2.2)

/-- A COMPRESS or DECOMPRESS job (R353 to R364): what its source, context, history and dictionary give, the output
written, and the context saved where the stream goes on. -/
def State.codecStep (s : State) (d u : Nat) (j : Job) (src dst : List Ext) : State :=
  let n := j.inst
  let fin := bitB (j.w 0) 16
  let resume := bitB (j.w 0) 17
  let stop (s : State) (e : Nat × Nat) : State :=
    s.endJob d u j { status := e.1, srcUsed := 0, dstUsed := 0, check := 0, detail := e.2 }
  let cr := if resume then s.engRead d n [{ stg := false, addr := j.ctx, len := 512 }] 0 512 else ([], none, s)
  match cr.2.1 with
  | some e => stop cr.2.2 e
  | none =>
    if resume && !ctxOk j cr.1 then stop cr.2.2 (4, 4)
    else
      let c := cr.1
      let window := if j.fmt < 3 then 32768 else if resume then numOf ((c.drop 0x30).take 8) else 2 ^ 31
      match cr.2.2.history d n (j.w 5).toNat (if j.fmt = 4 then 0 else bitsN (j.w 7) 11 0) window 5 with
      | (.error e, s1) => stop s1 e
      | (.ok hist, s1) =>
        match s1.history d n (j.w 6).toNat (if j.fmt = 4 then 0 else bitsN (j.w 7) 23 12) (2 ^ 31) 6 with
        | (.error e, s2) => stop s2 e
        | (.ok dict, s2) =>
          let total := extLen src
          let rd := s2.engRead d n src 0 total
          let prevIn := numOf ((c.drop 8).take 8)
          let prevOut := numOf ((c.drop 16).take 8)
          let prevCk := numOf ((c.drop 24).take 4)
          let s3 := rd.2.2.bump
          let r := if j.fmt = 4 then chiveRun j rd.1 (extLen dst) prevCk
            else codecRun j (Config.draw s.free) c hist dict rd.1 (extLen dst)
          let noGain := decide (j.op = 3) && fin && !bitB (j.w 0) 18 && decide (prevIn + total ≤ prevOut + r.out.length)
          let out := if noGain then r.out.take (prevIn + total - prevOut) else r.out
          let w := s3.engWrite d n dst 0 out
          let e0 : Nat × Nat := if noGain then (1, 0) else (r.status, r.detail)
          let e1 := (w.2.1.orElse (fun _ => if r.status = 2 then none else rd.2.1)).getD e0
          let s4 := (w.2.2.charged d u j (if j.op = 3 then r.used else w.1) j.rate).traffic d j r.used w.1
          let save := decide (j.ctx ≠ 0) && (decide (e1.1 = 2) || (decide (e1.1 = 0) && !fin))
          let cw := if save then
              s4.engWrite d n [{ stg := false, addr := j.ctx, len := 512 }] 0 (ctxBytes j r (prevIn + r.used) (prevOut + w.1))
            else (0, none, s4)
          let e := cw.2.1.getD e1
          cw.2.2.endJob d u j { status := e.1, srcUsed := r.used, dstUsed := w.1, check := r.check, detail := e.2 }

/-- COMPRESS: a compression job. -/
def execCompress (d : IoDie) (u : UnitId) (s : State) : Out :=
  s.opStep d u 3 (fun j src dst s => s.codecStep d u j src dst)
/-- DECOMPRESS: a decompression job. -/
def execDecompress (d : IoDie) (u : UnitId) (s : State) : Out :=
  s.opStep d u 4 (fun j src dst s => s.codecStep d u j src dst)

/-! ## The end of a job (R349) -/

/-- JOB_END: a unit whose job has ended writes its record and is free (R349, R364). -/
def execJobEnd (d : IoDie) (u : UnitId) (s : State) : Out :=
  .next (
    match ((s.eng d).unit u).job with
    | none => s
    | some j =>
      match j.res with
      | none => s
      | some r =>
        let s1 := s.setUnit d u { (s.eng d).unit u with job := none, slow := false, idleAt := s.ctime.toNat }
        (s1.jobDone d j r).drainEnd d j.inst)

end Sys2Proof.Machine
end

