-- ==== Sys2Proof/Machine/EngBox.lean ====
section
/-! DEFINITION. The data engines' functions: the mailbox and its commands (Tables 12.7 to 12.9, R369 to R371), the staging
owners (R367), master enable and function reset (R328 to R330), and the peer windows' registers (R331 to R333). -/

namespace Sys2Proof.Machine
open Sys2Proof

/-! ## Staging owners (R367) -/

/-- Owner of a granule. -/
def stgOwnA (d g : Nat) : Nat := engBase d + 0x801000 + 8 * g
def State.stgOwner (s : State) (d g : Nat) : Nat := s.fld (stgOwnA d g) 9 0

/-- Whether an owner may claim n granules from a first one. -/
def State.stgFree (s : State) (d own g n : Nat) : Bool :=
  (spanN g n).all (fun i => decide (s.stgOwner d i = 0 ∨ s.stgOwner d i = own))
/-- Granules claimed. -/
def State.stgClaim (s : State) (d own g n : Nat) : State :=
  (spanN g n).foldl (fun (s : State) i => s.putFld (stgOwnA d i) 9 0 own) s
/-- The granules of an owner released. -/
def State.stgRelease (s : State) (d own : Nat) : State :=
  (List.range 512).foldl (fun (s : State) i => if s.stgOwner d i = own then s.putFld (stgOwnA d i) 9 0 0 else s) s

/-! ## The mailbox (Tables 12.7, 12.8) -/

/-- Base of the mailbox. -/
def mbxA (d : Nat) : Nat := engBase d + 0x808000
def State.mbxArg (s : State) (d i : Nat) : Word := s.rdCsr (mbxA d + 8 + 8 * i)

/-- A write of DEN_MBX_CMD (refused while GO = 1): GO starts the command; an unlisted OP ends it with BAD_CMD. -/
def State.mbxCmdWrite (s : State) (a : CsrReq) : Nat × State :=
  s.csrWrite a (fun w => if bitB w.old 16 then some 1 else none)
    (fun w s =>
      let d := (w.block - 544) / 16
      if bitB w.val 16 then
        let s1 := s.putFlag w.pa 16 true
        if bitsN w.new 7 0 = 0 ∨ 9 < bitsN w.new 7 0 then s1.mbxEnd d 1 else s1
      else s)
/-- A write of an argument or of DEN_MBX_IRQ: refused while GO = 1. -/
def State.mbxArgWrite (s : State) (a : CsrReq) : Nat × State :=
  s.csrWrite a (fun w => if s.flag (mbxA ((w.block - 544) / 16)) 16 then some 1 else none) (fun _ s => s)

/-- A mailbox command that runs: GO is 1 and names it; a state that it does not accept ends it with BAD_STATE. -/
def State.mbx (s : State) (d n op : Nat) (ok : Nat → Bool) (f : State → State) : State :=
  if !s.flag (mbxA d) 16 || decide (s.fld (mbxA d) 7 0 ≠ op) || decide (s.fld (mbxA d) 15 8 ≠ n) || (s.cfgw (64 + d) 0x68).getLsbD 21 then s
  else if !ok (s.instSt d n) then s.mbxEnd d 2
  else f s

/-- Whether the arguments of CREATE are in range (Table 12.9). -/
def argsOk (a : List Word) : Bool :=
  let w (i : Nat) : Word := a.getD i 0
  let root (x : Word) : Bool := decide (bitsN x 11 0 = 0) && decide (bitsN x 63 52 = 0)
  let ring (x : Word) : Bool := decide (bitsN x 11 5 = 0) && decide (4 ≤ bitsN x 4 0) && decide (bitsN x 4 0 ≤ 16)
  decide (bitsN (w 0) 63 27 = 0) && !(bitB (w 0) 0 && bitB (w 0) 1) && root (w 1) && root (w 2) && ring (w 3) && ring (w 4) && ring (w 5) &&
    decide (bitsN (w 6) 63 41 = 0) && decide (1 ≤ bitsN (w 6) 21 19) && decide (bitsN (w 6) 21 19 ≤ 4) &&
    decide (bitsN (w 6) 30 22 + bitsN (w 6) 40 31 ≤ 512)

/-- The staging claim of an instance with arguments. -/
def State.instStg (s : State) (d n : Nat) (a6 : Word) : Option State :=
  if s.stgFree d (n + 1) (bitsN a6 30 22) (bitsN a6 40 31) then some (s.stgClaim d (n + 1) (bitsN a6 30 22) (bitsN a6 40 31)) else none

/-- An instance made with arguments. -/
def State.instMake (s : State) (d n : Nat) (a : List Word) : State :=
  let s1 := s.setInst d n { Inst.reset with args := a.map (fun w => w.toNat) }
  ((s1.wrCsr (shareA d n) (BitVec.ofNat 64 (bitsN (a.getD 6 0) 18 11 * 2 ^ 8))).setLast d n 0).instFresh d n

/-- CREATE: an UNUSED instance becomes ACTIVE with the arguments of Table 12.9. -/
def execCreate (d : IoDie) (n : InstId) (s : State) : Out :=
  .next (s.mbx d n 1 (fun st => decide (st = 0)) (fun s =>
    let a := (List.range 7).map (fun i => s.mbxArg d i)
    if !argsOk a then s.mbxEnd d 3
    else match s.instStg d n (a.getD 6 0) with
      | none => s.mbxEnd d 4
      | some s1 => (s1.instMake d n a).mbxEnd d 0))

/-- Every running and suspended job of an instance ends with a status; jobs that had ended are recorded as they ended. -/
def State.killJobs (s : State) (d n status : Nat) : State :=
  let kill (s : State) (j : Job) : State :=
    s.jobDone d j (j.res.getD { status := status, srcUsed := j.srcDone, dstUsed := j.dstDone, check := j.check, detail := 0 })
  let s1 := (List.range 18).foldl (fun (s : State) u =>
    match ((s.eng d).unit u).job with
    | some j => if j.inst = n then kill (s.setUnit d u { (s.eng d).unit u with job := none, slow := false, idleAt := s.ctime.toNat }) j else s
    | none => s) s
  let sus := (s1.inst d n).susp
  sus.foldl kill (s1.modInst d n (fun x => { x with susp := [] }))

/-- DESTROY: the jobs of the instance are squashed, its granules released, and it is UNUSED; one that is FROZEN discards
them (R369, Table 12.10). -/
def execDestroy (d : IoDie) (n : InstId) (s : State) : Out :=
  .next (s.mbx d n 2 (fun _ => true) (fun s =>
    let st := s.instSt d n
    let s1 := if st = 1 ∨ st = 2 ∨ st = 3 then s.killJobs d n 0x0B else s
    let s2 := ((s1.instFresh d n).setInst d n Inst.reset).stgRelease d (n + 1)
    ((s2.setInstSt d n 0).wrCsr (shareA d n) 0).mbxEnd d 0))

/-- SET_SHARE: the share from the next round. -/
def execSetShare (d : IoDie) (n : InstId) (s : State) : Out :=
  .next (s.mbx d n 3 (fun st => decide (st = 1 ∨ st = 4)) (fun s =>
    let a := (s.mbxArg d 0).toNat
    if 255 < a then s.mbxEnd d 3 else (s.putFld (shareA d n) 15 8 a).mbxEnd d 0))

/-- The arguments of RESET, and the claim that an ENDED instance must make again (Table 12.10). -/
def State.resetStart (s : State) (d n mode : Nat) (f : State → State) : State :=
  let a := (s.mbxArg d 0).toNat
  if a % 2 ≠ mode then s
  else if 1 < a then s.mbxEnd d 3
  else if s.instSt d n = 5 then
    match s.instStg d n ((s.inst d n).arg 6) with
    | none => s.mbxEnd d 4
    | some s1 => (s1.instFresh d n).mbxEnd d 0
  else f s

/-- RESET_DRAIN: the instance consumes no further slot, and returns to the state after CREATE when its jobs have ended. -/
def execResetDrain (d : IoDie) (n : InstId) (s : State) : Out :=
  .next (s.mbx d n 4 (fun st => decide (st = 1 ∨ st = 5 ∨ st = 2)) (fun s =>
    s.resetStart d n 0 (fun s => (s.setInstSt d n 2).drainEnd d n)))
/-- RESET_SQUASH: every running and suspended job ends with ABORTED; records beyond the ring's room are discarded. -/
def execResetSquash (d : IoDie) (n : InstId) (s : State) : Out :=
  .next (s.mbx d n 4 (fun st => decide (st = 1 ∨ st = 5)) (fun s =>
    s.resetStart d n 1 (fun s =>
      ((s.killJobs d n 0x0B).instFresh d n).mbxEnd d 0)))

/-- FREEZE: running jobs are suspended, held records written while the ring has space, and the instance is FROZEN. -/
def execFreeze (d : IoDie) (n : InstId) (s : State) : Out :=
  .next (s.mbx d n 5 (fun st => decide (st = 1)) (fun s =>
    let s1 := (List.range 18).foldl (fun (s : State) u =>
      match ((s.eng d).unit u).job with
      | some j =>
        if j.inst ≠ n.val then s
        else
          let s0 := s.setUnit d u { (s.eng d).unit u with job := none, slow := false, idleAt := s.ctime.toNat }
          match j.res with
          | some r => s0.jobDone d j r
          | none => s0.modInst d n (fun x => { x with susp := x.susp ++ [j] })
      | none => s) s
    ((s1.flushRecs d n).setInstSt d n 4).mbxEnd d 0))

/-- UNFREEZE: a FROZEN instance goes on. -/
def execUnfreeze (d : IoDie) (n : InstId) (s : State) : Out :=
  .next (s.mbx d n 6 (fun st => decide (st = 4)) (fun s => ((s.setInstSt d n 1).flushRecs d n).mbxEnd d 0))

/-! ## Save and restore (R371)

The spec gives the order of the image's parts and not their offsets; the layout here is the model's (log entry 87). -/

/-- The words of an image before its check value. -/
def State.imageWords (s : State) (d n : Nat) : List Nat :=
  let x := s.inst d n
  let a := dbA d n
  let st := s.rdCsr (a + 0x18)
  let jobs := (x.susp ++ x.ready).take 4
  let a0 := (x.arg 0).toNat
  let held := x.held.take 4
  [1 + 1 * 2 ^ 8 + jobs.length * 2 ^ 16, a0 - bitsN (x.arg 0) 10 2 * 4, x.args.getD 1 0, 0, x.args.getD 3 0, x.args.getD 4 0,
    x.args.getD 5 0, x.args.getD 6 0,
    bitsN st 20 5 + s.fld a 15 0 * 2 ^ 16 + bitsN st 37 22 * 2 ^ 32 + s.fld (a + 8) 15 0 * 2 ^ 48,
    s.fld (a + 0x10) 15 0 + bitsN st 21 21 * 2 ^ 32 + bitsN st 38 38 * 2 ^ 33,
    s.fld (shareA d n) 15 8 + held.length * 2 ^ 8] ++
  (List.range 4).flatMap (fun i => (List.range 5).map (fun k => ((held.getD i []).getD k 0).toNat)) ++
  (jobs.flatMap (fun j => j.desc.map (fun w => w.toNat) ++ [j.slot] ++
    (List.range 64).map (fun i => if i = 0 then 1 + j.op * 2 ^ 8 + j.fmt * 2 ^ 11 else if i = 1 then j.pos else if i = 2 then j.pos
      else if i = 3 then j.check else if i = 7 then j.passed else 0)))

/-- The 4 KiB image. -/
def State.image (s : State) (d n : Nat) : List Byte :=
  let l := ((s.imageWords d n).flatMap (fun w => bytesOf w 8) ++ List.replicate 4092 0).take 4092
  l ++ bytesOf (crc32c 0 l) 4

/-- SAVE: the image of a FROZEN instance is written to a physical address. -/
def execSave (d : IoDie) (n : InstId) (s : State) : Out :=
  .next (s.mbx d n 7 (fun st => decide (st = 4)) (fun s =>
    let a := (s.mbxArg d 0).toNat
    if a % 4096 ≠ 0 then s.mbxEnd d 3
    else if !s.engOn d then s
    else match (if inSysMem a then s.dmaWrite (engAgt d) a (numOf (s.image d n)) 4096 else (2, s)) with
      | (0, s1) => s1.mbxEnd d 0
      | _ => s.mbxEnd d 6))

/-- The suspended jobs of an image from its words. -/
def imageJobs (w : List Nat) (n : Nat) : Nat → List Job
  | 0 => []
  | k + 1 =>
    { inst := n, slot := w.getD 8 0, desc := (w.take 8).map (fun x => BitVec.ofNat 64 x), pos := w.getD 10 0, check := w.getD 12 0,
      passed := w.getD 16 0, res := none } :: imageJobs (w.drop 73) n k

/-- RESTORE: an UNUSED instance takes an image, with VMID, S2ROOT and the host fields of ARG1 to ARG3, and is FROZEN. -/
def execRestore (d : IoDie) (n : InstId) (s : State) : Out :=
  .next (s.mbx d n 8 (fun st => decide (st = 0)) (fun s =>
    let a := (s.mbxArg d 0).toNat
    if a % 4096 ≠ 0 then s.mbxEnd d 3
    else if !s.engOn d then s
    else match (if inSysMem a then s.dmaRead a 4096 else (2, 0)) with
      | (0, v) =>
        let s := s.dmaSeen (engAgt d) a 4096
        let bs := bytesOf v 4096
        let w := (List.range 511).map (fun i => v / 2 ^ (64 * i) % 2 ^ 64)
        let args : List Word := [s.mbxArg d 1, s.mbxArg d 2, s.mbxArg d 3] ++ (spanN 4 4).map (fun i => BitVec.ofNat 64 (w.getD i 0))
        if numOf (bs.drop 4092) ≠ crc32c 0 (bs.take 4092) ∨ w.getD 0 0 % 2 ^ 8 ≠ 1 ∨ w.getD 0 0 / 2 ^ 8 % 2 ^ 8 ≠ 1 then s.mbxEnd d 5
        else if !argsOk args then s.mbxEnd d 3
        else match s.instStg d n (args.getD 6 0) with
          | none => s.mbxEnd d 4
          | some s1 =>
            let ix := w.getD 8 0
            let hs := w.getD 9 0
            let sh := w.getD 10 0
            let b := dbA d n
            let s2 := s1.setInst d n { Inst.reset with
              args := args.map (fun x => x.toNat), susp := imageJobs (w.drop 31) n (w.getD 0 0 / 2 ^ 16 % 8),
              held := (List.range (sh / 2 ^ 8 % 8)).map (fun i => (List.range 5).map (fun k => BitVec.ofNat 64 (w.getD (11 + 5 * i + k) 0))) }
            let s3 := (((s2.wrCsr b (BitVec.ofNat 64 (ix / 2 ^ 16 % 2 ^ 16))).wrCsr (b + 8) (BitVec.ofNat 64 (ix / 2 ^ 48))).wrCsr
              (b + 0x10) (BitVec.ofNat 64 (hs % 2 ^ 16))).wrCsr (b + 0x20) (BitVec.ofNat 64 (hs % 2 ^ 16))
            let s4 := s3.wrCsr (b + 0x18) (BitVec.ofNat 64 (4 + ix % 2 ^ 16 * 2 ^ 5 + hs / 2 ^ 32 % 2 * 2 ^ 21 +
              ix / 2 ^ 32 % 2 ^ 16 * 2 ^ 22 + hs / 2 ^ 33 % 2 * 2 ^ 38))
            (s4.wrCsr (shareA d n) (BitVec.ofNat 64 (sh % 2 ^ 8 * 2 ^ 8))).mbxEnd d 0
      | _ => s.mbxEnd d 6))

/-- MBX_QUERY: the words of Table 12.9 of an instance. -/
def execMbxQuery (d : IoDie) (n : InstId) (s : State) : Out :=
  .next (s.mbx d n 9 (fun _ => true) (fun s =>
    ((List.range 7).foldl (fun (s : State) i => s.wrCsr (mbxA d + 8 + 8 * i) ((s.inst d n).arg i)) s).mbxEnd d 0))

/-! ## MSI-X registers -/

/-- A write of the MSI-X table: a vector that is pending and no longer masked is sent. -/
def State.msixWrite (s : State) (a : CsrReq) : Nat × State :=
  s.csrWrite a (fun _ => none) (fun w s => s.msixRetry ((w.block - 544) / 16) [w.ix.headD 0 / 2])

/-! ## Master enable and function reset (R328 to R330, Table 11.10) -/

/-- The function stops issuing requests: every job in flight ends with BUS_MASTER_OFF, its record held (R328, R329). -/
def State.engStop (s : State) (d : Nat) : State :=
  (List.range 256).foldl (fun (s : State) n => if s.instSt d n = 0 ∨ s.instSt d n = 5 then s else s.killJobs d n 0x0C) s

/-- Held records and interrupts are written when the function may issue requests again (R329). -/
def State.engGo (s : State) (d : Nat) : State :=
  if s.engOn d then
    let s1 := (List.range 256).foldl (fun (s : State) n =>
      if s.instSt d n = 1 ∨ s.instSt d n = 2 then (s.flushRecs d n).drainEnd d n else s) s
    s1.msixRetry d (List.range 2048)
  else s

/-- BUS_MASTER_ENABLE_CLEAR: Bus Master Enable of an engine's function is cleared. -/
def State.bmeClear (s : State) (d : Nat) : State :=
  if (s.cfgw (64 + d) 0x68).getLsbD 21 then s
  else if s.engOn d then (s.cfgClear (64 + d) 0x04 4).engStop d else s.cfgClear (64 + d) 0x04 4
/-- Bus Master Enable of an engine's function is set. -/
def State.bmeSet (s : State) (d : Nat) : State :=
  if (s.cfgw (64 + d) 0x68).getLsbD 21 then s else (s.cfgOr (64 + d) 0x04 4).engGo d

/-- BUS_MASTER_ENABLE_CLEAR: issue stops, and jobs end with BUS_MASTER_OFF. -/
def execBusMasterEnableClear (d : IoDie) (s : State) : Out := .next (s.bmeClear d)
/-- BUS_MASTER_ENABLE_SET: held records are written, then new requests start. -/
def execBusMasterEnableSet (d : IoDie) (s : State) : Out := .next (s.bmeSet d)

/-- A function reset starts: every instance ends, its records are discarded, its granules released, the registers of the
function's configuration return to their reset values but for the sticky ones of AER and Max_Payload_Size, and
Transactions Pending reads 1 (R328 to R330). -/
def State.flrStart (s : State) (d : Nat) : State :=
  let fn := 64 + d
  if (s.cfgw fn 0x68).getLsbD 21 then s
  else
    let mps := s.cfgw fn 0x68 &&& 0xE0
    let keep (k : Nat) : Bool := decide (k / 4096 ≠ fn) || decide (0x104 ≤ k % 4096 ∧ k % 4096 < 0x120)
    let off := (s.cfgClear fn 0x04 4).engStop d
    let s1 := (List.range 256).foldl (fun (s : State) n =>
      if s.instSt d n = 0 then s
      else ((s.modInst d n (fun x => { x with ready := [], susp := [], held := [] })).setInstSt d n 5).setLast d n 0x0C) off
    let s2 := (List.range 512).foldl (fun (s : State) g =>
      if 1 ≤ s.stgOwner d g ∧ s.stgOwner d g ≤ 256 then s.putFld (stgOwnA d g) 9 0 0 else s) s1
    let s3 : State := { s2 with cfg := s2.cfg.filter (fun e => keep e.1) }
    let s4 := s3.setCfg fn 0x68 ((cfgRst fn 0x68 &&& ~~~ 0xE0) ||| mps ||| 0x200000)
    (s4.setEng d { s4.eng d with resetAt := s.ctime.toNat, devCtl := none }).putFlag (mbxA d) 16 false

/-- INITIATE_FUNCTION_LEVEL_RESET: a function reset; no effect during one (Table 11.10). -/
def execInitiateFunctionLevelReset (d : IoDie) (s : State) : Out := .next (s.flrStart d)

/-- PowerState of an engine's function written: D3hot acts on jobs as a clear of Bus Master Enable; a return to D0 starts a
function reset (R328). -/
def State.powerState (s : State) (d v : Nat) : State :=
  let fn := 64 + d
  let old := (s.cfgw fn 0x44).toNat % 4
  if (s.cfgw fn 0x68).getLsbD 21 then s
  else if old = 0 ∧ v = 3 then (if s.engOn d then (s.cfgOr fn 0x44 3).engStop d else s.cfgOr fn 0x44 3)
  else if old = 3 ∧ v = 0 then s.flrStart d
  else s

/-- D3HOT_ENTRY: PowerState changes from D0 to D3hot. -/
def execD3hotEntry (d : IoDie) (s : State) : Out := .next (s.powerState d 3)
/-- D3HOT_TO_D0: PowerState changes from D3hot to D0, which starts a function reset. -/
def execD3hotToD0 (d : IoDie) (s : State) : Out := .next (s.powerState d 0)

/-- FUNCTION_RESET_SQUASH: 900 µs after the start of a reset every transfer outstanding enters the stale map (R330). -/
def execFunctionResetSquash (d : IoDie) (s : State) : Out :=
  .next (
    if (s.cfgw (64 + d) 0x68).getLsbD 21 && decide ((s.eng d).resetAt + 900000 ≤ s.ctime.toNat) then s.outToStale (engAgt d) else s)

/-- FUNCTION_RESET_DONE: a reset completes once every transfer is drained or squashed; a write of Device Control that came
during it is applied (R330, Table 11.10). -/
def execFunctionResetDone (d : IoDie) (s : State) : Out :=
  .next (
    let fn := 64 + d.val
    if !(s.cfgw fn 0x68).getLsbD 21 || decide (agtCount s.outst (engAgt d) ≠ 0) then s
    else
      let s1 := s.cfgClear fn 0x68 0x200000
      match (s.eng d).devCtl with
      | none => s1
      | some v => (s1.setCfg fn 0x68 ((s1.cfgw fn 0x68 &&& ~~~ 0x7FFF) ||| (v &&& 0x7FFF))).setEng d { s.eng d with devCtl := none })

/-! ## Peer windows (R331 to R333) -/

/-- Owner code of a window's staging claim (R367). -/
def winOwner (p w : Nat) : Nat := 0x200 + 8 * (p % 32) + w

/-- The mapping that the staged words and word 0 give. -/
def State.winOf (s : State) (a : Nat) (v : Word) : Win :=
  { staging := bitB v 1, readEn := bitB v 2, tgt := bitsN v 8 3, base := s.fld (a + 8) 51 12 * 4096,
    limit := s.fld (a + 16) 51 12 * 4096 + 0xFFF, sram := s.fld (a + 24) 24 12 * 4096 }

/-- Granules of a staging mapping: the first and how many. -/
def Win.granules (x : Win) : Nat × Nat :=
  (x.sram / 65536, (x.sram + (x.limit - x.base)) / 65536 - x.sram / 65536 + 1)

/-- Whether a mapping is refused for its range (R332). -/
def State.winBad (s : State) (p w : Nat) (x : Win) : Bool :=
  decide (x.limit < x.base) || decide (x.base < 0x2000000000000) || decide (0x2400000000000 ≤ x.limit) ||
    (s.port p).wins.any (fun e => decide (e.1 ≠ w) && e.2.any (fun y => decide (x.base ≤ y.limit) && decide (y.base ≤ x.limit))) ||
    (if x.staging then decide (32 * 2 ^ 20 < x.sram + (x.limit - x.base) + 1)
     else decide (x.base < 0x2000000000000 + x.tgt * 0x10000000000) || decide (0x2000000000000 + (x.tgt + 1) * 0x10000000000 ≤ x.limit) ||
       decide (s.portMode x.tgt ≠ 2) || decide (x.tgt = p)) ||
    s.ports.any (fun e => e.2.out.any (fun r => decide (r.carry = some (p, w, true))))

/-- A write of word 0 of a peer window: the staged words and it apply together; a staging claim that loses changes
CONFLICT alone (R331 to R333). -/
def State.pwinWrite (s : State) (a : CsrReq) : Nat × State :=
  let own (w : CsrW) : Option Nat :=
    let p := 32 * ((w.block - 544) / 16) + 4 * ((w.block - 544) % 16) + w.ix.headD 0
    let x := s.winOf w.pa w.val
    if !bitB w.val 0 then none
    else if s.winBad p (w.ix.getD 1 0) x then some 1
    else if x.staging && !s.stgFree (p / 32) (winOwner p (w.ix.getD 1 0)) x.granules.1 x.granules.2 then some 3
    else none
  let r := s.csrWrite a own (fun w s =>
    let p := 32 * ((w.block - 544) / 16) + 4 * ((w.block - 544) % 16) + w.ix.headD 0
    let i := w.ix.getD 1 0
    let x := s.winOf w.pa w.new
    let old (r : LinkReq) : LinkReq := if r.carry = some (p, i, false) then { r with carry := some (p, i, true) } else r
    let s1 : State := { s with ports := s.ports.map (fun e => (e.1, { e.2 with out := e.2.out.map old })) }
    let s2 := s1.stgRelease (p / 32) (winOwner p i)
    let on := bitB w.new 0
    let s3 := if on && x.staging then (s2.stgClaim (p / 32) (winOwner p i) x.granules.1 x.granules.2).putFlag w.pa 9 false else s2
    s3.modPort p (fun y => { y with wins := Map.set none y.wins i (if on then some x else none) }))
  match s.csrForm a with
  | some w => if s.csrAccepts a.pa true a.req && decide (own w = some 3) && decide (r.1 = 0) then (r.1, r.2.putFlag w.pa 9 true) else r
  | none => r

/-- PEER_WINDOW_WRITE: a write of word 0 of a window. -/
def execPeerWindowWrite (p : PortId) (w : Fin 8) (value : Word) (q : Requester) (s : State) : Out :=
  .next (s.pwinWrite (wr8 (portBase p + 0x20000 + 0x200 * (p.val % 4) + 0x20 * w.val) value q)).2

end Sys2Proof.Machine
end

