-- ==== Sys2Proof/Machine/DseBase.lean ====
section
/-! DEFINITION. What the service engine keeps (15_service_engine_and_trust.md): the flash (R412), firmware and settings
images (R414 to R417), identity (R419), the key store (R420, R421), the audit ledger (R427, R428), and how a command is
taken, checked and ended (R422 to R425). -/

namespace Sys2Proof.Machine
open Sys2Proof

/-! ## Flash and bytes -/

/-- n bytes of the flash from an address; an erased byte reads 0xFF. -/
def State.fl (s : State) (a : Nat) : Nat → List Byte
  | 0 => []
  | n + 1 => Map.get 0xFF s.flash a :: State.fl s (a + 1) n
/-- Bytes programmed into the flash after an erase. -/
def State.flPut (s : State) (a : Nat) (bs : List Byte) : State :=
  { s with flash := bs.zipIdx.foldl (fun m x => Map.set 0xFF m (a + x.2) x.1) s.flash }
/-- A range of the flash erased. -/
def State.flErase (s : State) (a n : Nat) : State :=
  { s with flash := s.flash.filter (fun e => decide (e.1 < a) || decide (a + n ≤ e.1)) }

/-- n bytes of a list from an offset, as a number. -/
def at' (l : List Byte) (o n : Nat) : Nat := numOf ((l.drop o).take n)

/-- A list cut or padded with zeros to n bytes. -/
def pad (l : List Byte) (n : Nat) : List Byte := (l ++ List.replicate n 0).take n

/-- The DSE's record changed. -/
def State.modDse (s : State) (f : Dse → Dse) : State := { s with dse := f s.dse }
/-- DSE_STATUS.STAGE: 14 RECOVERY, 15 HALTED. -/
def State.stage (s : State) : Nat := s.fld dseBase 3 0

/-- HMAC-SHA-512. -/
def hmac (key msg : List Byte) : List Byte :=
  let k := pad key 128
  Config.sha512 (k.map (fun b => b ^^^ 0x5C) ++ Config.sha512 (k.map (fun b => b ^^^ 0x36) ++ msg))

/-! ## Keys (R419 to R421)

The layout inside the certificate area and inside a key store copy is the model's (log entry 29): the
maker key at 0, the identity certificate at 0x20; in a copy, the entries of the installer and of operators 0 to 7 in order,
VERSION and the HMAC. -/

/-- The maker public key of the certificate area. -/
def State.makerKey (s : State) : List Byte := s.fl 0 32
/-- Whether it hashes to the fuse. -/
def State.makerOk (s : State) : Bool := Config.sha512 s.makerKey == s.fuses.makerHash
/-- The identity certificate. -/
def State.idCert (s : State) : List Byte := s.fl 0x20 192

/-- Address of key store copy i. -/
def ksA (i : Nat) : Nat := 0x20000 + 0x10000 * i
/-- A copy is valid when its HMAC verifies and its VERSION is the burned count (R420). -/
def State.ksOk (s : State) (i : Nat) : Bool :=
  decide (at' (s.fl (ksA i) 368) 360 8 = s.fuses.ksver) && s.fl (ksA i + 368) 64 == pad (hmac s.dse.kstore (s.fl (ksA i) 368)) 64
/-- The valid copy. -/
def State.ksValid (s : State) : Option Nat := if s.ksOk 0 then some 0 else if s.ksOk 1 then some 1 else none
/-- The nine entries and VERSION of the valid copy; without one, every entry is empty. -/
def State.ksBytes (s : State) : List Byte :=
  match s.ksValid with
  | some i => s.fl (ksA i) 368
  | none => (List.range 9).flatMap (fun i => bytesOf ((if i = 0 then 1 else 2) + (if i = 0 then 0 else i - 1) * 2 ^ 8) 8 ++ List.replicate 32 0) ++
      bytesOf s.fuses.ksver 8
/-- The number of the entry of a role (1 installer, 2 operator) and index. -/
def ksEntry (role ix : Nat) : Nat := if role = 1 then 0 else ix + 1
/-- State of an entry: 0 empty, 1 enrolled, 2 revoked; and its key. -/
def State.ksState (s : State) (role ix : Nat) : Nat := at' s.ksBytes (40 * ksEntry role ix + 2) 1
def State.ksKey (s : State) (role ix : Nat) : List Byte := (s.ksBytes.drop (40 * ksEntry role ix + 8)).take 32
/-- Whether an installer key is enrolled. -/
def State.installer (s : State) : Bool := decide (s.ksState 1 0 = 1)

/-- A new store with an entry changed, under the next VERSION, in the copy that is not valid; then one fuse (R421). -/
def State.ksChange (s : State) (role ix st : Nat) (key : List Byte) : State :=
  let e := 40 * ksEntry role ix
  let old := s.ksBytes
  let body := old.take e ++ [BitVec.ofNat 8 role, BitVec.ofNat 8 ix, BitVec.ofNat 8 st] ++ List.replicate 5 0 ++ pad key 32 ++
    (old.drop (e + 40)).take (320 - e) ++ bytesOf (s.fuses.ksver + 1) 8
  let copy := match s.ksValid with
    | some 0 => 1
    | _ => 0
  let s1 := (s.flErase (ksA copy) 0x10000).flPut (ksA copy) (body ++ pad (hmac s.dse.kstore body) 64)
  { s1 with fuses := { s1.fuses with ksver := s1.fuses.ksver + 1 } }

/-- The public key that checks a role's signature, where it is enrolled (R420). -/
def State.roleKey (s : State) (role ix : Nat) : Option (List Byte) :=
  if role = 0 then (if s.makerOk then some s.makerKey else none)
  else if role = 1 ∧ ix = 0 ∧ s.ksState 1 0 = 1 then some (s.ksKey 1 0)
  else if role = 2 ∧ ix < 8 ∧ s.ksState 2 ix = 1 then some (s.ksKey 2 ix)
  else none

/-! ## Firmware images (R414) -/

/-- Address of firmware slot i. -/
def fwA (i : Nat) : Nat := 0x100000 + 0x200000 * i
/-- M_FW: the digest of a header up to SIG and of the body. -/
def fwDigest (img : List Byte) : List Byte := Config.sha512 (img.take 0xC0 ++ (img.drop 256).take (at' img 0x0C 4))
/-- Whether an image is valid. -/
def State.fwOk (s : State) (img : List Byte) : Bool :=
  let len := at' img 0x0C 4
  decide (at' img 0 4 = 0x5A4E4657) && decide (at' img 4 2 = 1) && decide (len ≤ 0x200000 - 256) && decide (at' img 0x14 4 = 4096) &&
    decide (at' img 0x10 4 + 4096 ≤ len) && decide (at' img 6 1 ≤ 64) && s.makerOk && decide (s.fuses.svn ≤ at' img 6 1) &&
    Config.ed25519 s.makerKey (fwDigest img) ((img.drop 0xC0).take 64)
/-- A slot's image. -/
def State.fwSlot (s : State) (i : Nat) : List Byte := s.fl (fwA i) 0x200000
/-- The slot that is tried first: the higher SVN, then the higher GEN. -/
def State.fwFirst (s : State) : Nat :=
  let h (i : Nat) : List Byte := s.fl (fwA i) 16
  if at' (h 0) 6 1 < at' (h 1) 6 1 ∨ (at' (h 0) 6 1 = at' (h 1) 6 1 ∧ at' (h 0) 8 4 < at' (h 1) 8 4) then 1 else 0
/-- The slot that start-up runs. -/
def State.fwChoose (s : State) : Option Nat :=
  let a := s.fwFirst
  if s.fwOk (s.fwSlot a) then some a else if s.fwOk (s.fwSlot (1 - a)) then some (1 - a) else none
/-- The boot section of the running image. -/
def State.bootSection (s : State) : List Byte :=
  let a := fwA (s.fld dseBase 13 13)
  s.fl (a + 256 + at' (s.fl (a + 0x10) 4) 0 4) 4096

/-! ## Settings images (R415 to R417) -/

/-- A settings record: its offset, ID and value. -/
structure SetRec where
  off : Nat
  id : Nat
  val : List Byte

/-- The records of an image from an offset, len bytes left; each is padded as a whole to a multiple of 8 bytes. -/
def setRecs (img : List Byte) (off : Nat) : Nat → Nat → List SetRec
  | 0, _ => []
  | fuel + 1, len =>
    if len < 4 then (if len = 0 then [] else [{ off := off, id := 0xFFFF, val := [] }])
    else
      let l := at' img (off + 2) 2
      let size := (4 + l + 7) / 8 * 8
      { off := off, id := at' img off 2, val := (img.drop (off + 4)).take l } ::
        (if len < size then [{ off := off, id := 0xFFFF, val := [] }] else setRecs img (off + size) fuel (len - size))

/-- LEN of a record of an ID (Table 15.3). -/
def setLen (id : Nat) : Option Nat :=
  if id = 1 ∨ id = 3 ∨ id = 4 ∨ id = 5 then some 1 else if id = 2 then some 2 else if id = 0x10 then some 4 else if id = 0x20 then some 16 else none

/-- Whether a record's value is in range (Table 15.3); PROFILE's check against the fuse is R2's. -/
def SetRec.ok (r : SetRec) : Bool :=
  let v := numOf r.val
  let b (i : Nat) : Nat := at' r.val i 1
  setLen r.id == some r.val.length &&
    (if r.id = 1 then decide (v ≤ 3)
     else if r.id = 2 then decide (8 ≤ v) && decide (v ≤ 512) && decide (v % 8 = 0)
     else if r.id = 3 then decide (8 ≤ v) && decide (v ≤ 0x77)
     else if r.id = 4 then decide (v ≤ 3)
     else if r.id = 5 then decide (v ≤ 1)
     else if r.id = 0x10 then decide (b 0 < 64) && decide (b 1 ≤ 2) && decide (1 ≤ b 2) && decide (b 2 ≤ 6) && decide (b 3 < 8) &&
       (decide (b 1 ≠ 1) || (decide (5 ≤ b 2) && decide (b 3 % 4 < 2)))
     else decide (at' r.val 0 8 % 8 = 0) && (regAt (at' r.val 0 8)).isSome)

/-- The records of an image. -/
def imgRecs (img : List Byte) : List SetRec := setRecs img 0x40 (at' img 0x0C 4) (at' img 0x0C 4)

/-- The first record of an image that fails R416, with its offset: a bad one, a single-instance ID twice, a port twice. -/
def recFail (rs : List SetRec) : List SetRec → Option Nat
  | [] => none
  | r :: l =>
    let dup := rs.any (fun x => decide (x.id = r.id) && decide (r.id ≠ 0x20) && (decide (r.id ≠ 0x10) || decide (at' x.val 0 1 = at' r.val 0 1)))
    if !r.ok || dup then some r.off else recFail (rs ++ [r]) l

/-- M_SETTINGS. -/
def setDigest (img : List Byte) : List Byte := Config.sha512 (img.take (0x40 + at' img 0x0C 4))
/-- The offset at which an image fails, or none where it is valid (R415, R416): one whose SERIAL names another device fails
there however it is signed. -/
def State.setFail (s : State) (img : List Byte) : Option Nat :=
  let len := at' img 0x0C 4
  let role := at' img 6 1
  let key := if role = 1 then (if s.installer then some (s.ksKey 1 0) else none)
    else if role = 0 ∧ s.installer = false ∧ s.makerOk = true then some s.makerKey else none
  if at' img 0 4 ≠ 0x5A4E5354 ∨ at' img 4 2 ≠ 1 ∨ 262016 < len then some 0
  else if at' img 0x10 8 ≠ 0 ∧ at' img 0x10 8 ≠ s.fuses.serial then some 0x10
  else match key with
    | none => some 6
    | some k =>
      if !Config.ed25519 k (setDigest img) ((img.drop (0x40 + len)).take 64) then some (0x40 + len)
      else recFail [] (imgRecs img)
/-- Settings image i. -/
def setA (i : Nat) : Nat := 0x500000 + 0x40000 * i
def State.setImg (s : State) (i : Nat) : List Byte := s.fl (setA i) 0x40000
/-- The valid image with the higher SEQ. -/
def State.setChoose (s : State) : Option Nat :=
  let ok (i : Nat) : Bool := (s.setFail (s.setImg i)).isNone
  let seq (i : Nat) : Nat := at' (s.setImg i) 8 4
  if ok 0 && ok 1 then some (if seq 0 < seq 1 then 1 else 0) else if ok 0 then some 0 else if ok 1 then some 1 else none
/-- The value of a single-instance record, or its default. -/
def recVal (rs : List SetRec) (id dflt : Nat) : Nat :=
  match rs.find? (fun r => decide (r.id = id)) with
  | some r => numOf r.val
  | none => dflt

/-! ## Audit ledger (R427, R428) -/

/-- Address of the record of a SEQ. -/
def ledA (seq : Nat) : Nat := 0x1000000 + 256 * ((seq - 1) % 65536)
/-- The record of a SEQ, or none where the flash does not hold it. -/
def State.ledRec (s : State) (seq : Nat) : Option (List Byte) :=
  let r := s.fl (ledA seq) 256
  if seq ≠ 0 ∧ at' r 0 8 = seq then some r else none
/-- SEQ of the head. -/
def State.ledSeq (s : State) : Nat := (s.rdCsr (dseBase + 0x300)).toNat
/-- The head registers show a record. -/
def State.ledHead (s : State) (seq : Nat) (r : List Byte) : State :=
  let h := pad (Config.sha512 r) 64
  (List.range 8).foldl (fun (s : State) i => s.wrCsr (dseBase + 0x308 + 8 * i) (BitVec.ofNat 64 (at' h (8 * i) 8)))
    (s.wrCsr (dseBase + 0x300) (BitVec.ofNat 64 seq))
/-- A record (Table 15.8) of a queue entry: type, ctime, ACTOR, KEYIDX and the words of DATA. -/
def State.ledBytes (s : State) (seq : Nat) (e : List Nat) : List Byte :=
  let prev := if seq ≤ 1 then List.replicate 64 0 else pad (Config.sha512 (s.fl (ledA (seq - 1)) 256)) 64
  let l := bytesOf seq 8 ++ bytesOf (e.getD 1 0) 8 ++ bytesOf s.dse.boots 4 ++ bytesOf (e.headD 0) 2 ++ bytesOf (e.getD 2 0) 1 ++
    bytesOf (e.getD 3 0) 1 ++ pad ((e.drop 4).flatMap (fun w => bytesOf w 8)) 104 ++ prev
  l ++ pad (Config.ed25519Sign s.dse.aliasKey l) 64
/-- A record programmed as the new head. -/
def State.ledPut (s : State) (e : List Nat) : State :=
  let seq := s.ledSeq + 1
  let r := s.ledBytes seq e
  (s.flPut (ledA seq) r).ledHead seq r
/-- A record programmed; a full ledger first erases its oldest sector and writes WRAP. -/
def State.ledProgram (s : State) (e : List Nat) : State :=
  let seq := s.ledSeq + 1
  if 65536 < seq ∧ s.fl (ledA seq) 8 ≠ List.replicate 8 (0xFF : Byte) then
    let a := ledA seq / 65536 * 65536
    (((s.flErase a 65536).ledPut [0x33, s.ctime.toNat, 3, 0, seq - 65536 + 256])).ledPut e
  else s.ledPut e

/-- The lands taken by the DSE: trace export loses them with CONFLICT (R413); after stage 9 they are free again. -/
def State.spiTake (s : State) : State :=
  let a := dseBase + 0x200
  let s1 := if s.fld a 1 0 = 2 then s.putFlag a 4 true else s
  s1.putFld a 1 0 (if s.stage = 9 then 0 else 1)

/-- LEDGER_PROGRAM: the oldest queued record is programmed; EVENTS_LOST joins the queue once there is space. -/
def execLedgerProgram (s : State) : Out :=
  .next (match s.ledgQ with
    | [] => s
    | e :: l =>
      let s1 := ({ s with ledgQ := l }).spiTake.ledProgram e
      if s1.dse.lost = [] then s1
      else (s1.modDse (fun x => { x with lost := [] })).ledger 0x32 (s1.dse.lost.map (fun x => x.1 + x.2 * 2 ^ 16)))

/-! ## Commands (R422 to R425) -/

/-- Addresses of DSE_CMD_CTL and of the buffers. -/
def cmdA : Nat := dseBase + 0x100
/-- The bytes of a transport's buffer. -/
def State.cmdBytes (s : State) (via : Nat) : List Byte :=
  if via = 0 then
    ((List.range 512).flatMap (fun i => bytesOf (s.rdCsr (dseBase + 0x1000 + 8 * i)).toNat 8)).take (s.fld cmdA 14 2)
  else if via = 1 then (if s.stage = 14 then s.dse.smIn else s.dse.smIn.take s.dse.smLen)
  else s.dse.uartIn
def cmdOp (b : List Byte) : Nat := at' b 3 1
def cmdRole (b : List Byte) : Nat := at' b 4 1
def cmdKey (b : List Byte) : Nat := at' b 5 1
def cmdLen (b : List Byte) : Nat := at' b 6 2
def cmdPay (b : List Byte) : List Byte := (b.drop 0x20).take (cmdLen b)
/-- ACTOR of a command (Table 15.8). -/
def cmdActor (via : Nat) (b : List Byte) : Nat := if cmdRole b = 0xFF then (if via = 0 then 4 else 5) else cmdRole b

/-- A transport's response. -/
def State.dseRespond (s : State) (via : Nat) (r : List Byte) : State :=
  if via = 0 then
    (List.range 512).foldl (fun (s : State) i => s.wrCsr (dseBase + 0x2000 + 8 * i) (BitVec.ofNat 64 (at' r (8 * i) 8))) s
  else s.modDse (fun x => { x with smOut := r })

/-- The head of the queue ends with a status: GO returns to 0, with the interrupt that DSE_CMD_CTL names (R423). -/
def State.cmdEnd (s : State) (via status : Nat) : State :=
  let s1 := s.modDse (fun x => { x with cmdQ := x.cmdQ.tail })
  if via = 0 then
    let s2 := (s1.putFld cmdA 22 15 status).putFlag cmdA 0 false
    if s.flag cmdA 23 then s2.sendMsi (s.fld cmdA 33 24) (s.fld cmdA 42 34) s.dseA.router 0 else s2
  else s1.modDse (fun x => { x with smStatus := status, smIn := if via = 1 then [] else x.smIn, uartIn := if via = 2 then [] else x.uartIn })

/-- Length and RSV bytes of an OP's payload (Table 15.6). -/
def payOk (op : Nat) (p : List Byte) : Bool :=
  let z (l : List Byte) : Bool := l.all (fun b => decide (b = 0))
  if op = 1 then decide (p.length = 40) && z ((p.drop 2).take 6) && decide (1 ≤ at' p 0 1 ∧ at' p 0 1 ≤ 2) &&
    (if at' p 0 1 = 1 then decide (at' p 1 1 = 0) else decide (at' p 1 1 < 8))
  else if op = 2 then decide (p.length = 8) && z (p.drop 2) && decide (1 ≤ at' p 0 1 ∧ at' p 0 1 ≤ 2) &&
    (if at' p 0 1 = 1 then decide (at' p 1 1 = 0) else decide (at' p 1 1 < 8))
  else if op = 3 ∨ op = 4 then decide (p.length = 16)
  else if op = 5 ∨ op = 0x0C ∨ op = 0x0E then decide (p.length = 0)
  else if op = 6 ∨ op = 7 then decide (p.length = 8) && z (p.drop 1) && decide (at' p 0 1 < 64)
  else if op = 8 then decide (p.length = 8) && z (p.drop 2) && decide (at' p 0 2 < 1024)
  else if op = 9 then decide (p.length = 32)
  else if op = 0x0A then decide (8 ≤ p.length) && decide ((p.length - 8) % 16 = 0) && decide (p.length ≤ 520) &&
    (List.range ((p.length - 8) / 16)).all (fun i => decide (at' p (8 + 16 * i) 1 ≤ 5) && z ((p.drop (9 + 16 * i)).take 3))
  else if op = 0x0B then decide (p.length = 16) && decide (1 ≤ at' p 8 8 ∧ at' p 8 8 ≤ 15)
  else if op = 0x0D then decide (p.length = 8) && z (p.drop 1) && decide (at' p 0 1 ≤ 2)
  else false

/-- Whether a role, by a transport, may give an OP (Table 15.6, R410, R425). -/
def State.permitted (s : State) (via : Nat) (b : List Byte) : Bool :=
  let op := cmdOp b
  let role := cmdRole b
  let uns := decide (role = 0xFF)
  let p := uns && decide (via = 0)
  let sm := uns && decide (via ≠ 0)
  let m := decide (role = 0)
  let i := decide (role = 1)
  let o := decide (role = 2)
  let tgt := at' (cmdPay b) 0 1
  if s.stage = 14 ∧ (via = 0 ∨ (op ≠ 3 ∧ op ≠ 0x0C)) then false
  else if s.fuses.lifecycle = 2 ∧ uns = false ∧ op ≠ 0x0B then false
  else if op = 1 ∨ op = 2 then (if tgt = 1 then m else i)
  else if op = 3 then m || i
  else if op = 4 then i || (m && !s.installer)
  else if op = 5 ∨ op = 6 ∨ op = 7 ∨ op = 8 ∨ op = 0x0A then i || o || p
  else if op = 9 ∨ op = 0x0B ∨ op = 0x0C then m || i || o || p || sm
  else if op = 0x0D then (if tgt = 1 then m else if tgt = 2 then i else false)
  else if op = 0x0E then m
  else false

/-- The nonce of a transport; the UART uses the SMBus framing and its nonce. -/
def nonceOf (via : Nat) : Nat := if via = 0 then 0 else 1
/-- Whether a command carries its transport's valid nonce. -/
def State.nonceOk (s : State) (via : Nat) (b : List Byte) : Bool :=
  match Map.get none s.dse.nonces (nonceOf via) with
  | some n => decide (at' b 0x10 8 = n.count) && decide (at' b 0x18 8 = n.rnd.toNat) && decide (s.ctime.toNat < n.ends)
  | none => false

/-- The checks of Table 15.5 up to the signature, in order: the status of the first that fails, or 0. -/
def State.cmdCheck (s : State) (via : Nat) (b : List Byte) : Nat :=
  let signed := decide (cmdRole b ≠ 0xFF)
  let total := 0x20 + cmdLen b + (if signed then 64 else 0)
  let op := cmdOp b
  let known := decide (1 ≤ op ∧ op ≤ 0x0E)
  if at' b 0 2 ≠ 0x5A43 ∨ at' b 2 1 ≠ 1 ∨ 4000 < cmdLen b ∨ b.length < total ∨ (s.stage ≠ 14 ∧ b.length ≠ total) then 1
  else if known && !payOk op (cmdPay b) then 1
  else if !known || !s.permitted via b then 2
  else if !signed then 0
  else if at' b 8 8 ≠ s.fuses.serial then 3
  else match s.roleKey (cmdRole b) (cmdKey b) with
    | none => 4
    | some k =>
      if !s.nonceOk via b then 5
      else if !Config.ed25519 k (b.take (0x20 + cmdLen b)) ((b.drop (0x20 + cmdLen b)).take 64) then 6
      else 0

/-- A refused command: its status, and its CMD_REFUSED record when it was signed (R424). -/
def State.cmdRefuse (s : State) (via : Nat) (b : List Byte) (status : Nat) : State :=
  (if cmdRole b = 0xFF then s
   else s.ledgerBy 0x11 (cmdActor via b) (cmdKey b) [cmdOp b + status * 2 ^ 8, at' b 0x10 8, at' b 0x18 8]).cmdEnd via status

/-- A signed command spends its transport's nonce (R423). -/
def State.spend (s : State) (via : Nat) (b : List Byte) : State :=
  if cmdRole b = 0xFF then s
  else s.modDse (fun x => { x with nonces := Map.set none x.nonces (nonceOf via) none })

/-- The CMD record of an accepted signed command, programmed before it acts (R428). -/
def State.cmdRecord (s : State) (via : Nat) (b : List Byte) : State :=
  if cmdRole b = 0xFF then s
  else s.spiTake.ledProgram ([0x10, s.ctime.toNat, cmdActor via b, cmdKey b, cmdOp b, at' b 0x10 8, at' b 0x18 8] ++
    (List.range 8).map (fun i => at' (pad (Config.sha512 b) 64) (8 * i) 8))

/-- Commands at the head of the queue whose OP is not listed end at once. -/
def State.cmdSkip (s : State) : Nat → State
  | 0 => s
  | n + 1 =>
    match s.dse.cmdQ with
    | [] => s
    | via :: _ =>
      let b := s.cmdBytes via
      if 1 ≤ cmdOp b ∧ cmdOp b ≤ 0x0E then s
      else ((s.spend via b).cmdRefuse via b (s.cmdCheck via b)).cmdSkip n

/-- A command of an OP runs, when it is at the head of the queue: its checks, then `state` and `image` (the checks of the
device state and of the image and memory that it names: a status, or 0), then its record and its action, which answers a
status. The action runs last, so that it may reset the package. -/
def State.command (s : State) (m : DseMsg) (op : Nat) (check : List Byte → Nat) (act : List Byte → State → Nat × State) : State :=
  let via := m.via.val
  let b := s.cmdBytes via
  if s.dse.cmdQ.head? ≠ some via ∨ cmdOp b ≠ op then s
  else
    let s1 := s.spend via b
    let c := s.cmdCheck via b
    let c2 := if c ≠ 0 then c else check b
    if c2 ≠ 0 then (s1.cmdRefuse via b c2).cmdSkip 3
    else
      let r := act b (s1.cmdRecord via b)
      (r.2.cmdEnd via r.1).cmdSkip 3

/-- A GO of a transport joins the queue. -/
def State.cmdGo (s : State) (via : Nat) : State :=
  State.cmdSkip (s.modDse (fun x => { x with cmdQ := x.cmdQ ++ [via] })) 3

/-! ## Nonces and DSE_CMD_CTL (R423, Table 15.11) -/

/-- A new nonce for a transport, valid for 60 s. -/
def State.newNonce (s : State) (t : Nat) : State :=
  let n : Nonce := { count := s.dse.nonceN + 1, rnd := Config.freeWord s.free, ends := s.ctime.toNat + 60000000000 }
  let s1 := s.bump.modDse (fun x => { x with nonceN := x.nonceN + 1, nonces := Map.set none x.nonces t (some n) })
  if t = 0 then (s1.wrCsr (dseBase + 0x108) (BitVec.ofNat 64 n.count)).wrCsr (dseBase + 0x110) n.rnd else s1

/-- A write of DSE_CMD_CTL: GO is refused while GO = 1. -/
def State.dseCtlWrite (s : State) (a : CsrReq) : Nat × State :=
  s.csrWrite a (fun w => if bitB w.val 0 && bitB w.old 0 then some 1 else none)
    (fun w s =>
      let s1 := if bitB w.val 1 then s.newNonce 0 else s
      if bitB w.val 0 then (s1.putFlag cmdA 0 true).cmdGo 0 else s1)
/-- A write of the command buffer: refused while GO = 1. -/
def State.cmdBufWrite (s : State) (a : CsrReq) : Nat × State :=
  s.csrWrite a (fun _ => if s.flag cmdA 0 then some 1 else none) (fun _ s => s)

/-- NEWNONCE: a new nonce, which invalidates the previous one. -/
def execNewnonce (smbus : Bool) (s : State) : Out := .next (s.newNonce (if smbus then 1 else 0))
/-- NONCE_EXPIRE: a nonce becomes invalid 60 s after its issue. -/
def execNonceExpire (smbus : Bool) (s : State) : Out :=
  .next (
    let t := if smbus then 1 else 0
    match Map.get none s.dse.nonces t with
    | some n => if n.ends ≤ s.ctime.toNat then s.modDse (fun x => { x with nonces := Map.set none x.nonces t none }) else s
    | none => s)

/-! ## SMBus and UART (R410, R422) -/

/-- SMBUS_BLOCK_WRITE: a block write to code 0x20 appends its bytes to the SMBus buffer. -/
def execSmbusBlockWrite (bytes : List Byte) (s : State) : Out :=
  .next (if s.dse.cmdQ.contains 1 || (decide (s.stage ≠ 14) && decide (4096 < s.dse.smIn.length + bytes.length)) then s
    else s.modDse (fun x => { x with smIn := x.smIn ++ bytes.take 32 }))
/-- SMBUS_RESPONSE_READ: code 0x21 returns the response. -/
def execSmbusResponseRead (s : State) : Out := .next (s.modDse (fun x => { x with smRead := x.smOut }))
/-- SMBUS_CONTROL: code 0x22 is the control word, laid out as DSE_CMD_CTL [14:0]; a read returns GO and STATUS. -/
def execSmbusControl (wr : Option (BitVec 16)) (s : State) : Out :=
  .next (match wr with
    | none => s.modDse (fun x => { x with smRead := bytesOf ((if x.cmdQ.contains 1 then 1 else 0) + x.smStatus * 2 ^ 8) 2 })
    | some v =>
      let len := v.toNat / 4 % 2 ^ 13
      if s.dse.cmdQ.contains 1 || decide (len < 32) || decide (4096 < len) then s
      else
        let s1 := if v.getLsbD 1 then s.newNonce 1 else s
        let s2 := s1.modDse (fun x => { x with smLen := len })
        if v.getLsbD 0 then s2.cmdGo 1 else s2)
/-- SMBUS_NONCE_READ: code 0x23 returns the SMBus nonce. -/
def execSmbusNonceRead (s : State) : Out :=
  .next (s.modDse (fun x => { x with smRead := match Map.get none x.nonces 1 with
    | some n => bytesOf n.count 8 ++ bytesOf n.rnd.toNat 8
    | none => List.replicate 16 0 }))
/-- SENSOR_READ: codes 0x30 to 0x3F select a sensor by a written number, and read its filtered temperature (R399). -/
def execSensorRead (code : BitVec 8) (sel : Option (BitVec 16)) (s : State) : Out :=
  .next (
    if code.toNat < 0x30 ∨ 0x3F < code.toNat then s
    else match sel with
      | some n => if n.toNat < 576 then s.modDse (fun x => { x with smSel := n.toNat }) else s
      | none => s.modDse (fun x => { x with smRead := bytesOf (Map.get 0 s.temps x.smSel / 65536) 2 }))
/-- UART_BLOCK: in RECOVERY, with RECOVERY input on, a block joins the command stream; a whole command starts it. -/
def execUartBlock (bytes : List Byte) (s : State) : Out :=
  .next (
    if s.stage ≠ 14 ∨ s.dse.console / 2 % 2 = 0 ∨ s.dse.cmdQ.contains 2 = true then s
    else
      let b := s.dse.uartIn ++ bytes.take 32
      let s1 := s.modDse (fun x => { x with uartIn := b })
      let total := 0x20 + cmdLen b + (if cmdRole b = 0xFF then 0 else 64)
      let img := if cmdOp b = 3 then at' (cmdPay b) 8 8 else 0
      if 0x20 ≤ b.length ∧ total + img ≤ b.length then s1.cmdGo 2 else s1)

/-! ## SPI ownership (R413) -/

/-- A write of DSE_SPI_OWN: a claim needs stage 9 to have ended, TRACE_EXPORT, and free lands. -/
def State.spiWrite (s : State) (a : CsrReq) : Nat × State :=
  let bad (w : CsrW) : Bool := bitB w.val 2 && !(decide (s.stage = 9) && decide (s.dse.trace % 2 = 1) && decide (bitsN w.old 1 0 = 0))
  let r := s.csrWrite a (fun w => if bad w then some 3 else none)
    (fun w s =>
      if bitB w.val 2 then (s.putFld w.pa 1 0 2).putFlag w.pa 4 false
      else if bitB w.val 3 && decide (bitsN w.old 1 0 = 2) then s.putFld w.pa 1 0 0
      else s)
  match s.csrForm a with
  | some w => if s.csrAccepts a.pa true a.req && decide (r.1 = 0) && bad w then (r.1, r.2.putFlag w.pa 4 true) else r
  | none => r

/-- SPI_TCLAIM: a write of DSE_SPI_OWN with TCLAIM. -/
def execSpiTclaim (value : Word) (q : Requester) (s : State) : Out :=
  .next (s.spiWrite (wr8 (dseBase + 0x200) (putW value 3 2 1) q)).2
/-- SPI_TRELEASE: a write of DSE_SPI_OWN with TRELEASE. -/
def execSpiTrelease (value : Word) (q : Requester) (s : State) : Out :=
  .next (s.spiWrite (wr8 (dseBase + 0x200) (putW value 3 2 2) q)).2

end Sys2Proof.Machine
end

