-- ==== Sys2Proof/Machine/Reset.lean ====
section
/-! DEFINITION. The resets of Table 1.8 (R28 to R31, R477) and what a core or the DSE starts after them: DSE_RELEASE
(R411), and the retirements that are applied again (R450). -/

namespace Sys2Proof.Machine
open Sys2Proof

/-! ## Cold reset -/

/-- The state after a cold reset (Table 1.9): reset values, with what fuses, flash and ledger keep, the devices in their
slots, and the repair rows that the DRAM devices have used. -/
def State.coldReset (s : State) : State :=
  { State.reset with
    pending := s.pending, free := s.free, fuses := s.fuses, flash := s.flash,
    near := s.near.map (fun e => (e.1, { NearCh.reset with repairs := e.2.repairs, soft := e.2.soft })),
    ports := s.ports.map (fun e => (e.1, { Port.reset with present := e.2.present })),
    dse := { Dse.reset with boots := s.dse.boots, retired := s.dse.retired, moved := s.dse.moved, gone := s.dse.gone } }

/-- COLD_RESET: power-on by the sequence of R455, or a low of COLD_RST_N, which is ignored while THERMTRIP_N is low
(Table 17.4) and without power. -/
def execColdReset (powerOn : Bool) (s : State) : Out :=
  .next (
    if powerOn then s.coldReset
    else if s.pins.thermtrip || !s.pins.power || !s.pins.pwrGood then s
    else s.coldReset)

/-! ## Warm reset (R29) -/

/-- The chip CSRs that a warm reset preserves (Table 1.9): the DSE block, error logs, the region table and conversion
state, and what shows where memory lies: capacity terms, home map, mirror pairs and channels. -/
def warmKeeps (pa : Nat) : Bool :=
  match regAt pa with
  | some (_, r, _) =>
    decide (r.bk = .dse) || [Rid.NMC_REGION, .NMC_CONV, .NMC_ERRLOG, .NMC_ERRLOG_CTL, .PRT_ERRLOG, .PRT_ERRLOG_CTL, .IOT_FLOG,
      .IOT_FLOG_CTL, .RAS_FLOG, .RAS_FLOG_CTL, .RAS_AERR, .RAS_AERR_CTL, .SOR_CAP_FAR, .SOR_CAP_BASE, .SOR_SAVED, .SOR_GRANTED,
      .SOR_FREE_FAR, .SOR_RESERVE, .L3_HOMEMAP, .NMC_MIRROR, .PRT_MIRROR, .NMC_CFG].contains r.id
  | none => false

/-- A write that a home agent had accepted but not performed when a warm reset began is preserved (R29, Table 1.9): it is performed
in near memory, in a far frame or in a RAW or landed block; where its block must first be stored RAW it waits for the space
(log entry 115). -/
def State.keepWrite (s : State) (q : Pkt) : State :=
  let f := frameOf q.addr
  let h := f % 12
  let k := eKind (s.entry f)
  if k = 0 ∨ q.op = .HRd then s
  else
    let (s1, q1) := s.perform q
    if k = 1 then s1.dramWrite (s.hostCh h) (eLoc (s.entry f)) (q.line % 32768) (s1.poisoned q.line)
    else if k = 2 ∨ 2 ≤ dKind (s.dirEnt f (q.line / 64 % 512)) then s1
    else s1.modHome h (fun x => { x with spill := x.spill ++ [{ pkt := q1, more := [], deadline := s.ctime.toNat }] })

/-- Migrations end where they are: the entry names one place, and the other one is free (Table 1.9: placement is
preserved); the requests that a switch held are released (Table 2.12). -/
def State.migsStop (s : State) : State :=
  s.homes.foldl (fun (s : State) e => e.2.migs.foldl (fun (s : State) m =>
    let s1 := if m.st = .drain then s.freePlace e.1 m.src m.blocks
      else if m.dest.kind = 1 then s else s.freePlace e.1 m.dest m.blocks
    m.holdq.foldl (fun (s : State) q => s.keepWrite q) (s1.setEntry m.frame (putB (s1.entry m.frame) 6 false))) s) s

/-- The requests that home agents held for a remap entry or for a block's RAW copy: accepted writes are preserved (R29). -/
def State.homesStop (s : State) : State :=
  s.homes.foldl (fun (s : State) e =>
    let s1 := e.2.convs.foldl (fun (s : State) c =>
      let s2 := (s.freeSec c.port c.sec 8).modHome e.1 (fun x => { x with convs := takeOut c x.convs })
      (c.pkt :: c.held).foldl (fun (s : State) q => s.keepWrite (if c.done ∧ q = c.pkt then { q with op := .HPut } else q)) s2) s
    e.2.rwait.foldl (fun (s : State) q => s.keepWrite q) s1) s

/-- Every merge buffer entry forced before self-refresh (Table 3.9). -/
def State.mergesStop (s : State) : State := (List.range 12).foldl (fun (s : State) ch => s.forceAll ch) s

/-- A port through a warm reset: a PCI Express port's PERST_N is low, a CXL memory port's stays high (R461). -/
def warmPort (mode : Nat) (x : Port) : Port :=
  { Port.reset with power := x.power, powerAt := x.powerAt, present := x.present, perst := if mode = 1 then x.perst else true }

/-- Steps 1 to 4 of R29: retirement and traffic stop, dirty lines are written back, the near channels are in self-refresh,
soft repairs are committed (R103), and everything that Table 1.9 does not mark as preserved takes its reset value. The
start-up sequence then goes on at stage 4 (R409). An evacuation under way is dropped and its port stays closed: the model's
choice (log entry 116). -/
def State.warmReset (s0 : State) : State :=
  let s := s0.migsStop.homesStop.mergesStop
  let cfg (m : Map Word) : Map Word := m.map (fun e =>
    match regAt e.1 with
    | some (_, r, _) => if r.id = Rid.NMC_CFG then (e.1, putB (putW e.2 23 20 (if 3 ≤ bitsN e.2 23 20 then bitsN e.2 23 20 else 0)) 63 false) else e
    | none => e)
  let s1 : State := { State.reset with
    pending := s.pending, free := s.free, ctime := s.ctime, csr := cfg (s.csr.filter (fun e => warmKeeps e.1)), rej := s.rej,
    mem := s.mem, poison := s.poison, nextId := s.nextId, layout := s.layout, remap := s.remap, dirPages := s.dirPages,
    images := s.images, farUse := s.farUse, nearSys := s.nearSys,
    near := s.near.map (fun e => (e.1, { NearCh.reset with ranks := e.2.ranks, wstamp := e.2.wstamp,
                                                            fstamp := e.2.fstamp, lcrc := e.2.lcrc, marks := e.2.marks, errs := e.2.errs, convLine := e.2.convLine, convOld := e.2.convOld,
                                                            repairs := e.2.repairs, withheld := e.2.withheld })),
    homeLog := s.homeLog, slots := s.slots,
    homes := s.homes.map (fun e => (e.1, { Home.reset with spill := e.2.spill, fenced := e.2.fenced })),
    coord := { Coord.reset with epoch := s.coord.epoch, epochAt := s.ctime.toNat, closed := s.coord.closed },
    temps := s.temps, hotAt := s.hotAt, ledgQ := s.ledgQ, fuses := s.fuses, flash := s.flash, dse := { s.dse with warm := true },
    pins := s.pins, ras := { Ras.reset with hist := s.ras.hist, lost := s.ras.lost },
    ports := s.ports.map (fun e => (e.1, warmPort (s.portMode e.1) e.2)) }
  let s2 := s.near.foldl (fun (s : State) e => e.2.soft.foldl (fun (s : State) r => s.ledger 0x22 (e.1 :: r)) s) s1
  s2.putFld dseBase 3 0 3

/-- A request for a warm reset: before stage 9 has ended it is ignored or merged with the reset in progress (R31,
Table 17.4). -/
def State.warmRequest (s : State) : State := if s.stage = 9 then s.warmReset else s

/-- WARM_RST_N: a falling edge that stays low. -/
def execWarmRstN (s : State) : Out := .next (if s.pins.held then s else s.warmRequest)
/-- A write of DSE_WARM. -/
def State.warmWrite (s : State) (a : CsrReq) : Nat × State :=
  s.csrWrite a (fun _ => none) (fun w s => if bitB w.val 0 then s.warmRequest else s)
/-- DSE_WARM: a write of DSE_WARM with GO. -/
def execDseWarm (value : Word) (q : Requester) (s : State) : Out := .next (s.warmWrite (wr8 (dseBase + 8) (putB value 0 true) q)).2
/-- WARM_RESET: the DSE command. -/
def execWarmReset (m : DseMsg) (s : State) : Out :=
  .next (s.command m 5 (fun _ => 0) (fun _ s => (0, s.warmRequest)))

/-! ## Core reset (R30, R477) -/

/-- The physical cores behind a logical core: two for a pair. -/
def State.physAll (s : State) (n : Nat) : List Nat := if s.profile = 2 then [s.phys n, s.phys n + 1] else [s.phys n]

/-- Every store that a core has retired has been written, and no request of it is outstanding (R30). -/
def State.quiet (s : State) (n : Nat) : Bool :=
  (s.core n).sbuf.isEmpty && (s.physAll n).all (fun p => decide (agtCount s.outst (physAgt p) = 0))

/-- Address of TILE_CRST of a physical core. -/
def crstA (p : Nat) : Nat := tileBase (p / 2) + 0x10180 + 8 * (p % 2)

/-- The interrupt registers at their reset values (Table 7.9). -/
def Core.intReset (k : Core) : Core := ((List.range 0x13).map (0x100 + ·)).foldl (fun k n => k.setSr n (srReset n)) k

/-- What has been pended at a core that restarts: the vectors and the held writes that came during its reset (Table 7.13). -/
def Core.pendedOf (k from_ : Core) : Core :=
  { ((List.range 8).map (0x100 + ·)).foldl (fun k n => k.setSr n (from_.srv n)) k with heldMsi := from_.heldMsi }

/-- A core reset starts: retirement stops, unretired instructions are dropped, and the interrupt state returns to its reset values
(Table 7.13); a core not yet released stays so. -/
def State.crstGo (s : State) (n : Nat) : State :=
  s.modCore n (fun k => let k := k.intReset
    if k.run = .off then k else { k with run := .draining, resv := none, hold := none })

/-- A write of TILE_CRST: GO is refused while GO = 1, and at a position that is parked or carries no logical core in service; during
a warm reset it is discarded (R31). -/
def State.crstWrite (s : State) (a : CsrReq) : Nat × State :=
  let p (w : CsrW) : Nat := 2 * w.block + w.ix.headD 0
  s.csrWrite a
    (fun w => if bitB w.val 0 && (bitB w.old 0 || !(s.carried (p w)).any (fun n => decide (s.lcState n ≠ 3))) then some 1 else none)
    (fun w s => match s.carried (p w) with
      | some n => if bitB w.val 0 && !s.dse.warm then (s.putFlag w.pa 0 true).crstGo n else s
      | none => s)

/-- CORE_RESET: a write of TILE_CRST with GO. -/
def execCoreReset (t : TileId) (p : Fin 2) (q : Requester) (s : State) : Out :=
  .next (s.crstWrite (wr8 (crstA (2 * t + p)) 1 q)).2

/-- CORE_RESTART: once a core's stores and requests have drained, and it is not MOVING, its lines are written back and it
restarts at its reset vector with its fetch RAM and the interrupts pended since the reset began (Table 1.9, Table 7.13, R30). -/
def execCoreRestart (c : CoreId) (s : State) : Out :=
  .next (
    let n := c.val
    let go := (s.core n).run = .draining ∨ (s.physAll n).any (fun p => s.flag (crstA p) 0) = true
    if !decide go || !s.quiet n || decide (s.lcState n = 2) || decide (s.lcState n = 0) then s
    else
      let k := s.core n
      let lines (p : Nat) : List Nat := (s.l2.filter (fun e => decide (e.1 / 2 ^ 42 = p) && decide (e.2.st ≠ .I))).map (fun e => e.1 % 2 ^ 42)
      let s1 := (s.physAll n).foldl (fun (s : State) p => (s.giveBack p (lines p)).putFlag (crstA p) 0 false) s
      s1.setCore n (Core.pendedOf { Core.reset with fram := k.fram, run := if k.run = .off then .off else .running } k))

/-! ## Release of cores (R411) -/

/-- 4 KiB loaded into quarter 0 of a core's fetch RAM, and the core released at its reset vector. -/
def State.releaseCore (s : State) (n : Nat) (bs : List Byte) : State :=
  s.modCore n (fun k => { (k.framPut (bs.zipIdx.map (fun x => (x.2, x.1)))) with run := .running, pc := Core.reset.pc })

/-- A write of DSE_RELEASE (R411): the release runs within the command. -/
def State.releaseWrite (s : State) (a : CsrReq) : Nat × State :=
  s.csrWrite a (fun _ => none) (fun w s =>
    let s0 := s
    if bitB w.val 11 then
      let ok (n : Nat) : Bool := decide (s.lcState n = 1) && decide ((s.core n).run = .off)
      let ns := if bitB w.new 10 then (List.range 1024).filter ok else [bitsN w.new 9 0]
      let adr := 4096 * bitsN w.new 51 12
      let st := (s0.dmaRead adr 4096).1
      let s := if adr = 0 then s0 else s0.dmaSeen s0.dseA adr 4096
      let bs := if adr = 0 then s.bootSection else (List.range 4096).map (fun i => s.rdByte (adr + i))
      if ns.any (fun n => !ok n) then s.putFld w.pa 53 52 1
      else if adr ≠ 0 ∧ st ≠ 0 then s.putFld w.pa 53 52 2
      else (ns.foldl (fun (s : State) n => s.releaseCore n bs) s).putFld w.pa 53 52 0
    else s)

/-- DSE_RELEASE: a write of DSE_RELEASE with GO. -/
def execDseRelease (value : Word) (q : Requester) (s : State) : Out :=
  .next (s.releaseWrite (wr8 (dseBase + 0x10) (putB value 11 true) q)).2

/-! ## Retirements (R450)

What the DSE has retired is kept as (ACTION of Table 16.3, unit, place): ways (3, tile, L2 0, L2 1 or slice, way), slices
(4, tile), routers (7, router), links (8, router, side), lanes (18, port, lane), far frames (10, port, frame), engine units
(11, die, unit), I/O TLB sets (12, die, set), near frames (5, channel, frame). -/

/-- A retirement noted for later starts. -/
def State.noteGone (s : State) (l : List Nat) : State :=
  s.modDse (fun x => { x with gone := if x.gone.contains l then x.gone else x.gone ++ [l] })

/-- A slice disabled with cutover (R134). -/
def State.sliceOff (s : State) (t : Nat) : State :=
  if s.flag (tileBase t + 0x40008) 1 then s else ((s.putFlag (tileBase t + 0x40000) 16 true).cutover t)

/-- The count of an engine's units of a class in DEN_CAP. -/
def denCount (u : Nat) : Nat × Nat :=
  if u < 4 then (12, 9) else if u < 12 then (16, 13) else if u < 16 then (20, 17) else (24, 21)

/-- A unit of an engine retired: it takes no job, and DEN_CAP shows the count left (R446). -/
def State.unitOff (s : State) (d u : Nat) : State :=
  let x := (s.eng d).unit u
  if x.retired then s
  else
    let a := engBase d + 0x800000
    (s.setUnit d u { x with retired := true }).putFld a (denCount u).1 (denCount u).2 (s.fld a (denCount u).1 (denCount u).2 - 1)

/-- A link of a router blocked at both ends (R441). -/
def State.linkOff (s : State) (r side : Nat) : State :=
  match neighbour r side with
  | some n => (s.putFlag (meshCtl r) (2 + side) true).putFlag (meshCtl n) (2 + opposite side) true
  | none => s

/-- One retirement applied. -/
def State.goneApply (s : State) (l : List Nat) : State :=
  match l with
  | [3, t, which, way] =>
    if which < 2 then s.putFlag (tileBase t + 0x30000 + 8 * which) way true
    else
      let a := tileBase t + 0x40000
      let s1 := s.putFlag a way true
      s1.putFld (a + 8) 5 2 (maxLock (16 - popcount (s1.fld a 15 0)))
  | [4, t] => s.sliceOff t
  | [7, r] => (s.putFlag (meshCtl r) 2 true).blockAround r
  | [8, r, side] => s.linkOff r side
  | [5, ch, cf] => s.modNch ch (fun n => { n with withheld := if n.withheld.contains cf then n.withheld else n.withheld ++ [cf] })
  | [11, d, u] => s.unitOff d u
  | _ => s

/-- Every retirement applied again. -/
def State.goneAll (s : State) : State := s.dse.gone.foldl (fun (s : State) l => s.goneApply l) s

end Sys2Proof.Machine
end

