-- ==== Sys2Proof/Machine/Stages.lean ====
section
/-! DEFINITION. The start-up sequence (R408, R409, Table 15.1), all stages but the seventh: self-tests and fuses, the
firmware, the settings, training (R80, R81, R308), the layout of memory (R33 to R35, R80, R105, R106, R110, R480), the logical
cores (R15, R17), the boot core. DSE_STATUS.STAGE shows the last stage that has ended. -/

namespace Sys2Proof.Machine
open Sys2Proof

/-- The end of stage n, after stage n - 1 and while nothing holds the package in reset. -/
def State.stageEnd (s : State) (n : Nat) (f : State → State) : State :=
  if s.stage + 1 = n ∧ s.pins.held = false ∧ s.pins.power = true then
    let s1 := f s
    if s1.stage = s.stage then s1.putFld dseBase 3 0 n else s1
  else s

/-! ## Stages 1 to 3 -/

/-- The fuses sensed: LIFECYCLE, ASSURANCE and the spare tiles (Tables 15.4, 1.4). -/
def State.senseFuses (s : State) : State :=
  let s1 := (s.putFld dseBase 9 8 s.fuses.lifecycle).putFlag dseBase 10 s.fuses.assurance
  (List.range 32).foldl (fun (s : State) i =>
    s.putFld (dseBase + 0x12000 + 8 * (i / 4)) (16 * (i % 4) + 9) (16 * (i % 4)) (s.fuses.spares.getD i 0)) s1

/-- STAGE_1: each instance has tested its pair; the west instance is active unless its self-test fails; when both fail the
DSE is HALTED, and the watchdog drives CAT_ERR_N (R408, Table 17.4). -/
def execStage1 (west east : Bool) (s : State) : Out :=
  .next (s.stageEnd 1 (fun s =>
    if !west && !east then { s.putFld dseBase 3 0 15 with pins := { s.pins with catErr := true } }
    else
      let s1 := ((s.senseFuses).putFlag dseBase 6 (!west)).putFlag dseBase 7 (west && east)
      s1.modDse (fun x => { x with out := Map.set false (Map.set false x.out 0 (!west)) 1 (!east), hbAt := s.ctime.toNat })))

/-- The public key that a ledger record is checked with: the alias-key that the latest BOOT record up to it names. -/
def State.ledKey (s : State) (seq : Nat) : Nat → List Byte
  | 0 => Config.ed25519Pub s.dse.aliasKey
  | n + 1 =>
    match s.ledRec seq with
    | some r => if at' r 0x14 2 = 1 then (r.drop 0x30).take 32 else State.ledKey s (seq - 1) n
    | none => Config.ed25519Pub s.dse.aliasKey
/-- Whether the signature and the chain of a record verify (R428); the first record that remains has no predecessor. -/
def State.ledOk (s : State) (seq : Nat) : Bool :=
  match s.ledRec seq with
  | none => false
  | some r =>
    Config.ed25519 (s.ledKey seq 65536) (r.take 0xC0) (r.drop 0xC0) &&
      (match s.ledRec (seq - 1) with
       | some p => (r.drop 0x80).take 64 == pad (Config.sha512 p) 64
       | none => true)
/-- The head of the ledger found; a torn record after it is erased. -/
def State.ledFind (s : State) : State :=
  let seqs := (List.range 65536).map (fun i => at' (s.fl (0x1000000 + 256 * i) 8) 0 8)
  let head := (seqs.filter s.ledOk).foldl max 0
  let s1 := if (s.ledRec (head + 1)).isSome then s.flErase (ledA (head + 1)) 256 else s
  match s1.ledRec head with
  | some r => s1.ledHead head r
  | none => s1

/-- The keys derived by the ROM (R419) for a firmware digest, and the alias certificate that it signs with the identity
key: the alias key, M_FW, FW_SVN, the burned count, FW_SLOT, SERIAL, and the signature at 128 (log entry 29). -/
def State.deriveKeys (s : State) (m : List Byte) (svn slot : Nat) : State :=
  let sha (l : List Byte) : List Byte := (Config.sha512 (Config.uds ++ l)).take 32
  let burned := BitVec.ofNat 8 s.fuses.svn
  let key := sha (2 :: m ++ [burned])
  let body := pad (pad (Config.ed25519Pub key) 32 ++ pad m 64 ++ [BitVec.ofNat 8 svn, burned, BitVec.ofNat 8 slot] ++
    List.replicate 5 0 ++ bytesOf s.fuses.serial 8) 128
  s.modDse (fun x => { x with aliasKey := key, aliasCert := body ++ pad (Config.ed25519Sign (sha [1]) body) 64, kstore := sha [3], fwDigest := m })

/-- STAGE_2: the firmware is chosen (R414), the keys are derived, the ledger head is found; without a valid slot the
instance enters RECOVERY (R410). -/
def execStage2 (s : State) : Out :=
  .next (s.stageEnd 2 (fun s =>
    match s.fwChoose with
    | none => (s.modDse (fun x => { x with aliasCert := List.replicate 192 0, kstore := (Config.sha512 (Config.uds ++ [3])).take 32 })).putFld dseBase 3 0 14
    | some i =>
      let img := s.fwSlot i
      let s1 := (((s.deriveKeys (fwDigest img) (at' img 6 1) i).modDse (fun x => { x with boots := x.boots + 1 })).putFld dseBase 13 13 i).putFld
        dseBase 20 14 (at' img 6 1)
      s1.ledFind))

/-- STAGE_3: the checkers of every channel have been tested (R101), and arrays, routers and links, whose faults are
reported. -/
def execStage3 (selftest : List Nat) (faults : List FaultRep) (s : State) : Out :=
  .next (s.stageEnd 3 (fun s =>
    let s1 := (List.range 12).foldl (fun (s : State) ch =>
      s.checkersTested ch (selftest.contains ch)) s
    { s1 with reports := s1.reports ++ faults }))

/-! ## Stage 4: settings -/

/-- A PORT record applied to PRT_MODE (Table 15.3). -/
def State.portRec (s : State) (v : List Byte) : State :=
  let b (i : Nat) : Nat := at' v i 1
  let a := prtBase (b 0)
  (((s.putFld a 1 0 (b 1)).putFld a 4 2 (b 2)).putFld a 6 5 (b 3 % 4)).putFlag a 7 (decide (b 3 / 4 % 2 = 1))

/-- SETTINGS_REFUSED records: for an image whose SERIAL names another device, and for both when neither is valid (R416). -/
def State.setRefused (s : State) : State :=
  [0, 1].foldl (fun (s : State) i =>
    match s.setFail (s.setImg i) with
    | some off => if off = 0x10 ∨ s.setChoose = none then s.ledger 3 [i, off] else s
    | none => s) s

/-- STAGE_4: the settings image is chosen (R416), the profile is fixed (R2), the stage-4 records are applied, and every
retirement is applied again (R450). -/
def execStage4 (s : State) : Out :=
  .next (s.stageEnd 4 (fun s =>
    let c := s.setChoose
    let img := match c with
      | some i => s.setImg i
      | none => []
    let rs := if c.isSome then imgRecs img else []
    let cur := s.profile
    let want := if c.isSome then recVal rs 1 0 else cur
    let refused := decide (want = 2) && !s.fuses.assurance
    let s1 := if refused then s.setRefused.ledger 4 [want, cur] else s.setRefused
    let s2 := ((s1.putFld dseBase 5 4 (if refused then cur else want)).putFlag dseBase 11 (decide (c = some 1))).putFlag dseBase 12 c.isNone
    let s3 := s2.modDse (fun x =>
      { x with latCores := recVal rs 2 512, smAddr := recVal rs 3 0x5C, console := recVal rs 4 3, setImage := c,
               setDigest := if c.isSome then setDigest img else [] })
    (rs.foldl (fun (s : State) r => if r.id = 0x10 then s.portRec r.val else s) s3).goneAll))

/-! ## Stage 5: training -/

/-- Training of a channel at a warm reset (R81): a rank in use that fails makes the channel FAILED. -/
def State.trainWarm (s : State) (ch : Nat) (e : ChanEnv) : State :=
  let b := chBase ch
  if 3 ≤ s.fld b 23 20 then s
  else
    let bad := (s.nch ch).ranks.filter (fun r => !e.pass.contains r)
    if bad ≠ [] then (bad.foldl (fun (s : State) r => s.nmcRec ch 0 0 r 31 7 6) s).chanLost ch
    else (s.putFld b 23 20 2).putFld (b + 0x100) 31 24 (if s.flag b 3 then 160 else 110)

/-- Training of a port at start-up (R308, R461): slot power for a port that is not DISABLED and has a device. -/
def State.trainPort (s : State) (p : Nat) (e : TrainEnv) : State :=
  if s.portMode p = 0 ∨ (s.port p).present = false then s
  else
    let s1 := if (s.port p).power then s else s.slotOn p
    ((s1.modPort p (fun x => { x with perst := false })).setLink p 1).trained p e

/-- STAGE_5: channels and ports have trained; DRST_N is high but for FAILED channels (R80, R81, R308, R464). -/
def execStage5 (chans : List ChanEnv) (ports : List TrainEnv) (s : State) : Out :=
  .next (s.stageEnd 5 (fun s =>
    let no : ChanEnv := { density := 0, ranks := 0, pass := [] }
    let none' : TrainEnv := { ok := false, speed := 0, width := 0, lanes := 0, type3 := false, capacity := 0 }
    let up := (List.range 12).foldl (fun (m : Map Bool) ch => if s.fld (chBase ch) 23 20 = 3 then m else Map.set false m ch true) s.pins.drst
    let s0 := { s with pins := { s.pins with drst := up } }
    let s1 := (List.range 12).foldl (fun (s : State) ch =>
      if s.dse.warm then s.trainWarm ch (chans.getD ch no) else s.trainCold ch (chans.getD ch no)) s0
    (List.range 64).foldl (fun (s : State) p => s.trainPort p (ports.getD p none')) s1))

/-! ## Stage 6: memory -/

/-- Whether a channel is ACTIVE, and its frames C. -/
def State.chOn (s : State) (ch : Nat) : Bool := decide (s.fld (chBase ch) 23 20 = 2)
def State.chC (s : State) (ch : Nat) : Nat := s.fld (chBase ch) 19 4
/-- The channel that hosts a home function at cold start (R80); 12 where no channel is ACTIVE. -/
def State.hostAt (s : State) (h : Nat) : Nat :=
  let same := (List.range 12).find? (fun c => s.chOn c && decide (c / 6 = h / 6))
  let other := (List.range 12).find? (fun c => s.chOn c)
  if s.chOn h then h else if s.chOn (h ^^^ 1) then h ^^^ 1 else (same.orElse (fun _ => other)).getD 12

/-- Near frames of a channel that are retired for good (R104). -/
def State.badNear (s : State) (ch : Nat) : List Nat :=
  s.dse.gone.filterMap (fun l => match l with | [5, c, cf] => if c = ch then some cf else none | _ => none)
/-- Far frames of a port that are withheld (R444). -/
def State.badFar (s : State) (p : Nat) : List Nat :=
  s.dse.gone.filterMap (fun l => match l with | [10, q, i] => if q = p then some i else none | _ => none)

/-- Substitutes for the retired frames among the first n of a span, out of the rest of it. -/
def substOf (k lo n hi : Nat) (bad : List Nat) : List (Nat × Nat × Nat) :=
  let inside := bad.filter (fun i => decide (lo ≤ i) && decide (i < lo + n))
  let spare := (spanN (lo + n) (hi - (lo + n))).filter (fun i => !bad.contains i)
  List.zipWith (fun a b => (k, a, b)) inside spare

/-- A home function's place on its channel: the first channel frame of its near frames and their number. -/
structure Share where
  ch : Nat
  first : Nat
  num : Nat

/-- The span of a channel's near frames (R34, R480, R105, R106). -/
def State.spanAt (s : State) (ch : Nat) : Nat × Nat :=
  let hosted := (List.range 12).filter (fun h => decide (s.hostAt h = ch))
  let c := s.chC ch
  if !s.chOn ch then (0, 0)
  else if s.profile = 2 then
    let p := ch ^^^ 1
    let extra (x : Nat) : Nat := (((List.range 12).filter (fun h => decide (s.hostAt h = x) && decide (h ≠ x) && decide (h ≠ x ^^^ 1))).map resFrames).sum
    let r := resFrames ch + resFrames p + extra ch + extra p
    let n := ((if s.chOn p then min c (s.chC p) else c) - r) / 2
    (r, r + (if s.chOn p then n else 2 * n))
  else ((hosted.map resFrames).sum, c)

/-- The near frames that a home function gets (R35 step 1). -/
def State.shareAt (s : State) (h : Nat) : Share :=
  let ch := s.hostAt h
  let sp := s.spanAt ch
  let u := sp.2 - sp.1 - (s.badNear ch).length
  if ch = 12 then { ch := 12, first := 0, num := 0 }
  else if s.profile = 2 then
    if s.chOn (ch ^^^ 1) then { ch := ch, first := sp.1, num := if ch = h then u else 0 }
    else if h = ch then { ch := ch, first := sp.1, num := u / 2 }
    else if h = ch ^^^ 1 then { ch := ch, first := sp.1 + (sp.2 - sp.1) / 2, num := u / 2 }
    else { ch := ch, first := sp.1, num := 0 }
  else
    let hosted := (List.range 12).filter (fun x => decide (s.hostAt x = ch))
    let k := hosted.length
    let size (x : Nat) : Nat := u / k + (if hosted.head? = some x then u % k else 0)
    { ch := ch, first := sp.1 + ((hosted.filter (fun x => decide (x < h))).map size).sum, num := size h }

/-- The far frames that each port brings (R313), and in the assurance profile each pair under its lower number (R110). -/
def State.farAt (s : State) (caps : List Nat) : List (Nat × Nat) :=
  let on (p : Nat) : Bool := decide (s.portMode p = 1) && decide (s.portLink p = 2)
  let n (p : Nat) : Nat := if on p then capFrames (caps.getD p 0) else 0
  let all := (List.range 64).filterMap (fun p =>
    let m := n p - (s.badFar p).length
    if s.profile = 2 then (if p % 2 = 0 ∧ 0 < n p ∧ n p = n (p + 1) then some (p, m) else none)
    else if 0 < n p then some (p, m) else none)
  all.filter (fun x => decide (0 < x.2))

/-- The layout of memory at cold start. -/
def State.layoutOf (s : State) (caps : List Nat) : Layout :=
  let sh := (List.range 12).map s.shareAt
  let sp := (List.range 12).map s.spanAt
  let ports := s.farAt caps
  let near := (sh.map (fun x => x.num)).sum
  let far := (ports.map (fun x => x.2)).sum
  let nearSub := sh.flatMap (fun x => if x.ch = 12 then [] else substOf x.ch x.first x.num (s.spanAt x.ch).2 (s.badNear x.ch))
  let farSub := ports.flatMap (fun x => substOf (16 + x.1) 0 x.2 (x.2 + (s.badFar x.1).length) (s.badFar x.1))
  { homeCh := sh.map (fun x => x.ch), nearFirst := sh.map (fun x => x.first), nearNum := sh.map (fun x => x.num),
    nearLo := sp.map (fun x => x.1), nearHi := sp.map (fun x => x.2), ports := ports, added := [], subst := nearSub ++ farSub,
    base := near + far - resOf far, near := near, far := far }

/-- Mirror pairs of channels and ports as the layout has them (Table 3.16): STATE, PARTNER. -/
def State.mirrors (s : State) : State :=
  let ch (s : State) (c : Nat) : State :=
    let a := chBase c + 0x7000
    if s.profile = 2 ∧ s.chOn c = true then (s.putFld a 1 0 (if s.chOn (c ^^^ 1) then 1 else 2)).putFld a 7 2 (c ^^^ 1) else s
  let pr (s : State) (x : Nat × Nat) : State :=
    [x.1, x.1 ^^^ 1].foldl (fun (s : State) p =>
      let a := portBase p + 0x7000 + 8 * (p % 4)
      (s.putFld a 1 0 1).putFld a 7 2 (p ^^^ 1)) s
  let s1 := (List.range 12).foldl ch s
  if s.profile = 2 then s1.layout.ports.foldl pr s1 else s1

/-- CXL memory ports without a partner of equal capacity are logged (R110). -/
def State.unpaired (s : State) : State :=
  if s.profile ≠ 2 then s
  else (List.range 64).foldl (fun (s : State) p =>
    if s.portMode p = 1 ∧ s.portLink p = 2 ∧ ¬ s.layout.ports.any (fun x => decide (x.1 = p / 2 * 2)) = true then s.prtLog p 0x0E 0 0 0 else s) s

/-- The home agents start to serve: the LFSR of each is loaded (R48). -/
def State.homesStart (s : State) : State :=
  (List.range 12).foldl (fun (s : State) h =>
    s.modHagt h (fun x => { x with lfsr := if s.ctime.toNat % 2 ^ 16 = 0 then 1 else s.ctime.toNat % 2 ^ 16 })) s

/-- Cold stage 6: the layout, the home map, the capacity registers, the mirror pairs. -/
def State.stage6Cold (s : State) (caps : List Nat) : State :=
  let l := s.layoutOf caps
  let s1 := { s with layout := l }
  let s2 := (List.range 12).foldl (fun (s : State) h => if l.homeCh.getD h 12 = 12 then s else s.setHomemap h (l.homeCh.getD h 0)) s1
  let s3 := ((s2.putFld capFarA 27 0 l.far).putFld capBaseA 27 0 l.base).putFld reserveA 27 0 (resOf l.far)
  let s4 := ((s3.putFld grantedA 27 0 0).putFld savedA 47 0 (4096 * (l.near + l.far - l.base))).putFld freeFarA 27 0 (l.far - l.farRank l.base)
  let s5 := ((List.range 12).foldl (fun (s : State) ch => s.modNch ch (fun n => { n with withheld := s.badNear ch })) s4)
  s5.mirrors.unpaired.homesStart

/-- Warm stage 6 (R74): elastic frames are revoked, heat is cleared, held writes take the space that this frees and
restart their deadlines. -/
def State.stage6Warm (s : State) : State :=
  let s1 := (s.elastic.foldl (fun (s : State) f => s.unback f) s).putFld grantedA 27 0 0
  let s2 := s1.remap.foldl (fun (s : State) e => s.setEntry e.1 (putW e.2 63 48 0)) s1
  let dl := s2.ctime.toNat + s2.fld elrCtlA 16 0 * 1000
  let s3 := { s2 with homes := s2.homes.map (fun (e : Nat × Home) => (e.1, { e.2 with spill := e.2.spill.map (fun (x : Spill) => { x with deadline := dl }) })) }
  let s4 := s3.spillAll
  let s5 := if s4.profile = 2 then s4
    else (List.range 12).foldl (fun (s : State) c => s.putFld (chBase c + 0x7000) 7 0 0)
      ((List.range 64).foldl (fun (s : State) p => s.putFld (portBase p + 0x7000 + 8 * (p % 4)) 7 0 0) s4)
  s5.homesStart

/-- STAGE_6: memory is laid out at a cold start, and kept at a warm reset (R35, R74, R80, R110). -/
def execStage6 (caps : List Nat) (s : State) : Out :=
  .next (s.stageEnd 6 (fun s => if s.dse.warm then s.stage6Warm else s.stage6Cold caps))

/-! ## Stages 8 and 9 -/

/-- The active tiles of a die in order of tile rank (R15). -/
def State.activeTiles (s : State) (d : Nat) : List Nat := (tilesOfDie d).filter (fun t => !s.fuses.spares.contains t)

/-- The physical core that Table 1.2 puts behind a logical number. -/
def State.tableCore (s : State) (n : Nat) : Option Nat :=
  let p := s.profile
  if p = 1 then
    let k := s.dse.latCores / 8
    if n < 8 * k then ((s.activeTiles (n / k))[n % k]?).map (fun t => 2 * t) else none
  else if p = 2 then (if n < 512 then ((s.activeTiles (n / 64))[n % 64]?).map (fun t => 2 * t) else none)
  else ((s.activeTiles (n / 128))[n % 128 / 2]?).map (fun t => 2 * t + n % 2)

/-- Logical numbers assigned (R15, R17): cores moved to spares keep them; a retired core without a spare is OFFLINE, and so is a
pair with a retired core. -/
def State.assign (s : State) : State :=
  let s1 := (List.range 1024).foldl (fun (s : State) n =>
    let w : Word := match s.tableCore n with
      | none => 0
      | some p =>
        let q := ((s.dse.moved.find? (fun x => decide (x.1 = p))).map (fun x => x.2)).getD p
        let out := s.dse.retired.contains q || (decide (s.profile = 2) && s.dse.retired.contains (q + 1))
        BitVec.ofNat 64 (q + (if out then 3 else 1) * 2 ^ 12)
    s.wrCsr (dseBase + 0x10000 + 8 * n) w) s
  (List.range 64).foldl (fun (s : State) i =>
    let j := i / 2 % 4
    let q := 2 * s.fuses.spares.getD (i / 2) 0 + i % 2
    s.putFlag (dseBase + 0x12000 + 8 * (i / 8)) (16 * j + 10 + i % 2)
      (s.dse.retired.contains q || s.dse.moved.any (fun x => decide (x.2 = q)))) s1

/-- STAGE_8: logical cores are assigned, and DSE_LCMAP and DSE_SPAREMAP published (R15 to R18). -/
def execStage8 (s : State) : Out := .next (s.stageEnd 8 State.assign)

/-- STAGE_9: the boot section is loaded and logical core 0 released, SVN fuses are committed, a BOOT record is written, and
the SPI lands are free (R408, R413, R414). -/
def execStage9 (vpp : Bool) (s : State) : Out :=
  .next (s.stageEnd 9 (fun s =>
    let slot := s.fld dseBase 13 13
    let svn := s.fld dseBase 20 14
    let commit := decide (at' (s.fl (fwA slot) 8) 7 1 % 2 = 1) && vpp
    let rs := match s.dse.setImage with
      | some i => imgRecs (s.setImg i)
      | none => []
    let s1 := if s.lcState 0 = 1 then s.releaseCore 0 s.bootSection else s
    let s2 := { s1 with fuses := { s1.fuses with svn := if commit then max s1.fuses.svn svn else s1.fuses.svn } }
    let words (l : List Byte) : List Nat := (List.range 4).map (fun i => at' (pad l 32) (8 * i) 8)
    let s3 := s2.ledger 1 ([if s.dse.warm then 1 else 0, slot, svn] ++ words (Config.ed25519Pub s.dse.aliasKey) ++ words s.dse.fwDigest)
    (s3.modDse (fun x => { x with warm := false, cold := false, trace := recVal rs 5 0 })).putFld (dseBase + 0x200) 1 0 0))

end Sys2Proof.Machine
end

