-- ==== Sys2Proof/Machine/Ras.lean ====
section
/-! DEFINITION. Fault recovery (16_fault_recovery.md): reports and records (R430), classification (R431, R432), actions and
their queue (R433, R434, Table 16.3), and the transactions that time out (R442, R448). -/

namespace Sys2Proof.Machine
open Sys2Proof

def State.modRas (s : State) (f : Ras → Ras) : State := { s with ras := f s.ras }

/-! ## Records (Table 16.1) -/

/-- Address of record n of RAS_FLOG. -/
def recA (n : Nat) : Nat := rasBase + 0x1000 + 32 * n
/-- Word 1 of a record. -/
def repWord1 (r : FaultRep) : Word :=
  BitVec.ofNat 64 (r.unit % 2 ^ 8 + r.index % 2 ^ 16 * 2 ^ 8 + r.loc % 2 ^ 32 * 2 ^ 24 + r.sev % 4 * 2 ^ 56)
/-- Whether a record still stands in its place. -/
def State.recHere (s : State) (x : FaultRec) : Bool :=
  decide (s.rdCsr (recA x.slot) = BitVec.ofNat 64 x.rep.time) && decide (s.rdCsr (recA x.slot + 8) = repWord1 x.rep)
/-- A field of word 2 of a record updated in place. -/
def State.recPut (s : State) (x : FaultRec) (hi lo v : Nat) : State :=
  if s.recHere x then s.putFld (recA x.slot + 16) hi lo v else s
/-- The CLASS of a record. -/
def State.recClass (s : State) (x : FaultRec) : Nat := if s.recHere x then s.fld (recA x.slot + 16) 1 0 else 2

/-- A new record: the place it takes, and the interrupt of RAS_FIRQ (R430). -/
def State.recNew (s : State) (r : FaultRep) : Nat × State :=
  let ctl := rasBase + 0x10
  let n := s.fld ctl 5 0
  let a := recA n
  let used := decide (s.rdCsr a ≠ 0) || decide (s.rdCsr (a + 8) ≠ 0)
  let s1 := (((s.wrCsr a (BitVec.ofNat 64 r.time)).wrCsr (a + 8) (repWord1 r)).wrCsr (a + 16) 0).wrCsr (a + 24) (BitVec.ofNat 64 r.detail)
  let s2 := s1.putFld ctl 5 0 ((n + 1) % 64)
  let s3 := if used then s2.putFlag ctl 6 true else s2
  (n, if s.flag (rasBase + 0x18) 20 then s3 else s3.sendIrq (rasBase + 0x18))

/-- The record in a place, as its words say. -/
def State.recAt (s : State) (n : Nat) : FaultRec :=
  let w := s.rdCsr (recA n + 8)
  let r : FaultRep := (⟨bitsN w 7 0, bitsN w 23 8, bitsN w 55 24, bitsN w 57 56, (s.rdCsr (recA n + 24)).toNat, (s.rdCsr (recA n)).toNat⟩)
  { slot := n, rep := r, was := none }

/-- The record that a report is merged into (R431): its unit's test runs, or the place named the same less than 1 ms ago. -/
def State.mergeInto (s : State) (r : FaultRep) : Option FaultRec :=
  (s.ras.tests.find? (fun x => decide (x.rep.unit = r.unit ∧ x.rep.index = r.index))).orElse (fun _ =>
    ((List.range 64).map s.recAt).find? (fun x =>
      decide (x.rep.unit = r.unit % 2 ^ 8 ∧ x.rep.index = r.index % 2 ^ 16 ∧ x.rep.loc = r.loc % 2 ^ 32) &&
        (decide (s.rdCsr (recA x.slot) ≠ 0) || decide (s.rdCsr (recA x.slot + 8) ≠ 0)) && decide (s.ctime.toNat < x.rep.time + 1000000)))

/-! ## Classification (R432) -/

/-- Units that have a self-test (Table 16.2). -/
def hasTest (unit : Nat) : Bool := !(unit = 0x1B || unit = 0x21 || unit = 0x30)

/-- RAS_CLASS.REPEAT, and whether a report lies within WINDOW_MS. -/
def State.repeatN (s : State) : Nat := s.fld rasBase 3 0
def State.recent (s : State) (x : FaultRep) : Bool := decide (s.ctime.toNat < x.time + s.fld rasBase 19 4 * 1000000)

/-- Whether a place has reported REPEAT times within the window. -/
def State.repeats (s : State) (r : FaultRep) : Bool :=
  decide (s.repeatN ≤ (s.ras.hist.filter (fun x => decide (x.unit = r.unit ∧ x.index = r.index ∧ x.loc = r.loc) && s.recent x)).length)

/-- Whether the strong code has named the same device in REPEAT different rows within the window. -/
def State.deviceFault (s : State) (r : FaultRep) : Bool :=
  let dev (x : FaultRep) : Nat := x.loc / 2 ^ 24 % 32
  let rows := (s.ras.hist.filter (fun x => decide (x.unit = 0x1A ∧ x.index = r.index ∧ x.loc % 4 = r.loc % 4 ∧ dev x = dev r) && s.recent x)).map
    (fun x => x.loc % 2 ^ 24)
  decide (r.unit = 0x1A) && decide (dev r < 20) && decide (s.repeatN ≤ rows.eraseDups.length) &&
    !s.ras.hist.any (fun x => decide (x.unit = 0x1B ∧ x.index = r.index ∧ x.loc = r.loc % 4 + dev r * 4) && s.recent x)

/-- Whether a report of a core is a lockstep stop (R438), and whether it is an error trap at PL3 with EIP = 1 (R439). -/
def State.lockStop (s : State) (r : FaultRep) : Bool :=
  decide (r.unit = 1) && decide (r.sev = 2) && decide (s.profile = 2) && s.flag (tileBase (r.index / 2) + 0x10080) 34
def State.trapStop (s : State) (r : FaultRep) : Bool := decide (r.unit = 1) && decide (r.sev = 2) && !s.lockStop r

/-- The action of a lasting fault (Table 16.3). -/
def State.actionOf (s : State) (r : FaultRep) : Nat :=
  let u := r.unit
  if u = 0x01 ∨ u = 0x02 then 2
  else if u = 0x03 ∨ u = 0x08 then 3
  else if u = 0x09 then 4
  else if u = 0x10 then 7
  else if u = 0x19 ∨ u = 0x1C then (if s.profile = 2 then 9 else 13)
  else if u = 0x1A then 5
  else if u = 0x1B then 6
  else if u = 0x20 then 8
  else if u = 0x21 then (if s.profile = 2 ∧ s.portMode r.index = 1 then 9 else 0)
  else if u = 0x22 then 10
  else if u = 0x28 ∨ u = 0x29 then 11
  else if u = 0x30 then 12
  else 0
/-- The action of a record: a core that stopped in an error trap is reset even when its test passes (R439). -/
def State.actOf (s : State) (x : FaultRec) : Nat := if s.trapStop x.rep && decide (s.recClass x ≠ 2) then 14 else s.actionOf x.rep

/-! ## The action queue (R434) -/

/-- RAS_STATUS. -/
def State.rasStat (s : State) : State :=
  (s.putFlag (rasBase + 0x20) 0 s.ras.running.isSome).putFld (rasBase + 0x20) 5 1 s.ras.queue.length

/-- The end of a record: its action, its result, and the time since detection. -/
def State.recEnd (s : State) (x : FaultRec) (action result : Nat) : State :=
  ((s.recPut x 7 4 action).recPut x 10 8 result).recPut x 38 19 (satN 20 ((s.ctime.toNat - x.rep.time) / 1000))

/-- The logical core of a core unit's report. -/
def State.coreOf (s : State) (r : FaultRep) : Option Nat := if r.unit = 1 ∨ r.unit = 2 then s.carried r.index else none

/-- A record's action starts; the core reset of R439 is made at once. -/
def State.actStart (s : State) : List FaultRec → State
  | [] => (s.modRas (fun y => { y with running := none, queue := [] })).rasStat
  | x :: l =>
    if s.actOf x = 14 then
      State.actStart ((match s.coreOf x.rep with
        | some n => s.crstGo n
        | none => s).recEnd x 14 0) l
    else (s.modRas (fun y => { y with running := some x, queue := l })).rasStat

/-- An action ends, and the next one starts. -/
def State.actEnd (s : State) (x : FaultRec) (action result : Nat) : State :=
  let s1 := s.recEnd x action result
  s1.actStart s1.ras.queue

/-- A port whose far memory is lost (R444): its frames are marked POISONED and leave F. -/
def State.portLost (s : State) (p : Nat) : State :=
  if s.ras.lost.contains p then s
  else
    let n := s.layout.portFrames p
    let fs := s.framesWhere (fun _ e => (decide (eKind e = 2) || decide (eKind e = 3)) && decide (ePort e = p))
    let s1 := fs.foldl (fun (s : State) f => s.setEntry f (putB (s.entry f) 9 true)) s
    (s1.setFarCap (s1.fld capFarA 27 0 - n)).modRas (fun y => { y with lost := y.lost ++ [p] })

/-- What the uncovered row of Table 16.3 leaves of a unit whose action finds the queue full (R434): its core OFFLINE, the home
functions of its channel fenced, the far memory of its port lost. -/
def State.uncovered (s : State) (r : FaultRep) : State :=
  match s.coreOf r with
  | some n => (s.setLcmap n (s.phys n) 3).modCore n (fun k => { k with run := .offline, resv := none, hold := none })
  | none =>
    if r.unit = 0x19 ∨ r.unit = 0x1C then
      (List.range 12).foldl (fun (s : State) h => if s.hostCh h = r.index then s.modHome h (fun y => { y with fenced := true }) else s) s
    else if r.unit = 0x21 ∧ s.portMode r.index = 1 then s.portLost r.index
    else s

/-- A lasting fault, or a core reset that is due, takes its turn; with 16 queued it gets no action (R434). -/
def State.enqueue (s : State) (x : FaultRec) : State :=
  if s.actOf x = 0 then
    if x.rep.unit = 0x21 ∧ s.portMode x.rep.index = 1 then (s.portLost x.rep.index).recEnd x 0 4 else s.recEnd x 0 0
  else if s.ras.running.isNone then s.actStart [x]
  else if s.ras.queue.length < 16 then (s.modRas (fun y => { y with queue := y.queue ++ [x] })).rasStat
  else (s.uncovered x.rep).recEnd x 0 5

/-- A fault classed LASTING: its record, FAULT_LASTING, the interrupt, and its action. -/
def State.lasting (s : State) (x : FaultRec) : State :=
  let s1 := (s.recPut x 1 0 2).ledger 0x25 [(repWord1 x.rep).toNat, 2]
  (if s.flag (rasBase + 0x18) 20 then s1.sendIrq (rasBase + 0x18) else s1).enqueue x

/-- A core that the self-test stopped goes on where it was. -/
def State.coreGo (s : State) (x : FaultRec) : State :=
  match s.coreOf x.rep, x.was with
  | some n, some r => if (s.core n).run = .stopped then s.modCore n (fun k => { k with run := if r = .stopped then .running else r }) else s
  | _, _ => s

/-- A pair's streak and stop cleared when it goes on (R438). -/
def State.pairGo (s : State) (t : Nat) : State := (s.putFld (tileBase t + 0x10080) 33 32 0).putFlag (tileBase t + 0x10080) 34 false

/-- A record classified once its test has ended, or at once where its unit has none. -/
def State.classify (s : State) (x : FaultRec) (failed : Bool) : State :=
  let r := x.rep
  let stop := decide (r.sev = 2) && decide (r.unit ≠ 1)
  if failed || stop || s.repeats r then s.lasting x
  else
    let s1 := s.recPut x 1 0 1
    if s.trapStop r then s1.enqueue x
    else if s.lockStop r then ((s1.pairGo (r.index / 2)).coreGo x).recEnd x 0 0
    else (s1.coreGo x).recEnd x 0 0

/-! ## Reports -/

/-- What an uncorrectable error in a register or in a store address loses (R436), by DETAIL: the register reads 0, the store
is dropped. -/
def Core.loseReg (k : Core) (detail : Nat) : Core :=
  let n := detail % 2 ^ 12
  match detail / 2 ^ 12 % 16 with
  | 1 => { k with g := Map.set 0 k.g n 0 }
  | 2 => { k with v := Map.set 0 k.v n 0 }
  | 3 => { k with m := Map.set 0 k.m n 0 }
  | 4 => { k with bank := Map.set 0 k.bank n 0 }
  | 5 => k.setSr n 0
  | 6 => { k with sbuf := k.sbuf.eraseIdx n }
  | _ => k

/-- A core stops for its self-test: unit 0x01 retires nothing (Table 16.2). -/
def State.coreHold (s : State) (r : FaultRep) : Option Run × State :=
  match (if r.unit = 1 then s.carried r.index else none) with
  | none => (none, s)
  | some n =>
    let was := (s.core n).run
    (some was, s.modCore n (fun k => if was = .running ∨ was = .wfi then { k with run := .stopped } else k))

/-! ## Uncorrectable array errors (Table 16.4, R445, R446) -/

/-- An uncorrectable error in a core's L1 or TLB arrays, predictors or store buffer, by array number (DESIGN CHOICE, log entry 139):
a clean line or an entry is discarded, a dirty line is poisoned, store data is written poisoned. Fetch RAM reports itself at the
fetch (R262). -/
def State.privError (s : State) (p arr way e : Nat) : State :=
  match arr with
  | 1 =>
    match s.l2.find? (fun x => decide (x.1 / 2 ^ 42 = p) && decide (x.1 % 128 = e % 128) && decide (x.2.l1 = some way)) with
    | none => s
    | some (key, x) =>
      if x.st = .M then s.setPoison (key % 2 ^ 42) true else s.l1Lose (s.runsOn p) p (key % 2 ^ 42)
  | 3 => s.modCore (s.runsOn p) (fun k => { k with tlb := Map.set none k.tlb e none })
  | 4 => s.modCore (s.runsOn p) (fun k => { k with s2tlb := Map.set none k.s2tlb e none })
  | 5 => s.modCore (s.runsOn p) (fun k => { k with hints := k.hints.eraseIdx e })
  | 6 => s.modCore (s.runsOn p) (fun k => { k with btb := Map.set none k.btb e none })
  | 8 => s.modCore (s.runsOn p) (fun k => { k with sbuf := k.sbuf.zipIdx.map (fun x => if x.2 = e then { x.1 with poison := true } else x.1) })
  | _ => s

/-- An uncorrectable error in a way of an L2: a dirty line is poisoned, a clean one discarded. In a tag or state entry the line is
invalidated, and whoever asks for it gets poison where it was owned (R442). -/
def State.l2Error (s : State) (p way set : Nat) (tag : Bool) : State :=
  match s.l2.find? (fun x => decide (x.1 / 2 ^ 42 = p) && decide (x.1 % 1024 = set % 1024) && decide (x.2.wn = way) && decide (x.2.st ≠ .I)) with
  | none => s
  | some (key, x) =>
    let l := key % 2 ^ 42
    if tag then (if x.st = .S then s else s.setPoison l true).loseLine p l
    else if x.st = .M then s.setPoison l true
    else s.loseLine p l

/-- An uncorrectable error in an L3 data way: a dirty line is poisoned, a clean one discarded unless it is locked (DESIGN CHOICE, log
entry 139). -/
def State.l3Error (s : State) (t way set : Nat) : State :=
  match s.dir.find? (fun x => decide (s.dirSet x.1 = 2048 * t + set % 2048) && decide (x.2.way ≠ .none) && decide (x.2.wn = way)) with
  | none => s
  | some (l, d) => if d.way = .dirty ∨ d.lock = true ∨ d.busy.isSome = true then s.setPoison l true else s.modDir l (fun d => { d with way := .none, wn := 0 })

/-- An uncorrectable error in a home agent's arrays (R445): data held for a line is written poisoned, and a migration whose dirty map
is lost ends with MIG_ABORTED. Which array is in LOC, by the model's numbers (DESIGN CHOICE, log entry 139). -/
def State.homeError (s : State) (ch arr a : Nat) : State :=
  let l := a / 64
  let f := a / 2 ^ 21
  let h := f % 12
  let bad (q : Pkt) : Pkt := if q.line = l then { q with poison := true } else q
  if s.hostCh h ≠ ch then s
  else match arr with
    | 1 => s.modHome h (fun y => { y with migs := y.migs.map (fun m => { m with holdq := m.holdq.map bad }) })
    | 2 => s.modHome h (fun y => { y with spill := y.spill.map (fun x => { x with pkt := bad x.pkt, more := x.more.map bad }) })
    | 3 => match s.migOf f with
      | some m => if m.st = .drain then s else s.migEnd h m 7
      | none => s
    | 4 => s.modNch ch (fun n => { n with merge := n.merge.map (fun e =>
        match s.sysOf ch e.cf with
        | some g => if 32768 * g + e.line = l then { e with pmask := e.mask } else e
        | none => e) })
    | _ => s

/-- What an uncorrectable error does where it is met (Table 16.4, R436, R445, R446). -/
def State.arrayError (s : State) (r : FaultRep) : State :=
  let way := r.loc % 16
  let e := r.loc / 16 % 2 ^ 16
  let arr := r.loc / 2 ^ 20 % 16
  if r.sev ≠ 1 then s
  else match r.unit with
    | 0x01 => match s.carried r.index with
      | some n => if r.detail / 2 ^ 12 % 16 = 0 then s else s.modCore n (fun k => { k.loseReg r.detail with errCore := true })
      | none => s
    | 0x02 => s.privError r.index arr way e
    | 0x03 => s.l2Error r.index way e (decide (arr % 2 = 1))
    | 0x08 => s.l3Error r.index way e
    | 0x18 => s.homeError r.index (r.loc / 2 ^ 28) r.detail
    | 0x29 => s.setIot (r.index % 2) { s.iot (r.index % 2) with
        tlb := (s.iot (r.index % 2)).tlb.filter (fun x => decide (ioSet x ≠ r.loc)), ctx := [] }
    | _ => s

/-- An engine unit that reports an uncorrectable error or STOP: its job resumes from its last copy on another unit of the
class, or waits for one (R446). Where the copy itself is lost, which DETAIL [0] says (DESIGN CHOICE, log entry 139), the job ends
with MEM_ERROR. -/
def State.unitFault (s : State) (r : FaultRep) : State :=
  let d := r.index / 32 % 2
  let u := r.index % 32
  match (if r.unit = 0x28 ∧ 1 ≤ r.sev then ((s.eng d).unit u).job else none) with
  | none => s
  | some j =>
    if r.detail % 2 = 1 then s.endJob d u j { status := 0x0A, srcUsed := 0, dstUsed := 0, check := 0, detail := 4 } else
    let s1 := s.unitJob d u none
    let ok (v : Nat) : Bool := decide (v ≠ u) && decide (unitClass v = unitClass u) && ((s1.eng d).unit v).job.isNone &&
      !((s1.eng d).unit v).retired && !s1.testing 0x28 (32 * d + v)
    match (List.range 18).find? ok with
    | some v => s1.unitJob d v (some j)
    | none => s1.modInst d j.inst (fun y => { y with susp := j :: y.susp })

/-- A report reaches the DSE (R430, R431): it is merged, or gets a record of its own and its unit's self-test starts. A
device that enough rows name is a fault of its own (R432). An uncorrectable error has its effect in either case. -/
def State.faultTake (s0 : State) (r : FaultRep) : State :=
  let keep (x : FaultRep) : Bool := decide (s0.ctime.toNat < x.time + 60000000000)
  let s := ({ s0 with reports := takeOut r s0.reports }).modRas (fun y => { y with hist := y.hist.filter keep ++ [r] })
  let s1 := match s.mergeInto r with
    | some x =>
      let m := s.recPut x 18 11 (satN 8 (s.fld (recA x.slot + 16) 18 11 + 1))
      if s.ras.tests.contains x || decide (s.recClass x = 2) || !s.repeats r then m else m.lasting x
    | none =>
      let (n, s2) := s.recNew r
      if hasTest r.unit then
        let (was, s3) := s2.coreHold r
        (s3.unitFault r).modRas (fun y => { y with tests := y.tests ++ [({ slot := n, rep := r, was := was } : FaultRec)] })
      else s2.classify { slot := n, rep := r, was := none } false
  let s2 := s1.arrayError r
  if s2.deviceFault r then
    let d : FaultRep := { unit := 0x1B, index := r.index, loc := r.loc % 4 + r.loc / 2 ^ 24 % 32 * 4, sev := r.sev, detail := r.detail, time := r.time }
    let (n, s3) := s2.recNew d
    (s3.modRas (fun y => { y with hist := y.hist ++ [d] })).lasting { slot := n, rep := d, was := none }
  else s2

/-- FAULT_REPORT: a report arrives. -/
def execFaultReport (r : FaultRep) (s : State) : Out := .next (s.faultTake r)

/-- SELFTEST_END: the self-test of the record in a place ends. For a lockstepped pair the results are those of positions 0
and 1; when both fail the logical core takes ERR_CORE, with DETAIL kind 7 (Table 16.5). A near channel whose checkers or whose
retraining fails is FAILED (R81, R101). -/
def execSelftestEnd (i : Nat) (fail fail1 : Bool) (s : State) : Out :=
  .next (match s.ras.tests.find? (fun x => decide (x.slot = i)) with
    | none => s
    | some x =>
      let pair := s.lockStop x.rep
      let bad := fail || (pair && fail1)
      let s0 := (s.modRas (fun y => { y with tests := takeOut x y.tests })).recPut x 3 2 (if bad then 2 else 1)
      let s1 :=
        if x.rep.unit = 0x19 ∧ x.rep.index < 12 then s0.checkersTested x.rep.index bad
        else if x.rep.unit = 0x1C ∧ x.rep.index < 12 ∧ bad = true then s0.chFail x.rep.index (x.rep.loc % 8 % 7) 7
        else s0
      let s2 := match (if pair && fail && fail1 then s.carried x.rep.index else none) with
        | some n =>
          let s3 := s1.modCore n (fun k => { k with errCore := true })
          if s3.recHere x then s3.putFld (recA x.slot + 24) 15 12 7 else s3
        | none => s1
      s2.classify x bad)

/-! ## Core sparing (R437) -/

/-- Free spare positions of a die: (slot, position); for a pair, spare tiles. -/
def State.freeSlots (s : State) (d : Nat) : List (Nat × Nat) :=
  let used (j p : Nat) : Bool := s.flag (dseBase + 0x12000 + 8 * d) (16 * j + 10 + p)
  (List.range 4).flatMap (fun j =>
    if s.profile = 2 then (if used j 0 || used j 1 then [] else [(j, 0)])
    else (List.range 2).filterMap (fun p => if used j p then none else some (j, p)))

/-- The spare that sparing takes: of the core's own die, of die d XOR 1, then of the others in order. -/
def State.spareFor (s : State) (d : Nat) : Option (Nat × Nat × Nat) :=
  ((d :: (d ^^^ 1) :: (List.range 8).filter (fun x => decide (x ≠ d ∧ x ≠ d ^^^ 1))).flatMap
    (fun x => (s.freeSlots x).map (fun y => (x, y.1, y.2)))).head?

/-- TILE_SVC, TILE_PIPECFG, TILE_VPWR, TILE_L2CFG and the guest slots of a physical core copied to another (R437 step 4). -/
def State.copyPos (s : State) (old new : Nat) : State :=
  let a (p off stride : Nat) : Nat := tileBase (p / 2) + off + stride * (p % 2)
  let one (s : State) (off stride : Nat) : State := s.wrCsr (a new off stride) (s.rdCsr (a old off stride))
  let s1 := one (one (one (one s 0x10000 8) 0x10040 8) 0x100C0 8) 0x30000 8
  (List.range 1024).foldl (fun (s : State) i => one s (0x20000 + 8 * i) 0x2000) s1

/-- The lines of a physical core's L2. -/
def State.linesOf (s : State) (p : Nat) : List Nat :=
  (s.l2.filter (fun e => decide (e.1 / 2 ^ 42 = p) && decide (e.2.st ≠ .I))).map (fun e => e.1 % 2 ^ 42)

/-- A physical core drained and powered down as domain KIND 0 (R437 step 7). -/
def State.oldOff (s : State) (p : Nat) : State :=
  let s1 := s.giveBack p (s.linesOf p)
  let s2 := (s1.setProxy (physAgt p) 0 true).setProxy (physAgt p) 1 true
  { s2 with downDom := Map.set false s2.downDom p true }

/-- USED of the spare that a physical core is, when its tile is a spare (R18): set, or cleared unless the core is retired. -/
def State.spareUsed (s : State) (p : Nat) (used : Bool) : State :=
  match s.fuses.spares.findIdx? (fun t => decide (t = p / 2)) with
  | some i => s.putFlag (dseBase + 0x12000 + 8 * (i / 4)) (16 * (i % 4) + 10 + p % 2) (used || s.dse.retired.contains p)
  | none => s

/-- Logical core n moved to slot j, position p of die d; a core reset that it awaits moves with it (R30), and a spare that it
leaves is free again. -/
def State.spareTo (s : State) (n d j p : Nat) : State :=
  let old := s.physAll n
  let off := 2 * s.fuses.spares.getD (4 * d + j) 0 + p
  let new := old.zipIdx.map (fun x => off + x.2)
  let oldDie := dieOfTile (s.phys n / 2)
  let s1 := (s.setLcmap n (s.phys n) 2).modCore n (fun k => { k.pflush with resv := none, hold := none })
  let s2 := (old.zip new).foldl (fun (s : State) x =>
    let u := ((s.copyPos x.1 x.2).grantReturn (vecWho x.1)).tollTake (vecWho x.1)
    ((u.putFlag (crstA x.2) 0 (s.flag (crstA x.1) 0)).putFlag (crstA x.1) 0 false).spareUsed x.1 false) s1
  let moved := (old.zip new).foldl (fun (m : List (Nat × Nat)) x =>
    let o := ((m.find? (fun y => decide (y.2 = x.1))).map (fun y => y.1)).getD x.1
    (o, x.2) :: m.filter (fun y => decide (y.1 ≠ o))) s.dse.moved
  let s3 := (old.foldl (fun (s : State) x => s.oldOff x) s2).modDse (fun y => { y with moved := moved })
  let s4 := new.foldl (fun (s : State) x => s.putFlag (dseBase + 0x12000 + 8 * d) (16 * j + 10 + x % 2) true) s3
  let s5 := ((s4.setLcmap n off 1).modCore n (fun k => { k with run := if k.run = .stopped then .running else k.run })).ledger
    0x20 [n, s.phys n, off]
  (s5.settleDie oldDie).settleDie d

/-- Sparing begins (R437 steps 1 and 2): the core is MOVING, so that interrupt writes for it are held, and a running one stops. -/
def State.spareHold (s : State) (n : Nat) : State :=
  (if s.lcState n = 1 then s.setLcmap n (s.phys n) 2 else s).modCore n (fun k =>
    if k.run = .running ∨ k.run = .wfi then { k with run := .stopped, resv := none, hold := none } else k)

/-- Core sparing of a logical core, once its stores and requests have drained: whether a spare was left. -/
def State.spareCore (s : State) (n : Nat) : Option (Bool × State) :=
  if !s.quiet n then none
  else match s.spareFor (dieOfTile (s.phys n / 2)) with
    | some (d, j, p) => some (true, s.spareTo n d j p)
    | none => some (false, (s.setLcmap n (s.phys n) 3).modCore n (fun k => { k with run := .offline, resv := none, hold := none }))

/-- Physical cores retired for good (R17); those of a spare tile count as used (R18). -/
def State.retireCores (s : State) (ps : List Nat) : State :=
  ps.foldl (fun (s : State) p => s.spareUsed p true) (s.modDse (fun y => { y with retired := (y.retired ++ ps).eraseDups }))

/-! ## Actions -/

/-- The running action, when it is one of a kind and its report names the target: f answers the ACTION, the RESULT and the
state, or the state in which it goes on waiting. -/
def State.onAction (s : State) (kind : Nat) (tgt : FaultRep → Bool) (f : FaultRec → Except State (Nat × Nat × State)) : State :=
  match s.ras.running with
  | none => s
  | some x =>
    if s.actOf x = kind ∧ tgt x.rep = true then
      match f x with
      | .ok (a, r, s1) => s1.actEnd x a r
      | .error s1 => s1
    else s

/-- CORE_SPARE: the faulty core's logical core moves to a spare, or goes OFFLINE; after an error trap it is then reset
(R437 to R439). -/
def execCoreSpare (c : CoreId) (s : State) : Out :=
  .next (s.onAction 2 (fun r => s.coreOf r = some c.val) (fun x =>
    let n := c.val
    let old := s.physAll n
    match s.spareCore n with
    | none => .error (s.spareHold n)
    | some (true, s1) =>
      let s2 := s1.retireCores old
      if s.trapStop x.rep then .ok (14, 0, s2.crstGo n) else .ok (2, 0, s2)
    | some (false, s1) => .ok (15, 5, s1.retireCores old)))

/-- A line's data moved to another way of its set, its own being disabled. -/
def State.moveWay (s : State) (l : Nat) : State :=
  let d := s.dline l
  if d.way = .none then s else (s.modDir l (fun d => { d with way := .none, wn := 0 })).setWay l d.way

/-- Locked lines of the way that is retired: unlocked, then locked again with the way excluded; whether one lost its lock
(R440). -/
def State.relock (s : State) (t : Nat) : List Nat → Bool × State
  | [] => (false, s)
  | l :: ls =>
    let s1 := ((s.modDir l (fun d => { d with lock := false })).moveWay l).lockLine t l
    let r := State.relock s1 t ls
    (r.1 || decide (s1.fld (tileBase t + 0x40018) 3 1 = 1), r.2)

/-- WAY_RETIRE: the WAYDIS bit of the way; with fewer than 4 ways left the whole L2, or the slice with cutover (R440). -/
def execWayRetire (t : TileId) (which : Fin 3) (way : Fin 16) (s : State) : Out :=
  .next (s.onAction 3
    (fun r => r.loc % 16 = way.val && (if which.val < 2 then r.unit = 3 && r.index = 2 * t.val + which.val else r.unit = 8 && r.index = t.val))
    (fun _ =>
      if which.val < 2 then
        let a := tileBase t + 0x30000 + 8 * which.val
        let old := s.rdCsr a
        let new := if 12 ≤ popcount (bitsN old 15 0) then putB old 16 true else putB old way.val true
        .ok (3, 0, (s.l2cfgWrite (wr8 a new s.dseReq)).2.noteGone [3, t.val, which.val, way.val])
      else
        let a := tileBase t + 0x40000
        if 12 ≤ popcount (s.fld a 15 0) then .ok (3, 0, (s.sliceOff t).noteGone [4, t.val])
        else
          let (lost, s2) := ((s.putFlag a way.val true).putFlag (a + 8) 0 true).relock t (s.lockedIn t way)
          .ok (3, if lost then 2 else 0, s2.noteGone [3, t.val, 2, way.val])))

/-- SLICE_DISABLE: the slice is disabled with cutover (R134). -/
def execSliceDisable (t : TileId) (s : State) : Out :=
  .next (s.onAction 4 (fun r => r.index = t.val) (fun _ => .ok (4, 0, (s.sliceOff t).noteGone [4, t.val])))

/-- ROW_SPARE: the DSE starts the sparing of the row that the report names (R102); `value` is what it writes to NMC_SPARE. -/
def execRowSpare (ch : HomeId) (value : Word) (s : State) : Out :=
  .next (match s.ras.running with
    | none => s
    | some x =>
      let a := chBase ch + 0x6000
      if s.actOf x = 5 ∧ x.rep.index = ch.val ∧ x.rep.loc % 2 ^ 24 = bitsN value 23 0 ∧ s.flag a 24 = false then
        (s.spareWrite (wr8 a (putB (BitVec.ofNat 64 (bitsN value 23 0)) 24 true) s.dseReq)).2
      else s)

/-- ROW_SPARE_DONE: the sparing that START began ends, and with it the action that started it; SPARE_FAIL has the RESULT of
NO_SPARE. -/
def execRowSpareDone (ch : HomeId) (ok : Bool) (lines : List (Fin 128 × DramEnv)) (s : State) : Out :=
  .next (
    let a := chBase ch + 0x6000
    if s.flag a 24 then
      let row := s.fld a 23 0
      let (st, s1) := s.spareEnd ch ok lines
      match s.ras.running with
      | some x => if s.actOf x = 5 ∧ x.rep.index = ch.val ∧ x.rep.loc % 2 ^ 24 = row then s1.actEnd x 5 (if st = 0 then 0 else 1) else s1
      | none => s1
    else s)

/-- REGION_CONVERT: VALID of the channel's light regions is cleared, one conversion after the other (R443, R85). -/
def execRegionConvert (ch : HomeId) (s : State) : Out :=
  .next (match s.ras.running with
    | none => s
    | some x =>
      if s.actOf x = 6 ∧ x.rep.index = ch.val then
        match (List.range 16).find? (fun r => bitB (s.nregion ch r) 32 && bitB (s.nregion ch r) 33) with
        | some r =>
          if s.flag (chBase ch + 0x1080) 4 then s
          else (s.regionWrite (wr8 (chBase ch + 0x1000 + 8 * r) (putB (s.nregion ch r) 32 false) s.dseReq)).2
        | none => s.actEnd x 6 0
      else s)

/-- Whether the route from a router to another takes a hop, a router and its output, under the epoch in force. -/
def State.passes (s : State) (dst : Nat) (hop : Nat → Nat → Bool) : Nat → Nat → Bool → Bool
  | 0, _, _ => false
  | n + 1, r, leg =>
    let (out, leg1) := s.routeOf r (s.flag (meshCtl r) 0) leg dst
    hop r out || (match neighbour r out with
      | some x => State.passes s dst hop n x leg1
      | none => false)

/-- MESH_RCHG of every router: the destinations whose route to it passes a router, or a link, that leaves service (R442). -/
def State.writeRchg (s : State) (hop : Nat → Nat → Bool) : State :=
  routers.foldl (fun (s' : State) r =>
    (List.range 9).foldl (fun (s' : State) w =>
      s'.wrCsr (routerBase r + 0x51A00 + 8 * w)
        (BitVec.ofNat 64 ((List.range 64).map (fun j => if s.passes r hop 600 (64 * w + j) false then 2 ^ j else 0)).sum)) s') s

/-- A router leaves service: at once when it has stopped, else with COMMIT, forwarding until then (R165, R441). -/
def State.takeOut (s : State) (r : Nat) (stopped : Bool) : State :=
  let s1 := s.writeRchg (fun x _ => decide (x = r))
  if stopped then s1.routerOut r
  else { s1 with sweepAt := s.ctime.toNat, leaving := if s.leaving.contains r then s.leaving else s.leaving ++ [r] }

/-- What becomes of the agents of a stop whose router leaves service (Table 16.7). -/
def State.stopLost (s : State) (r : Nat) : State :=
  let d := r % 36 / 35
  let st := r / 36
  if st < 8 then (List.range 4).foldl (fun (s : State) k => s.report 0x21 (32 * d + 4 * st + k) 0 2 0) s
  else if st < 14 then s.report 0x1C (6 * d + (st - 8)) 7 2 0
  else if st = 14 then s.flrStart d
  else if d = 1 then s.putFlag dseBase 7 false
  else s.report 0x30 0 0 2 0

/-- ROUTE_AROUND: a faulty link is blocked at both ends; a faulty router leaves service, its agents by Table 16.7 (R441).
The report of a link names its side, 1 to 4. -/
def execRouteAround (r : RouterId) (s : State) : Out :=
  .next (s.onAction 7 (fun x => x.index = r.val) (fun x =>
    let v := r.val
    let side := x.rep.loc % 8
    let stopped := decide (x.rep.sev = 2)
    if 1 ≤ side ∧ side ≤ 4 ∧ x.rep.sev ≠ 2 then
      let link (r out : Nat) : Bool := (decide (r = v) && decide (out = side)) ||
        (decide (neighbour v side = some r) && decide (out = opposite side))
      .ok (7, 0, { ((s.writeRchg link).linkOff v side).noteGone [8, v, side] with sweepAt := x.rep.time })
    else if !isTileRouter v then .ok (7, 0, ((s.takeOut v stopped).stopLost v).noteGone [7, v])
    else
      let t := tileOfRouter v
      if stopped then .ok (7, 4, (((s.takeOut v true).redirect t).noteGone [7, v]).warmRequest)
      else
        let ns := ((s.carried (2 * t)).toList ++ (s.carried (2 * t + 1)).toList).eraseDups
        if ns.any (fun n => !s.quiet n) then .error (ns.foldl State.spareHold s)
        else
          let s1 := ns.foldl (fun (s : State) n => match s.spareCore n with
            | some (_, s1) => s1
            | none => s) s
          .ok (7, 0, (((s1.sliceOff t).takeOut v false).noteGone [7, v]).retireCores [2 * t, 2 * t + 1])))

/-- LANE_DEGRADE: the lane is out, and the port retrains at the widest good width; a CXL memory port below x4 goes DOWN
(R310). A width of 4 says that the partner accepts lane reversal. -/
def execLaneDegrade (p : PortId) (width : BitVec 4) (s : State) : Out :=
  .next (s.onAction 8 (fun x => x.index = p.val) (fun x =>
    let a := prtBase p + 8
    let s1 := (s.putFlag a (11 + x.rep.loc % 8) false).noteGone [18, p.val, x.rep.loc % 8]
    let w := min (widestOf (s1.fld a 18 11) (decide (width = 4))) (s.fld a 10 7)
    let s2 := s1.portFault p 0x0B 0 0 0 0
    if w = 0 ∨ (s.portMode p = 1 ∧ w < 4) then .ok (8, 0, (s2.linkDrop p).ledger 0x24 [p.val, 0])
    else .ok (8, 0, ((((s2.putFld a 10 7 w).putFlag a 20 (decide (w < maxLanes (s.fld (prtBase p) 6 5)))).putFld a 36 21
      (satN 16 (s.fld a 36 21 + 1))).linkRetry p).ledger 0x24 [p.val, w])))

/-- A channel that failed in the assurance profile: its partner is SINGLE and hosts its home functions, and its outstanding
reads are made again there (R108). -/
def State.chanOver (s : State) (c : Nat) : State :=
  let p := c ^^^ 1
  let lo := s.layout.nearLo.getD c 0
  let up := s.layout.nearHi.getD c 0 - lo
  let reads := ((s.nch c).reads.map (fun x => (x.1, x.2.1 + up, x.2.2)))
  let s1 := { s.putFld (chBase c) 23 20 3 with pins := { s.pins with drst := Map.set false s.pins.drst c false } }
  let s2 := ((s1.modNch c (fun n => { n with reads := [], merge := [] })).modNch p (fun n => { n with reads := n.reads ++ reads })).putFld
    (chBase p + 0x7000) 7 0 (2 + c * 4)
  (List.range 12).foldl (fun (s : State) h => if s.hostCh h = c then s.setHomemap h p else s) (s2.putFld (chBase c + 0x7000) 1 0 0)

/-- A far port that failed in the assurance profile: its partner is SINGLE (R110). -/
def State.portOver (s : State) (p : Nat) : State :=
  let a (x : Nat) : Nat := portBase x + 0x7000 + 8 * (x % 4)
  let s1 := if s.portLink p = 5 ∨ s.portLink p = 0 then s else s.linkDrop p
  ((s1.putFld (a (p ^^^ 1)) 7 0 (2 + p * 4)).putFld (a p) 1 0 0)

/-- MIRROR_FAILOVER: service moves to the surviving copy, of a channel or of a port (R108, R110). -/
def execMirrorFailover (port : Bool) (i : Fin 64) (s : State) : Out :=
  .next (s.onAction 9 (fun r => r.index = i.val && (r.unit = 0x21) == port) (fun _ =>
    if port then .ok (9, 0, s.portOver i)
    else if i.val < 12 then .ok (9, 0, s.chanOver i)
    else .error s))

/-- The directory pages and blocks of a home function in a sector frame moved to other sectors (R444). -/
def State.moveOut (s : State) (p ff : Nat) : State :=
  let h := match s.far p ff with
    | .sectors h _ => h
    | _ => 12
  let mine (f : Nat) : Bool := decide (eKind (s.entry f) = 3 ∧ ePort (s.entry f) = p)
  let blocks := s.dirPages.filter (fun e => mine (e.1 / 512) && decide (dKind e.2 = 1 ∨ dKind e.2 = 2) && decide (dSector e.2 / 4096 = ff))
  let pages := s.remap.filter (fun e => mine e.1 && decide (8 * eLoc e.2 / 4096 = ff))
  let s1 := s.setFar p ff .withheld
  let s2 := blocks.foldl (fun (s : State) e => match s.allocSec h p (dNsec e.2) false with
    | some (sec, s1) => s1.setDirEnt (e.1 / 512) (e.1 % 512) (mkDirEnt (dKind e.2) (dNsec e.2) sec)
    | none => s) s1
  pages.foldl (fun (s : State) e => match s.allocSec h p 8 true with
    | some (sec, s1) => s1.setEntry e.1 (putW (s1.entry e.1) 47 18 (sec / 8))
    | none => s) s2

/-- The frame whose data or directory a far line belongs to. -/
def State.frameAt (s : State) (p ff sec : Nat) : Option Nat :=
  (s.framesWhere (fun f e =>
    ePort e = p &&
      ((eKind e = 2 && eLoc e = ff) ||
       (eKind e = 3 && (8 * eLoc e ≤ sec && sec < 8 * eLoc e + 8 ||
         (s.dirBlocks f).any (fun b => (dKind b.2 = 1 || dKind b.2 = 2) && dSector b.2 ≤ sec && sec < dSector b.2 + dNsec b.2)))))).head?

/-- FRAME_RETIRE: the frame of the faulty line migrates, and the far frame is withheld from the pool; F falls by 1 (R444). -/
def execFrameRetire (p : PortId) (ff : Nat) (s : State) : Out :=
  .next (s.onAction 10 (fun r => r.index = p.val && r.detail / 2 ^ 21 = ff) (fun x =>
    let fr := s.frameAt p ff (x.rep.detail / 512)
    let s1 := s.noteGone [10, p.val, ff]
    let s2 := match s.far p ff with
      | .free => s1.setFar p ff .withheld
      | .sectors _ _ => s1.moveOut p ff
      | _ => s1
    let s3 := s2.setFarCap (s2.fld capFarA 27 0 - 1)
    let s4 := match fr with
      | some f => s3.pushAct (f % 12) { frame := f, dest := 1, port := none, auto := false, cmd := none }
      | none => s3
    .ok (10, 0, s4)))

/-- UNIT_RETIRE: an engine unit takes no further job, or a set of the I/O TLB misses always (R446). -/
def execUnitRetire (d : IoDie) (u : Nat) (s : State) : Out :=
  .next (s.onAction 11 (fun r => if r.unit = 0x28 then r.index = 32 * d.val + u else r.index = d.val) (fun x =>
    if x.rep.unit = 0x28 then .ok (11, 0, ((s.unitOff d u).unitFault { x.rep with sev := 2 }).noteGone [11, d.val, u])
    else .ok (11, 0, s.noteGone [12, d.val, x.rep.loc])))

/-- HOME_FENCE: every request for the frames of a home function on a failed channel ends with DOMAIN_OFFLINE (R443). -/
def execHomeFence (h : HomeId) (s : State) : Out :=
  .next (match s.ras.running with
    | none => s
    | some x =>
      let c := x.rep.index
      if s.actOf x = 13 ∧ s.hostCh h = c then
        let s1 := (s.modHome h (fun y => { y with fenced := true })).putFld (chBase c) 23 20 3
        let s2 := { s1 with pins := { s1.pins with drst := Map.set false s1.pins.drst c false } }
        if (List.range 12).all (fun g => decide (s2.hostCh g ≠ c) || (s2.home g).fenced) then s2.actEnd x 13 4 else s2
      else s)

/-! ## Timeouts (R442, R448, Table 16.8) -/

/-- A request ends without its response: its requester goes on as with a response of status TIMEOUT, or ATOMIC_UNKNOWN for
a far atomic, and its TXID is stale. -/
def State.timedOut (s : State) (q : Pkt) : State :=
  let unknown := decide (q.op = .FAtom ∨ q.op = .HAtom ∨ q.op = .PAtom)
  let r : Pkt := { rsp q (answerOp q.op) (if unknown then 6 else 4) with data := BitVec.allOnes 512, poison := true }
  let l := q.line
  let s1 :=
    if isL2 q.src then
      (if q.op = .PutS ∨ q.op = .PutE ∨ q.op = .PutM then
        (s.setL2 (agtPhys q.src) l { s.l2line (agtPhys q.src) l with evb := none }).endTx r
       else s.l2Fill r)
    else if isSlice q.src then
      (if q.op = .HPut then (((s.modDir l (fun d => { d with evb := none })).setWay l .dirty).sliceDone l).endTx r else s.homeAns r)
    else if isHome q.src then s.portAns r
    else s.endTx r
  { s1 with stale := Map.set false s1.stale (txKey q.src q.txid) true }

/-- A slice stops waiting for private copies of a line: the line is poisoned in a data way, every private copy is invalidated,
and the request goes on. -/
def State.sliceLost (s : State) (l : Nat) : State :=
  match (s.dline l).busy with
  | none => s
  | some (_, .home) => s
  | some (q, ph) =>
    let s1 := (((s.loseOthers 1088 l (s.dline l).st.copies).setPoison l true).modDir l (fun d => { d with st := .U, busy := none })).setWay l .dirty
    match ph with
    | .wbdata => s1.sliceDone l
    | _ => (s1.sliceServe l q).sliceDone l

/-- The unit that a timeout names (R448): the destination's. -/
def State.timeoutUnit (a : Agt) : Nat × Nat :=
  if isL2 a then (0x03, agtPhys a)
  else if isSlice a then (0x09, tileOfRouter a.router)
  else if isHome a then (0x18, agtCh a)
  else if !isTileRouter a.router && decide (a.router / 36 < 8) && decide (a.agent < 4) then (0x21, agtPort a)
  else (0x10, a.router)

/-- The time that a request of an opcode has, in ns: by the level of its response (Table 16.10). -/
def State.timeFor (s : State) (o : Op) : Nat :=
  (match clsNo (opCls o) with
    | 0 => s.fld (rasBase + 8) 17 10
    | 1 => s.fld (rasBase + 8) 25 18
    | _ => s.fld (rasBase + 8) 37 26) * 1000000

/-- A broadcast that times out (R448): it is ended, and the routers at which it stopped, found by count queries, are reported: those
that have not sent their BACK although every child has. -/
def State.bcastLost (s : State) (b : Bcast) : State :=
  let s1 := { s with bcasts := s.bcasts.filter (fun x => decide (x.id ≠ b.id)) }
  let s2 := match b.origin with
    | some c => s1.modCore c (fun k => { k with bcasts := k.bcasts.filter (fun x => decide (x ≠ b.id)) })
    | none => s1
  let oos := s.oosList
  let at' := routers.filter (fun r => !oos.contains r && !b.sent.contains r && (bcKids oos b.root r).all (fun x => b.sent.contains x))
  at'.foldl (fun (s : State) r => s.report 0x10 r 0 3 0) s2

/-- REQUEST_TIMEOUT: a request, a snoop or a broadcast has exceeded its time of Table 16.10; it ends by Table 16.8, and the
destination's unit is reported (R448). -/
def execRequestTimeout (p : Pkt) (s : State) : Out :=
  .next (
    let (u, i) := State.timeoutUnit p.dst
    let now := s.ctime.toNat
    if p.op = .BCAST then
      match s.bcasts.find? (fun b => decide (b.id = p.data.toNat)) with
      | some b => if b.sentAt + s.fld (rasBase + 8) 47 38 * 1000 ≤ now then s.bcastLost b else s
      | none => s
    else if opIsReq p.op then
      match Map.get none s.reqs (txKey p.src p.txid) with
      | some q =>
        if Map.get 0 s.reqAt (txKey p.src p.txid) + s.timeFor q.op ≤ now then (s.timedOut q).report u i 0 3 q.addr else s
      | none => s
    else if p.op = .SnpS ∨ p.op = .SnpX ∨ p.op = .Inv ∨ p.op = .WbData then
      (if (s.dline p.line).busy.isSome ∧ Map.get 0 s.busyAt p.line + s.fld (rasBase + 8) 9 0 * 1000 ≤ now then
        (s.sliceLost p.line).report u i 0 3 p.addr
       else s)
    else s)

/-- Whether a route between a router and a destination passed the router that left service (MESH_CHG, MESH_RCHG). -/
def State.swept (s : State) (r d : Nat) : Bool := s.chg r d || s.flag (routerBase r + 0x51A00 + 8 * (d / 64)) (d % 64)

/-- SWEEP: the transactions issued before the failure whose destination lay behind the router that left service end by Table 16.8, and so do those
that a slice awaits from such a partner (R442). -/
def execSweep (s : State) : Out :=
  .next (
    let qs := s.reqs.filterMap (fun e => e.2)
    let s1 := qs.foldl (fun (s' : State) q => if s.swept q.src.router q.dst.router && decide (Map.get 0 s.reqAt (txKey q.src q.txid) < s.sweepAt) then s'.timedOut q else s') s
    let ls := (s1.dir.filter (fun e => e.2.busy.isSome && decide (Map.get 0 s.busyAt e.1 < s.sweepAt) && e.2.st.copies.any (fun o =>
      s.swept (routerOfTile (s.sliceOf e.1)) (routerOfTile (o / 2))))).map (fun e => e.1)
    ls.foldl (fun (s : State) l => s.sliceLost l) s1)

/-! ## Lockstep (R282 to R284) -/

/-- A mismatch or a divergence of a pair (Table 9.9): both cores execute again, STREAK counts, and at 3 the pair stops and the
DSE is told. -/
def State.lockEvent (s : State) (c : Nat) (pc : Word) (div : Bool) : State :=
  let t := s.tileOf c
  let a := t + 0x10080
  let (hi, lo) := if div then (31, 16) else (15, 0)
  let n := s.fld a 33 32 + 1
  let s1 := ((s.putFld a hi lo (satN 16 (s.fld a hi lo + 1))).putFld a 33 32 n).wrCsr (t + 0x10088) pc
  let s2 := if div then s1 else s1.count c [0x1D] (s.core c).pl (s.core c).vf
  if n = 3 then
    ((s2.putFlag a 34 true).modCore c (fun k => { k with run := .stopped, resv := none })).report 0x01 (s.phys c) 0 2 0
  else s2

/-- LOCKSTEP_MISMATCH: the retirement signatures of a pair differ. -/
def execLockstepMismatch (c : CoreId) (pc : Word) (s : State) : Out :=
  .next (if s.profile = 2 ∧ (s.core c).run = .running then s.lockEvent c pc false else s)
/-- PORT_DIVERGENCE: the outgoing packets of a pair's L2s differ. -/
def execPortDivergence (c : CoreId) (pc : Word) (s : State) : Out :=
  .next (if s.profile = 2 ∧ (s.core c).run = .running then s.lockEvent c pc true else s)

/-- STORE_WAIT_CLEAR: the store-wait table is cleared (R276). -/
def execStoreWaitClear (c : CoreId) (s : State) : Out := .next (s.modCore c (fun k => { k with swait := [] }))

end Sys2Proof.Machine
end

