-- ==== Sys2Proof/Machine/Dse.lean ====
section
/-! DEFINITION. The commands that the service engine carries out (R410, R417, R421, R425, R426, R428, R429, R336, R437,
Table 15.6), its heartbeat and the takeover (R406, R407). -/

namespace Sys2Proof.Machine
open Sys2Proof

/-! ## Keys (R420, R421) -/

/-- BAD_STATE for a key change: 128 changes made, or VPP_FUSE out of range (R421, R457). -/
def State.keyState (s : State) (vpp : Bool) : Nat := if 128 ≤ s.fuses.ksver ∨ vpp = false then 7 else 0

/-- A key of the payload's role and index changed, and its ledger record. -/
def State.keyChange (s : State) (m : DseMsg) (b : List Byte) (type st : Nat) (key : List Byte) : State :=
  let p := cmdPay b
  let s1 := s.ksChange (at' p 0 1) (at' p 1 1) st key
  s1.ledgerBy type (cmdActor m.via b) (cmdKey b) ([at' p 0 1, at' p 1 1, s1.fuses.ksver] ++
    (List.range 4).map (fun i => at' (pad key 32) (8 * i) 8))

/-- ENROLL_KEY: the payload's key takes its entry. -/
def execEnrollKey (m : DseMsg) (s : State) : Out :=
  .next (s.command m 1 (fun _ => s.keyState m.vpp) (fun b s => (0, s.keyChange m b 0x12 1 ((cmdPay b).drop 8))))
/-- REVOKE_KEY: the entry is marked revoked; its key stays in it. -/
def execRevokeKey (m : DseMsg) (s : State) : Out :=
  .next (s.command m 2 (fun _ => s.keyState m.vpp)
    (fun b s => (0, s.keyChange m b 0x13 2 (s.ksKey (at' (cmdPay b) 0 1) (at' (cmdPay b) 1 1)))))

/-! ## Images (R410, R414 to R417) -/

/-- The image that a payload names: from memory by address and length, or, in RECOVERY, from the command stream after the
command. The status of the read, and the bytes. -/
def State.imageOf (s : State) (b : List Byte) (max : Nat) : Nat × List Byte :=
  let adr := at' (cmdPay b) 0 8
  let len := at' (cmdPay b) 8 8
  if s.stage = 14 then
    (0, (b.drop (0x20 + cmdLen b + (if cmdRole b = 0xFF then 0 else 64))).take len)
  else if max < len then (8, [])
  else if (s.dmaRead adr len).1 ≠ 0 then (9, [])
  else (0, (List.range len).map (fun i => s.rdByte (adr + i)))

/-- The reads of the image that a payload names, as its home agents see them (R48). -/
def State.imageSeen (s : State) (b : List Byte) : State :=
  if s.stage = 14 then s else s.dmaSeen s.dseA (at' (cmdPay b) 0 8) (at' (cmdPay b) 8 8)

/-- A firmware image whole and valid. -/
def State.fwWhole (s : State) (img : List Byte) : Bool := decide (256 + at' img 0x0C 4 ≤ img.length) && s.fwOk img

/-- FW_UPDATE: a verified image is written to the slot that does not run; in RECOVERY to slot A, and the DSE starts cold. -/
def execFwUpdate (m : DseMsg) (s : State) : Out :=
  .next (s.command m 3
    (fun b => match s.imageOf b 0x200000 with
      | (0, img) => if s.fwWhole img then 0 else 8
      | (st, _) => st)
    (fun b s =>
      let img := (s.imageOf b 0x200000).2
      let put (s : State) (i : Nat) : State := (s.flErase (fwA i) 0x200000).flPut (fwA i) (img.take (256 + at' img 0x0C 4))
      if s.stage = 14 then (0, (put s 0).coldReset) else (0, put (s.imageSeen b) (1 - s.fld dseBase 13 13))))

/-- SEQ of a settings image in flash; an image without MAGIC counts below every SEQ. -/
def State.setSeq (s : State) (i : Nat) : Nat :=
  let h := s.fl (setA i) 16
  if at' h 0 4 = 0x5A4E5354 then at' h 8 4 + 1 else 0

/-- SETTINGS_UPDATE: a valid image overwrites the one with the lower SEQ. -/
def execSettingsUpdate (m : DseMsg) (s : State) : Out :=
  .next (s.command m 4
    (fun b => match s.imageOf b 0x40000 with
      | (0, img) => if 128 + at' img 0x0C 4 ≤ img.length ∧ s.setFail img = none then 0 else 8
      | (st, _) => st)
    (fun b s =>
      let img := (s.imageOf b 0x40000).2
      let i := if s.setSeq 0 ≤ s.setSeq 1 then 0 else 1
      (0, ((s.imageSeen b).flErase (setA i) 0x40000).flPut (setA i) (img.take (128 + at' img 0x0C 4)))))

/-! ## Ports and cores (R336, R437) -/

/-- The ports that a command names: in the assurance profile both ports of the pair (R336). -/
def State.cmdPorts (s : State) (b : List Byte) : List Nat :=
  let p := at' (cmdPay b) 0 1
  if s.profile = 2 then [p / 2 * 2, p / 2 * 2 + 1] else [p]

/-- PORT_ADD: an empty CXL memory port with a device is powered and trained, and its device's frames join the far pool;
`e` is how it trains. A port that fails to train ends the command with BAD_STATE. -/
def execPortAdd (m : DseMsg) (e : TrainEnv) (s : State) : Out :=
  .next (s.command m 6
    (fun b => if (s.cmdPorts b).all (fun p => decide (s.portMode p = 1) && (s.port p).present &&
        decide (s.portLink p = 0 ∨ s.portLink p = 5) && !s.counted p) then 0 else 7)
    (fun b s =>
      let ps := s.cmdPorts b
      let up (s : State) (p : Nat) : State :=
        (((if (s.port p).power then s else s.slotOn p).modPort p (fun x => { x with perst := false })).setLink p 1).trained p e
      let s1 := ps.foldl up s
      if ps.all (fun p => decide (s1.portLink p = 2)) then
        let s2 := s1.addFrames (ps.headD 0) (capFrames e.capacity)
        (0, if s.profile = 2 then ps.foldl (fun (s : State) p =>
          (s.putFld (portBase p + 0x7000 + 8 * (p % 4)) 1 0 1).putFld (portBase p + 0x7000 + 8 * (p % 4)) 7 2 (p ^^^ 1)) s2 else s2)
      else (7, s1)))

/-- PORT_REMOVE: the slot of an evacuated CXL memory port is powered off. -/
def execPortRemove (m : DseMsg) (s : State) : Out :=
  .next (s.command m 7
    (fun b => if (s.cmdPorts b).all (fun p => decide (s.portMode p = 1) && !s.counted p) then 0 else 7)
    (fun b s => (0, (s.cmdPorts b).foldl (fun (s : State) p => if (s.port p).power then s.slotOff p else s) s)))

/-- SPARE_CORE: an ACTIVE logical core moves to a spare once its stores and requests have drained; without one it goes
OFFLINE. -/
def execSpareCore (m : DseMsg) (s : State) : Out :=
  let b := s.cmdBytes m.via
  let n := at' (cmdPay b) 0 2
  let moving := decide (s.lcState n = 2) && !(s.ras.running.any (fun x => decide (s.coreOf x.rep = some n)))
  let bad := decide (s.lcState n ≠ 1) && !moving
  if s.dse.cmdQ.head? = some m.via.val ∧ cmdOp b = 8 ∧ s.cmdCheck m.via b = 0 ∧ bad = false ∧ s.quiet n = false then .next (s.spareHold n)
  else .next (s.command m 8 (fun _ => if bad then 7 else 0) (fun _ s => (0, ((s.spareCore n).getD (false, s)).2)))

/-! ## Attestation (R426) -/

/-- The bytes of M_CONFIG's registers. -/
def State.configBytes (s : State) : List Byte :=
  let w (a : Nat) : List Byte := bytesOf (s.rdCsr a).toNat 8
  (List.range 1024).flatMap (fun n => w (dseBase + 0x10000 + 8 * n)) ++ (List.range 8).flatMap (fun d => w (dseBase + 0x12000 + 8 * d)) ++
    (List.range 64).flatMap (fun p => w (prtBase p)) ++ (List.range 12).flatMap (fun c => w (chBase c))

/-- The valid key store copy, as it stands in flash. -/
def State.ksCopy (s : State) : List Byte :=
  match s.ksValid with
  | some i => s.fl (ksA i) 432
  | none => []

/-- The quote of Table 15.7 for a requester's nonce. -/
def State.quoteOf (s : State) (nonce : List Byte) : List Byte :=
  let f := s.fuses
  let hash (l : List Byte) : List Byte := if l = [] then List.replicate 64 0 else pad (Config.sha512 l) 64
  let body := bytesOf 1 2 ++ bytesOf 1 2 ++ bytesOf 512 4 ++ bytesOf f.serial 8 ++ pad nonce 32 ++ bytesOf s.ctime.toNat 8 ++
    [f.lifecycle, s.profile, if f.assurance then 1 else 0, s.fld dseBase 13 13, s.fld dseBase 20 14, f.svn, f.ksver, 0].map (BitVec.ofNat 8) ++
    pad s.dse.fwDigest 64 ++ pad s.dse.setDigest 64 ++ hash s.ksCopy ++ bytesOf s.ledSeq 8 ++
    (List.range 8).flatMap (fun i => bytesOf (s.rdCsr (dseBase + 0x308 + 8 * i)).toNat 8) ++ hash s.configBytes ++ List.replicate 56 0
  body ++ pad (Config.ed25519Sign s.dse.aliasKey body) 64

/-- QUOTE: the response is the signed quote. -/
def execQuote (m : DseMsg) (s : State) : Out :=
  .next (s.command m 9 (fun _ => 0) (fun b s => (0, s.dseRespond m.via (s.quoteOf (cmdPay b)))))

/-- CERT_READ: the response is the identity certificate and the alias certificate. -/
def execCertRead (m : DseMsg) (s : State) : Out :=
  .next (s.command m 0x0C (fun _ => 0) (fun _ s => (0, s.dseRespond m.via (s.idCert ++ s.dse.aliasCert))))

/-- LEDGER_READ: the response is the records that flash holds from the first SEQ on, up to the count. -/
def execLedgerRead (m : DseMsg) (s : State) : Out :=
  .next (s.command m 0x0B (fun _ => 0) (fun b s =>
    let recs := (spanN (at' (cmdPay b) 0 8) (at' (cmdPay b) 8 8)).map s.ledRec
    (0, s.dseRespond m.via ((recs.takeWhile Option.isSome).flatMap (fun r => r.getD [])))))

/-! ## Readback (R429, Table 15.10) -/

/-- Whether an agent answers no readback: fenced, proxied, or its router out of service. -/
def State.noAnswer (s : State) (a : Agt) : Bool := s.fencedAgt a.router a.agent || s.flag (meshCtl a.router) 2

/-- Words while a function answers them: at most n from i on; the status of the first that fails. -/
def wordsFrom (f : Nat → Option Word) : Nat → Nat → Nat × List Word
  | _, 0 => (0, [])
  | i, n + 1 =>
    match f i with
    | some w => let r := wordsFrom f (i + 1) n; (r.1, w :: r.2)
    | none => (2, [])

/-- Words of a byte list. -/
def wordsOf (l : List Byte) : List Word := (List.range ((l.length + 7) / 8)).map (fun i => BitVec.ofNat 64 (at' l (8 * i) 8))

/-- The fuses other than UDS, in the order of Table 15.4; a count of burned bits is that many low ones. -/
def Fuses.words (f : Fuses) : List Word :=
  let burned (n : Nat) : Nat := 2 ^ n - 1
  wordsOf (pad f.makerHash 64) ++ [f.serial, if f.assurance then 1 else 0, burned f.lifecycle, burned f.svn, burned f.ksver,
    burned f.ksver / 2 ^ 64].map (BitVec.ofNat 64) ++
    wordsOf (bytesOf ((f.spares.zipIdx.map (fun x => x.1 % 1024 * 1024 ^ x.2)).sum) 40)

/-- An item's status and words, at most `room` of them. -/
def State.readItem (s : State) (kind count index room : Nat) : Nat × List Word :=
  let n := min count room
  let part (l : List Word) : Nat × List Word := (0, l.take (if count = 0 then room else n))
  match kind with
  | 0 =>
    let a := s.csrAgt index
    let router := (match region index with
      | .tile _ off => decide (0x50000 ≤ off ∧ off < 0x60000)
      | .stop _ _ off => decide (0x50000 ≤ off ∧ off < 0x60000)
      | _ => false)
    if !router && s.noAnswer a then (3, [])
    else if index % 8 ≠ 0 then (2, [])
    else wordsFrom (fun i => s.csrWord (index + 8 * i)) 0 n
  | 1 =>
    let h := index % 16
    if 12 ≤ h then (2, [])
    else if s.noAnswer { router := routerOfCh (s.hostCh h), agent := 0 } || (s.home h).fenced then (3, [])
    else wordsFrom (fun i => if i < 43 * 2 ^ 18 then some (s.entry (12 * i + h)) else none) (index / 256 % 2 ^ 24) n
  | 2 =>
    let p := index % 64
    let page := index / 64 % 2 ^ 33
    if s.noAnswer { router := routerOfPort p, agent := p % 4 } then (3, [])
    else if s.portLink p ≠ 2 then (5, [])
    else match (s.framesWhere (fun _ e => decide (eKind e = 3 ∧ ePort e = p ∧ eLoc e = page))).head? with
      | some f => wordsFrom (fun i => if i < 512 then some (s.dirEnt f i) else none) 0 n
      | none => (2, [])
  | 3 =>
    let p := index % 2 ^ 11
    if 1088 ≤ p then (2, [])
    else if s.noAnswer (physAgt p) then (3, [])
    else wordsFrom (fun i => if i < 2048 then some (BitVec.ofNat 64 ((s.core (s.coreOfPhys p)).framN (8 * i) 8)) else none) (index / 2 ^ 11 % 2 ^ 11) n
  | 4 => part s.fuses.words
  | _ => part (wordsOf s.ksBytes)

/-- The results of a list of items within a limit of bytes: a header for each, then its words. -/
def State.readItems (s : State) : List (List Byte) → Nat → List Byte
  | [], _ => []
  | it :: l, room =>
    if room < 8 then []
    else
      let r := s.readItem (at' it 0 1) (at' it 4 4) (at' it 8 8) ((room - 8) / 8)
      bytesOf (at' it 0 1 + r.1 * 2 ^ 8 + r.2.length * 2 ^ 32) 8 ++ r.2.flatMap (fun w => bytesOf w.toNat 8) ++
        State.readItems s l (room - 8 - 8 * r.2.length)

/-- What READBACK of a command returns. -/
def State.readbackOf (s : State) (b : List Byte) : List Byte :=
  let p := cmdPay b
  s.readItems ((List.range ((p.length - 8) / 16)).map (fun i => (p.drop (8 + 16 * i)).take 16)) (if at' p 0 8 = 0 then 4000 else 2 ^ 20)

/-- READBACK: state is read without a change to it, into the response buffer or to memory at DEST. -/
def execReadback (m : DseMsg) (s : State) : Out :=
  .next (s.command m 0x0A
    (fun b =>
      let r := s.readbackOf b
      let dest := at' (cmdPay b) 0 8
      if dest ≠ 0 ∧ (s.dmaWrite s.dseA dest (numOf r) r.length).1 ≠ 0 then 9 else 0)
    (fun b s =>
      let r := s.readbackOf b
      let dest := at' (cmdPay b) 0 8
      if dest = 0 then (0, s.dseRespond m.via r) else (0, (s.dmaWrite s.dseA dest (numOf r) r.length).2)))

/-! ## Lifecycle (R425, Table 15.4) -/

/-- SET_LIFECYCLE: LIFECYCLE bits are burned; DECOMMISSIONED erases both key store copies. -/
def execSetLifecycle (m : DseMsg) (s : State) : Out :=
  .next (s.command m 0x0D (fun b => if at' (cmdPay b) 0 1 ≤ s.fuses.lifecycle ∨ m.vpp = false then 7 else 0)
    (fun b s =>
      let t := at' (cmdPay b) 0 1
      let s1 := ({ s with fuses := { s.fuses with lifecycle := t } }).putFld dseBase 9 8 t
      let s2 := if t = 2 then s1.flErase (ksA 0) 0x20000 else s1
      (0, s2.ledgerBy 0x31 (cmdActor m.via b) (cmdKey b) [s.fuses.lifecycle, t])))

/-- DEBUG_UNLOCK: in MANUFACTURE, the JTAG debug functions open until the next cold reset. -/
def execDebugUnlock (m : DseMsg) (s : State) : Out :=
  .next (s.command m 0x0E (fun _ => if s.fuses.lifecycle ≠ 0 then 7 else 0)
    (fun _ s => (0, s.modDse (fun x => { x with unlocked := true }))))

/-! ## Heartbeat and takeover (R406, R407, Table 17.4) -/

/-- HEARTBEAT: the active instance sends its changes to the twin; a HALTED DSE sends none. -/
def execHeartbeat (s : State) : Out :=
  .next (if s.stage = 15 then s else s.modDse (fun x => { x with hbMiss := 0, hbAt := s.ctime.toNat }))

/-- The command at the head of the queue, whose CMD record was not written, ends with TAKEOVER; its nonce is spent. -/
def State.cmdTakeover (s : State) : State :=
  match s.dse.cmdQ with
  | [] => s
  | via :: _ => ((s.spend via (s.cmdBytes via)).cmdEnd via 0x0A).cmdSkip 3

/-- TAKEOVER: the standby twin becomes active: the west service stop is fenced and proxied, the twin takes the lands, the
master count and the coordinator, global requests go to the active stop, and the ledger tells. -/
def execTakeover (s : State) : Out :=
  .next (
    if !s.flag dseBase 7 then s
    else
      let was := if s.flag dseBase 6 then 1 else 0
      let a := s.dseA
      let s1 := (s.setProxy a 0 true).setProxy a 1 true
      let s2 := (s1.putFlag dseBase 6 (decide (was = 0))).putFlag dseBase 7 false
      let s3 := s2.modDse (fun x => { x with out := Map.set false x.out was true, hbMiss := 0, hbAt := s.ctime.toNat })
      let s4 := s3.cmdTakeover.ledger 0x30 [was, 1 - was]
      s4.onAction 12 (fun _ => true) (fun _ => .ok (12, 0, s4)))

/-- TWIN_FAILURE: the standby twin fails: TWIN_OK is 0, and a record of RAS_FLOG names the instance. -/
def execTwinFailure (s : State) : Out :=
  .next (
    if !s.flag dseBase 7 then s
    else
      let twin := if s.flag dseBase 6 then 0 else 1
      let r : FaultRep := { unit := 0x30, index := twin, loc := 0, sev := 2, detail := 0, time := s.ctime.toNat }
      let s1 := (s.putFlag dseBase 7 false).modDse (fun x => { x with out := Map.set false x.out twin true })
      (s1.recNew r).2)

/-- CAT_ERR_WATCHDOG: no instance has sent a heartbeat for 1 ms: CAT_ERR_N is driven low. -/
def execCatErrWatchdog (s : State) : Out :=
  .next (if s.dse.hbAt + 1000000 ≤ s.ctime.toNat then { s with pins := { s.pins with catErr := true } } else s)

end Sys2Proof.Machine
end

