-- ==== Sys2Proof/Machine/Float.lean ====
section
/-! DEFINITION. IEEE 754-2019 binary32 and binary64 arithmetic on exact integers, with the five rounding modes and the
sticky flags (R193-R195, Tables 6.1, 6.15). -/

namespace Sys2Proof.Machine
open Sys2Proof

/-- Sticky flags as bits of fpcsr (Table 6.1). -/
abbrev fIO : Nat := 1
abbrev fDZ : Nat := 2
abbrev fOF : Nat := 4
abbrev fUF : Nat := 8
abbrev fIX : Nat := 16

/-- Precision in bits, the hidden bit included. -/
def fPrec (single : Bool) : Nat := if single then 24 else 53
/-- Largest exponent. -/
def fEmax (single : Bool) : Int := if single then 127 else 1023
/-- Width of the exponent field. -/
def fEw (single : Bool) : Nat := if single then 8 else 11

/-- A decoded operand: NaN (whether signalling), infinity, or sign and mantissa * 2^exponent. -/
inductive FVal where
  | nan (sig : Bool)
  | inf (neg : Bool)
  | fin (neg : Bool) (m : Nat) (e : Int)
  deriving DecidableEq, Repr

/-- Decoding of a binary32 value in bits [31:0], or of a binary64 value (R193). -/
def fDec (single : Bool) (x : Word) : FVal :=
  let p := fPrec single
  let ew := fEw single
  let n := x.toNat % 2 ^ (p + ew)
  let neg := n.testBit (p + ew - 1)
  let ex := n / 2 ^ (p - 1) % 2 ^ ew
  let fr := n % 2 ^ (p - 1)
  if ex = 2 ^ ew - 1 then (if fr = 0 then .inf neg else .nan (!fr.testBit (p - 2)))
  else if ex = 0 then .fin neg fr (2 - fEmax single - p)
  else .fin neg (fr + 2 ^ (p - 1)) (ex + 1 - fEmax single - p)

/-- The canonical quiet NaN (R195). -/
def fNaN (single : Bool) : Word := if single then 0x7FC00000 else 0x7FF8000000000000
/-- An infinity. -/
def fInf (single neg : Bool) : Word :=
  BitVec.ofNat 64 ((2 ^ fEw single - 1) * 2 ^ (fPrec single - 1) +
    (if neg then 2 ^ (fPrec single + fEw single - 1) else 0))
/-- A zero. -/
def fZero (single neg : Bool) : Word :=
  BitVec.ofNat 64 (if neg then 2 ^ (fPrec single + fEw single - 1) else 0)
/-- The largest finite value. -/
def fMaxFin (single neg : Bool) : Word := fInf single neg - 1

/-- Whether a kept part is rounded up: mode (0 NE, 1 NA, 2 TP, 3 TN, 4 TZ), sign, kept part, remainder, its half, and
whether bits below the remainder are not all 0 (Table 6.1). -/
def fUp (rm : Nat) (neg : Bool) (kept rem half : Nat) (sticky : Bool) : Bool :=
  match rm with
  | 0 => decide (rem > half) || (decide (rem = half) && decide (half ≠ 0) && (sticky || decide (kept % 2 = 1)))
  | 1 => decide (rem ≥ half) && decide (half ≠ 0)
  | 2 => (decide (rem ≠ 0) || sticky) && !neg
  | 3 => (decide (rem ≠ 0) || sticky) && neg
  | _ => false

/-- (m + sticky fraction) * 2^e kept in units of 2^q: the rounded kept part and whether the value was not exact. -/
def fKeep (rm : Nat) (neg : Bool) (m : Nat) (e q : Int) (sticky : Bool) : Nat × Bool :=
  if q ≤ e then (m * 2 ^ (e - q).toNat, sticky)
  else
    let d := (q - e).toNat
    let kept := m / 2 ^ d
    let rem := m % 2 ^ d
    (if fUp rm neg kept rem (2 ^ (d - 1)) sticky then kept + 1 else kept, decide (rem ≠ 0) || sticky)

/-- Number of bits of a natural number. -/
def nBits (m : Nat) : Nat := if m = 0 then 0 else Nat.log2 m + 1

/-- The rounded encoding of (m + sticky fraction) * 2^e with its flags (R195: underflow when tiny after rounding and
inexact). Callers with a sticky fraction give m enough bits that rounding drops at least one. -/
def fRound (single : Bool) (rm : Nat) (neg : Bool) (m : Nat) (e : Int) (sticky : Bool) : Word × Nat :=
  if m = 0 then (fZero single neg, 0)
  else
    let p := fPrec single
    let emax := fEmax single
    let emin := 1 - emax
    let qU : Int := e + nBits m - p
    let q : Int := max qU (emin - p + 1)
    let (k, inexact) := fKeep rm neg m e q sticky
    let (kU, _) := fKeep rm neg m e qU sticky
    let tiny := decide (qU + nBits kU - 1 < emin)
    if k ≠ 0 ∧ q + nBits k - 1 > emax then
      let toInf : Bool := match rm with
        | 0 => true
        | 1 => true
        | 2 => !neg
        | 3 => neg
        | _ => false
      (if toInf then fInf single neg else fMaxFin single neg, fOF + fIX)
    else
      let sgn : Nat := if neg then 2 ^ (p + fEw single - 1) else 0
      let mag : Nat :=
        if k < 2 ^ (p - 1) then k
        else (q - (emin - p + 1)).toNat * 2 ^ (p - 1) + k
      (BitVec.ofNat 64 (sgn + mag), (if inexact then fIX else 0) + (if inexact && tiny then fUF else 0))

/-- A NaN result, signalling IO when an operand signals. -/
def fNaNOf (single : Bool) (sig : Bool) : Word × Nat := (fNaN single, if sig then fIO else 0)

/-- Whether a decoded operand is a signalling NaN. -/
def FVal.isSig : FVal → Bool
  | .nan sg => sg
  | _ => false
/-- Whether a decoded operand is a NaN. -/
def FVal.isNan : FVal → Bool
  | .nan _ => true
  | _ => false
/-- An operand with its sign inverted. -/
def FVal.negate : FVal → FVal
  | .nan sg => .nan sg
  | .inf n => .inf (!n)
  | .fin n m e => .fin (!n) m e

/-- The signed integer of a sign and magnitude. -/
def sInt (neg : Bool) (m : Nat) : Int := if neg then -(m : Int) else m

/-- The rounded sum of two exact values; an exact zero sum is -0 only in mode TN, or when both are -0. -/
def fAddFin (single : Bool) (rm : Nat) (n1 : Bool) (m1 : Nat) (e1 : Int) (n2 : Bool) (m2 : Nat) (e2 : Int) :
    Word × Nat :=
  let e := min e1 e2
  let t := sInt n1 (m1 * 2 ^ (e1 - e).toNat) + sInt n2 (m2 * 2 ^ (e2 - e).toNat)
  if t = 0 then
    (fZero single (if n1 == n2 then n1 else decide (rm = 3)), 0)
  else fRound single rm (decide (t < 0)) t.natAbs e false

/-- Addition. -/
def fAdd (single : Bool) (rm : Nat) (a b : FVal) : Word × Nat :=
  match a, b with
  | .nan s1, b => fNaNOf single (s1 || b.isSig)
  | a, .nan s2 => fNaNOf single (a.isSig || s2)
  | .inf n1, .inf n2 => if n1 == n2 then (fInf single n1, 0) else (fNaN single, fIO)
  | .inf n1, .fin _ _ _ => (fInf single n1, 0)
  | .fin _ _ _, .inf n2 => (fInf single n2, 0)
  | .fin n1 m1 e1, .fin n2 m2 e2 => fAddFin single rm n1 m1 e1 n2 m2 e2

/-- Multiplication. -/
def fMul (single : Bool) (rm : Nat) (a b : FVal) : Word × Nat :=
  match a, b with
  | .nan s1, b => fNaNOf single (s1 || b.isSig)
  | a, .nan s2 => fNaNOf single (a.isSig || s2)
  | .inf n1, .inf n2 => (fInf single (n1 != n2), 0)
  | .inf n1, .fin n2 m _ => if m = 0 then (fNaN single, fIO) else (fInf single (n1 != n2), 0)
  | .fin n1 m _, .inf n2 => if m = 0 then (fNaN single, fIO) else (fInf single (n1 != n2), 0)
  | .fin n1 m1 e1, .fin n2 m2 e2 => fRound single rm (n1 != n2) (m1 * m2) (e1 + e2) false

/-- Division. -/
def fDiv (single : Bool) (rm : Nat) (a b : FVal) : Word × Nat :=
  match a, b with
  | .nan s1, b => fNaNOf single (s1 || b.isSig)
  | a, .nan s2 => fNaNOf single (a.isSig || s2)
  | .inf _, .inf _ => (fNaN single, fIO)
  | .inf n1, .fin n2 _ _ => (fInf single (n1 != n2), 0)
  | .fin n1 _ _, .inf n2 => (fZero single (n1 != n2), 0)
  | .fin n1 m1 e1, .fin n2 m2 e2 =>
    if m2 = 0 then (if m1 = 0 then (fNaN single, fIO) else (fInf single (n1 != n2), fDZ))
    else
      let sh := 2 * fPrec single + 4
      let q := m1 * 2 ^ sh / m2
      let r := m1 * 2 ^ sh % m2
      fRound single rm (n1 != n2) q (e1 - e2 - sh) (decide (r ≠ 0))

/-- The largest r with r * r ≤ x, built bit by bit from 2^n down. -/
def isqrt (x : Nat) : Nat → Nat → Nat
  | 0, r => if (r + 1) * (r + 1) ≤ x then r + 1 else r
  | n + 1, r => if (r + 2 ^ (n + 1)) * (r + 2 ^ (n + 1)) ≤ x then isqrt x n (r + 2 ^ (n + 1)) else isqrt x n r

/-- Square root. -/
def fSqrt (single : Bool) (rm : Nat) (a : FVal) : Word × Nat :=
  match a with
  | .nan sg => fNaNOf single sg
  | .inf n => if n then (fNaN single, fIO) else (fInf single false, 0)
  | .fin n m e =>
    if m = 0 then (fZero single n, 0)
    else if n then (fNaN single, fIO)
    else
      let odd : Bool := decide (e % 2 ≠ 0)
      let e' : Int := if odd then e - 1 else e
      let sh := 2 * (fPrec single + 2)
      let x := m * (if odd then 2 else 1) * 2 ^ sh
      let r := isqrt x 90 0
      fRound single rm false r (e' / 2 - (fPrec single + 2)) (decide (r * r ≠ x))

/-- Fused multiply-add a * b + c. Whether 0 * infinity + a quiet NaN signals IO is open in IEEE 754 and a parameter. -/
def fFma (single : Bool) (rm : Nat) (a b c : FVal) (openIO : Bool) : Word × Nat :=
  let anySig := a.isSig || b.isSig || c.isSig
  let bad : Bool := match a, b with
    | .inf _, .fin _ m _ => decide (m = 0)
    | .fin _ m _, .inf _ => decide (m = 0)
    | _, _ => false
  if a.isNan || b.isNan then fNaNOf single anySig
  else if c.isNan then fNaNOf single (anySig || (bad && openIO))
  else if bad then (fNaN single, fIO)
  else
    match a, b, c with
    | .fin n1 m1 e1, .fin n2 m2 e2, .fin n3 m3 e3 => fAddFin single rm (n1 != n2) (m1 * m2) (e1 + e2) n3 m3 e3
    | .fin _ _ _, .fin _ _ _, .inf n3 => (fInf single n3, 0)
    | a, b, c =>
      let sa : Bool := match a with | .inf n => n | .fin n _ _ => n | .nan _ => false
      let sb : Bool := match b with | .inf n => n | .fin n _ _ => n | .nan _ => false
      match c with
      | .inf n3 => if n3 == (sa != sb) then (fInf single n3, 0) else (fNaN single, fIO)
      | _ => (fInf single (sa != sb), 0)

/-- Order of two numbers that are not NaN: a < b, with equal zeros. -/
def fLess (a b : FVal) : Bool :=
  match a, b with
  | .inf n1, .inf n2 => n1 && !n2
  | .inf n1, _ => n1
  | _, .inf n2 => !n2
  | .fin n1 m1 e1, .fin n2 m2 e2 =>
    let e := min e1 e2
    decide (sInt n1 (m1 * 2 ^ (e1 - e).toNat) < sInt n2 (m2 * 2 ^ (e2 - e).toNat))
  | _, _ => false

/-- Whether two numbers that are not NaN are equal. -/
def fSame (a b : FVal) : Bool := !fLess a b && !fLess b a

/-- Compare relations: 0 equal, 1 less, 2 less or equal; FEQ signals IO on a signalling NaN only, the others on any NaN
(Table 6.15). -/
def fCmp (rel : Nat) (a b : FVal) : Bool × Nat :=
  if a.isNan || b.isNan then
    (false, if rel = 0 then (if a.isSig || b.isSig then fIO else 0) else fIO)
  else
    (match rel with
      | 0 => fSame a b
      | 1 => fLess a b
      | _ => !fLess b a, 0)

/-- Sign of a value. -/
def FVal.neg? : FVal → Bool
  | .nan _ => false
  | .inf n => n
  | .fin n _ _ => n

/-- minimumNumber (max = false) and maximumNumber of two encoded operands (IEEE 754-2019, Table 6.15). -/
def fMinMax (single : Bool) (mx : Bool) (x y : Word) : Word × Nat :=
  let a := fDec single x
  let b := fDec single y
  let trim (w : Word) : Word := if single then w &&& 0xFFFFFFFF else w
  let fl := if a.isSig || b.isSig then fIO else 0
  if a.isNan && b.isNan then (fNaN single, fl)
  else if a.isNan then (trim y, fl)
  else if b.isNan then (trim x, fl)
  else
    let aLow : Bool := fLess a b || (fSame a b && a.neg?)
    (if aLow != mx then trim x else trim y, fl)

/-- Conversion to an integer range [lo, hi] (R195): saturating, NaN to nanV, IO alone on both. -/
def fToInt (rm : Nat) (a : FVal) (lo hi nanV : Int) : Int × Nat :=
  match a with
  | .nan _ => (nanV, fIO)
  | .inf n => (if n then lo else hi, fIO)
  | .fin n m e =>
    let (k, inexact) := fKeep rm n m e 0 false
    let v := sInt n k
    if v < lo then (lo, fIO) else if hi < v then (hi, fIO) else (v, if inexact then fIX else 0)

/-- Conversion of an integer to floating point. -/
def fOfInt (single : Bool) (rm : Nat) (v : Int) : Word × Nat := fRound single rm (decide (v < 0)) v.natAbs 0 false

/-- Conversion between formats (FNARROW, FWIDEN). -/
def fConv (toSingle : Bool) (rm : Nat) (a : FVal) : Word × Nat :=
  match a with
  | .nan sg => fNaNOf toSingle sg
  | .inf n => (fInf toSingle n, 0)
  | .fin n m e => fRound toSingle rm n m e false

/-- FKIND: 0 zero, 1 subnormal, 2 normal, 3 infinity, 4 quiet NaN, 5 signalling NaN, and the sign in bit 3. -/
def fKind (single : Bool) (x : Word) : Word :=
  let sgn := x.getLsbD (fPrec single + fEw single - 1)
  let k : Nat := match fDec single x with
    | .nan sg => if sg then 5 else 4
    | .inf _ => 3
    | .fin _ m _ => if m = 0 then 0 else if m < 2 ^ (fPrec single - 1) then 1 else 2
  BitVec.ofNat 64 (k + (if sgn then 8 else 0))

/-- ra with its sign replaced: 0 by rb's sign, 1 by its inverse, 2 by the exclusive-or (FCPYS, FCPYSN, FCPYSX). -/
def fSign (single : Bool) (how : Nat) (x y : Word) : Word :=
  let p := fPrec single + fEw single - 1
  let sx := x.getLsbD p
  let sy := y.getLsbD p
  let sn : Bool := match how with
    | 0 => sy
    | 1 => !sy
    | _ => sx != sy
  let w := putB x p sn
  if single then w &&& 0xFFFFFFFF else w

end Sys2Proof.Machine
end

