-- ==== Sys2Proof/Machine/Flags.lean ====
section
/-! DEFINITION. The flags that instructions set: the sticky flags of fpcsr (Table 6.1) and the vector status. -/

namespace Sys2Proof.Machine
open Sys2Proof

/-- fpcsr with flags raised: each stays set until software clears it (R193, Table 6.1). -/
def Core.raise (k : Core) (fl : Nat) : Core := { k with fpcsr := k.fpcsr ||| BitVec.ofNat 64 (fl % 32) }

/-- fpcsr.RM (Table 6.1). -/
def Core.dynRm (k : Core) : Nat := bitsN k.fpcsr 7 5

/-- The rounding mode of an instruction's RM field (Table 6.14): 0 is dynamic, 1 to 5 name a mode; none where the
instruction raises ILLEGAL_INSTR (R174, R194). -/
def Core.rmOf (k : Core) (rm : Nat) : Option Nat :=
  if rm = 0 then (if k.dynRm < 5 then some k.dynRm else none)
  else if rm < 6 then some (rm - 1)
  else none

/-- The number of a flag set in fpcsr: IO, DZ, OF, UF, IX (Table 6.1). -/
def Core.fflags (k : Core) : Nat := bitsN k.fpcsr 4 0

end Sys2Proof.Machine
end

