-- ==== Sys2Proof/Machine/Fp.lean ====
section
/-! DEFINITION. Scalar floating point (06_panath_base_isa.md, R193 to R195, Tables 6.14 and 6.15). -/

namespace Sys2Proof.Machine
open Sys2Proof

/-- An FP instruction that does not round: rd and the flags from the core. -/
def State.fp (s : State) (c rd : Nat) (f : Core → Word × Nat) : Out :=
  .next (s.run c (s.fin c [evFp] true (fun k => (k.wr rd (f k).1).raise (f k).2)))

/-- An FP instruction that rounds: ILLEGAL_INSTR for a reserved mode (R174, R194). -/
def State.fpR (s : State) (c rd : Nat) (rm : BitVec 3) (f : Nat → Core → Word × Nat) : Out :=
  match (s.core c).rmOf rm.toNat with
  | none => .next (s.run c (s.illegal c))
  | some m => s.fp c rd (f m)

/-- A decoded operand register. -/
def Core.fv (k : Core) (p : Bool) (r : Nat) : FVal := fDec p (k.rd r)

/-- FADD: rd := ra + rb. -/
def execFadd (c : CoreId) (rd ra rb : Reg) (p : Bool) (rm : BitVec 3) (s : State) : Out :=
  s.fpR c rd rm (fun m k => fAdd p m (k.fv p ra) (k.fv p rb))
/-- FSUB: rd := ra - rb. -/
def execFsub (c : CoreId) (rd ra rb : Reg) (p : Bool) (rm : BitVec 3) (s : State) : Out :=
  s.fpR c rd rm (fun m k => fAdd p m (k.fv p ra) (k.fv p rb).negate)
/-- FMUL: rd := ra x rb. -/
def execFmul (c : CoreId) (rd ra rb : Reg) (p : Bool) (rm : BitVec 3) (s : State) : Out :=
  s.fpR c rd rm (fun m k => fMul p m (k.fv p ra) (k.fv p rb))
/-- FDIV: rd := ra / rb. -/
def execFdiv (c : CoreId) (rd ra rb : Reg) (p : Bool) (rm : BitVec 3) (s : State) : Out :=
  s.fpR c rd rm (fun m k => fDiv p m (k.fv p ra) (k.fv p rb))
/-- FSQRT: rd := sqrt(ra). -/
def execFsqrt (c : CoreId) (rd ra : Reg) (p : Bool) (rm : BitVec 3) (s : State) : Out :=
  s.fpR c rd rm (fun m k => fSqrt p m (k.fv p ra))
/-- FMIN: minimumNumber. -/
def execFmin (c : CoreId) (rd ra rb : Reg) (p : Bool) (s : State) : Out :=
  s.fp c rd (fun k => fMinMax p false (k.rd ra) (k.rd rb))
/-- FMAX: maximumNumber. -/
def execFmax (c : CoreId) (rd ra rb : Reg) (p : Bool) (s : State) : Out :=
  s.fp c rd (fun k => fMinMax p true (k.rd ra) (k.rd rb))
/-- FMADD: rd := ra x rb + rd, one rounding. Whether 0 x infinity + a quiet NaN signals IO is a free choice. -/
def execFmadd (c : CoreId) (rd ra rb : Reg) (p : Bool) (rm : BitVec 3) (s : State) : Out :=
  s.bump.fpR c rd rm (fun m k => fFma p m (k.fv p ra) (k.fv p rb) (k.fv p rd) (decide (s.draw 2 = 1)))
/-- FMSUB: rd := ra x rb - rd, one rounding. Whether 0 x infinity + a quiet NaN signals IO is a free choice. -/
def execFmsub (c : CoreId) (rd ra rb : Reg) (p : Bool) (rm : BitVec 3) (s : State) : Out :=
  s.bump.fpR c rd rm (fun m k => fFma p m (k.fv p ra) (k.fv p rb) (k.fv p rd).negate (decide (s.draw 2 = 1)))
/-- FNMADD: rd := -(ra x rb) + rd, one rounding. Whether 0 x infinity + a quiet NaN signals IO is a free choice. -/
def execFnmadd (c : CoreId) (rd ra rb : Reg) (p : Bool) (rm : BitVec 3) (s : State) : Out :=
  s.bump.fpR c rd rm (fun m k => fFma p m (k.fv p ra).negate (k.fv p rb) (k.fv p rd) (decide (s.draw 2 = 1)))
/-- FEQ: rd := 1 when ra = rb. -/
def execFeq (c : CoreId) (rd ra rb : Reg) (p : Bool) (s : State) : Out :=
  s.fp c rd (fun k => (b2w (fCmp 0 (k.fv p ra) (k.fv p rb)).1, (fCmp 0 (k.fv p ra) (k.fv p rb)).2))
/-- FLT: rd := 1 when ra < rb. -/
def execFlt (c : CoreId) (rd ra rb : Reg) (p : Bool) (s : State) : Out :=
  s.fp c rd (fun k => (b2w (fCmp 1 (k.fv p ra) (k.fv p rb)).1, (fCmp 1 (k.fv p ra) (k.fv p rb)).2))
/-- FLE: rd := 1 when ra <= rb. -/
def execFle (c : CoreId) (rd ra rb : Reg) (p : Bool) (s : State) : Out :=
  s.fp c rd (fun k => (b2w (fCmp 2 (k.fv p ra) (k.fv p rb)).1, (fCmp 2 (k.fv p ra) (k.fv p rb)).2))
/-- FKIND: the kind of ra and its sign. -/
def execFkind (c : CoreId) (rd ra : Reg) (p : Bool) (s : State) : Out :=
  s.fp c rd (fun k => (fKind p (k.rd ra), 0))
/-- A conversion to an integer as a register. -/
def intRes (r : Int × Nat) : Word × Nat := (BitVec.ofInt 64 r.1, r.2)
/-- FTOI: ra converted to signed 64-bit (R195). -/
def execFtoi (c : CoreId) (rd ra : Reg) (p : Bool) (rm : BitVec 3) (s : State) : Out :=
  s.fpR c rd rm (fun m k => intRes (fToInt m (k.fv p ra) (-(2 ^ 63)) (2 ^ 63 - 1) (-(2 ^ 63))))
/-- FTOU: ra converted to unsigned 64-bit (R195). -/
def execFtou (c : CoreId) (rd ra : Reg) (p : Bool) (rm : BitVec 3) (s : State) : Out :=
  s.fpR c rd rm (fun m k => intRes (fToInt m (k.fv p ra) 0 (2 ^ 64 - 1) 0))
/-- ITOF: signed ra converted to the format P. -/
def execItof (c : CoreId) (rd ra : Reg) (p : Bool) (rm : BitVec 3) (s : State) : Out :=
  s.fpR c rd rm (fun m k => fOfInt p m (k.rd ra).toInt)
/-- UTOF: unsigned ra converted to the format P. -/
def execUtof (c : CoreId) (rd ra : Reg) (p : Bool) (rm : BitVec 3) (s : State) : Out :=
  s.fpR c rd rm (fun m k => fOfInt p m (k.rd ra).toNat)
/-- FNARROW: binary64 ra converted to binary32. -/
def execFnarrow (c : CoreId) (rd ra : Reg) (rm : BitVec 3) (s : State) : Out :=
  s.fpR c rd rm (fun m k => fConv true m (k.fv false ra))
/-- FWIDEN: binary32 ra converted to binary64. -/
def execFwiden (c : CoreId) (rd ra : Reg) (s : State) : Out :=
  s.fp c rd (fun k => fConv false 0 (k.fv true ra))
/-- FCPYS: ra with rb's sign. -/
def execFcpys (c : CoreId) (rd ra rb : Reg) (p : Bool) (s : State) : Out :=
  s.fp c rd (fun k => (fSign p 0 (k.rd ra) (k.rd rb), 0))
/-- FCPYSN: ra with the inverse of rb's sign. -/
def execFcpysn (c : CoreId) (rd ra rb : Reg) (p : Bool) (s : State) : Out :=
  s.fp c rd (fun k => (fSign p 1 (k.rd ra) (k.rd rb), 0))
/-- FCPYSX: ra with the exclusive-or of the signs. -/
def execFcpysx (c : CoreId) (rd ra rb : Reg) (p : Bool) (s : State) : Out :=
  s.fp c rd (fun k => (fSign p 2 (k.rd ra) (k.rd rb), 0))
/-- FRCSR: rd := fpcsr. -/
def execFrcsr (c : CoreId) (rd : Reg) (s : State) : Out :=
  .next (s.run c (s.fin c [evFp] true (fun k => k.wr rd k.fpcsr)))
/-- FWCSR: rd := fpcsr, then fpcsr := ra; bits [63:8] are RSV. -/
def execFwcsr (c : CoreId) (rd ra : Reg) (s : State) : Out :=
  .next (s.run c (s.fin c [evFp] true (fun k => { (k.wr rd k.fpcsr) with fpcsr := k.rd ra &&& 0xFF })))

end Sys2Proof.Machine
end

