-- ==== Sys2Proof/Machine/LoadStore.lean ====
section
/-! DEFINITION. Loads and stores (06_panath_base_isa.md, R182 to R187), LDAQ and STRL (Table 6.12). -/

namespace Sys2Proof.Machine
open Sys2Proof

/-- A load of Table 6.8: n bytes at ra + sext(imm), rd from the bytes by f. -/
def State.ldI (s : State) (c rd ra : Nat) (imm : BitVec 17) (n : Nat) (f : Nat → Word) : Out :=
  .next (s.run c (s.load c ((s.core c).ea ra imm) n accLoad (fun v k => k.wr rd (f v))))

/-- A store of Table 6.8: the low n bytes of rs at ra + sext(imm). -/
def State.stI (s : State) (c rs ra : Nat) (imm : BitVec 17) (n : Nat) : Out :=
  .next (s.run c (s.store c ((s.core c).ea ra imm) n (lowN n (s.rg c rs)) accStore .plain))

/-- LB: rd := sext of 1 byte(s). -/
def execLb (c : CoreId) (rd ra : Reg) (imm : BitVec 17) (s : State) : Out :=
  s.ldI c rd ra imm 1 (sxN 1)
/-- LBU: rd := zext of 1 byte(s). -/
def execLbu (c : CoreId) (rd ra : Reg) (imm : BitVec 17) (s : State) : Out :=
  s.ldI c rd ra imm 1 (BitVec.ofNat 64)
/-- LH: rd := sext of 2 byte(s). -/
def execLh (c : CoreId) (rd ra : Reg) (imm : BitVec 17) (s : State) : Out :=
  s.ldI c rd ra imm 2 (sxN 2)
/-- LHU: rd := zext of 2 byte(s). -/
def execLhu (c : CoreId) (rd ra : Reg) (imm : BitVec 17) (s : State) : Out :=
  s.ldI c rd ra imm 2 (BitVec.ofNat 64)
/-- LW: rd := sext of 4 byte(s). -/
def execLw (c : CoreId) (rd ra : Reg) (imm : BitVec 17) (s : State) : Out :=
  s.ldI c rd ra imm 4 (sxN 4)
/-- LWU: rd := zext of 4 byte(s). -/
def execLwu (c : CoreId) (rd ra : Reg) (imm : BitVec 17) (s : State) : Out :=
  s.ldI c rd ra imm 4 (BitVec.ofNat 64)
/-- LD: rd := zext of 8 byte(s). -/
def execLd (c : CoreId) (rd ra : Reg) (imm : BitVec 17) (s : State) : Out :=
  s.ldI c rd ra imm 8 (BitVec.ofNat 64)
/-- SB: stores the low 1 byte(s) of rs. -/
def execSb (c : CoreId) (rs ra : Reg) (imm : BitVec 17) (s : State) : Out :=
  s.stI c rs ra imm 1
/-- SH: stores the low 2 byte(s) of rs. -/
def execSh (c : CoreId) (rs ra : Reg) (imm : BitVec 17) (s : State) : Out :=
  s.stI c rs ra imm 2
/-- SW: stores the low 4 byte(s) of rs. -/
def execSw (c : CoreId) (rs ra : Reg) (imm : BitVec 17) (s : State) : Out :=
  s.stI c rs ra imm 4
/-- SD: stores the low 8 byte(s) of rs. -/
def execSd (c : CoreId) (rs ra : Reg) (imm : BitVec 17) (s : State) : Out :=
  s.stI c rs ra imm 8

/-- LDAQ: load-acquire, zero-extended (Table 6.12). Ordered after earlier store-releases (R138 item 6). -/
def execLdaq (c : CoreId) (rd ra : Reg) (sz : BitVec 2) (s : State) : Out :=
  .next (s.run c (s.load c (s.rg c ra) (sizeOf' sz) accLdaq (fun v k => k.wr rd (BitVec.ofNat 64 v))))
/-- STRL: store-release of rb (Table 6.12). -/
def execStrl (c : CoreId) (ra rb : Reg) (sz : BitVec 2) (s : State) : Out :=
  .next (s.run c (s.store c (s.rg c ra) (sizeOf' sz) (lowN (sizeOf' sz) (s.rg c rb)) accStrl .rel))

end Sys2Proof.Machine
end

