-- ==== Sys2Proof/Machine/Misc.lean ====
section
/-! DEFINITION. Fences, cache maintenance, hints and ctime (06_panath_base_isa.md, R191, R192, Table 6.13;
09_core_pipeline.md, Table 9.7). -/

namespace Sys2Proof.Machine
open Sys2Proof

/-- FENCE: retires once every older store is performed (Table 4.6, Table 9.7). -/
def execFence (c : CoreId) (s : State) : Out :=
  .next (s.run c (if (s.core c).sbuf.isEmpty then s.fin c [] false id else s))
/-- FENCE.R: loads bind in program order here, so it only retires. -/
def execFenceR (c : CoreId) (s : State) : Out := .next (s.run c (s.fin c [] false id))
/-- FENCE.W: a barrier entry in the store buffer (Table 9.7). -/
def execFenceW (c : CoreId) (s : State) : Out :=
  .next (s.run c (
    let k := s.core c
    if 96 ≤ k.sbuf.length then s
    else
      let e : StEntry := { kind := .fence, pa := 0, size := 0, cells := [], pl := k.pl, v := k.vf, tr := [], marks := [] }
      s.fin c [] false (fun k => { k with sbuf := k.sbuf ++ [e] })))

/-- CFLUSH, CCLEAN, CZERO: the line of ra, with ra[5:0] ignored, as an entry of the store buffer (R192). -/
def State.maint (s : State) (c ra : Nat) (a : Acc) (kind : StKind) : Out :=
  .next (s.run c (
    let k := s.core c
    let va := k.rd ra &&& ~~~ (63 : Word)
    match k.xlate a va 64 with
    | .error e => s.trap c e
    | .ok x =>
      if 96 ≤ k.sbuf.length then s
      else
        let pa := x.pas.headD 0
        let e : StEntry := { kind := kind, pa := pa, size := 64, cells := if kind = .zero then cellsAt x.pas 0 else [],
                             pl := k.pl, v := k.vf, tr := k.trOf x va, marks := [] }
        let s1 := if kind = .zero ∧ (s.l2line (s.phys c) (pa / 64)).st = .I ∧
            (s.l2line (s.phys c) (pa / 64)).evb = none then s.need c (s.phys c) (pa / 64) .RdZ
          else if kind = .zero then s.needStores c (s.phys c) [pa / 64] else s
        (s1.usedSpan c va 64).fin c [] false (fun k => { k with sbuf := k.sbuf ++ [e] })))

/-- CFLUSH: flushes the line of ra (R128). -/
def execCflush (c : CoreId) (ra : Reg) (s : State) : Out := s.maint c ra accFlush .flush
/-- CCLEAN: cleans the line of ra (R128). -/
def execCclean (c : CoreId) (ra : Reg) (s : State) : Out := s.maint c ra accFlush .clean
/-- CZERO: zeroes the line of ra and clears its poison (R128). -/
def execCzero (c : CoreId) (ra : Reg) (s : State) : Out := s.maint c ra accZero .zero

/-- SBAR: later instructions execute after every earlier one has retired; commands run in order, so it only retires. -/
def execSbar (c : CoreId) (s : State) : Out := .next (s.run c (s.fin c [] true id))
/-- PFLUSH: the predictors and the store-wait table to their reset state. -/
def execPflush (c : CoreId) (s : State) : Out := .next (s.run c (s.fin c [] true Core.pflush))
/-- RDCTIME: rd := ctime (R226). -/
def execRdctime (c : CoreId) (rd : Reg) (s : State) : Out := .next (s.run c (s.fin c [] true (fun k => k.wr rd s.ctime)))
/-- PAUSE: issue stops for a time; timing only. -/
def execPause (c : CoreId) (s : State) : Out := .next (s.run c (s.fin c [] true id))

end Sys2Proof.Machine
end

