-- ==== Sys2Proof/Machine/Pins.lean ====
section
/-! DEFINITION. The lands (17_signals_and_electrical.md): loss of power good, of a rail and of power (R456, R457), and the
JTAG instruction (R466). -/

namespace Sys2Proof.Machine
open Sys2Proof

/-- PWR_GOOD_FALL: everything outside VDD_AON is held in a cold reset; every output takes its reset state, a
thermal trip's land and CAT_ERR_N among them (R456, R459). -/
def execPwrGoodFall (s : State) : Out :=
  .next (
    let s1 := s.cut
    { s1 with pins := { s1.pins with pwrGood := false, thermtrip := false, catErr := false } })

/-- RAIL_MONITOR_TRIP: as PWR_GOOD falling, and CAT_ERR_N is driven low (R457). -/
def execRailMonitorTrip (s : State) : Out :=
  .next (
    let s1 := s.cut
    { s1 with pins := { s1.pins with catErr := true } })

/-- LOSS_OF_POWER: a group A rail is lost: any operation stops, only what needs no power stays, and open-drain outputs
float (R457). -/
def execLossOfPower (s : State) : Out :=
  .next (
    let s1 := s.coldReset
    { s1 with pins := { Pins.reset with power := false, pwrGood := false, held := true } })

/-- JTAG_INSTRUCTION: an instruction beyond the standard sets acts as BYPASS until DEBUG_UNLOCK has succeeded (R466). -/
def execJtagInstruction (ir : Nat) (s : State) : Out :=
  .next { s with pins := { s.pins with jtag := if ir < 3 then ir else if s.dse.unlocked then 3 else 0 } }

end Sys2Proof.Machine
end

