-- ==== Sys2Proof/Machine/Vector.lean ====
section
/-! DEFINITION. Vector registers and masks, and the register-to-register operations of major 0x1D
(10_vector_unit.md, R286 to R296, Table 10.3). -/

namespace Sys2Proof.Machine
open Sys2Proof

/-! ## Elements and masks (R287 to R289) -/

/-- Element i of width e bits. -/
def vEl (x : VWord) (e i : Nat) : Nat := x.toNat / 2 ^ (e * i) % 2 ^ e
/-- The register whose n elements of width e are given by a function. -/
def vMk (e n : Nat) (f : Nat → Nat) : VWord :=
  BitVec.ofNat 128 ((List.range n).map (fun i => f i % 2 ^ e * 2 ^ (e * i))).sum
/-- An element as a signed number. -/
def sgn (e x : Nat) : Int := if x < 2 ^ (e - 1) then (x : Int) else (x : Int) - (2 : Int) ^ e
/-- A signed number as an element. -/
def unS (e : Nat) (x : Int) : Nat := (x % (2 : Int) ^ e).toNat
/-- Whether element i of width e is active under a mask (R288). -/
def actv (m : BitVec 16) (e i : Nat) : Bool := m.getLsbD (i * (e / 8))
/-- The lanes of elements of width e that a function selects (R288). -/
def mMk (e n : Nat) (f : Nat → Bool) : BitVec 16 :=
  BitVec.ofNat 16 ((List.range n).map (fun i => if f i then (2 ^ (e / 8) - 1) * 2 ^ (i * (e / 8)) else 0)).sum
/-- Element width in bits of a W field. -/
def eW (w : BitVec 2) : Nat := 8 * 2 ^ w.toNat

/-- A destination register with its active elements computed, and the others by Z (R289). -/
def vMerge (old : VWord) (m : BitVec 16) (e : Nat) (z : Bool) (f : Nat → Nat) : VWord :=
  vMk e (128 / e) (fun i => if actv m e i then f i else if z then 0 else vEl old e i)
/-- A destination mask with its active elements computed, and the others by Z. -/
def mMerge (old m : BitVec 16) (e : Nat) (z : Bool) (f : Nat → Bool) : BitVec 16 :=
  mMk e (128 / e) (fun i => if actv m e i then f i else if z then false else old.getLsbD (i * (e / 8)))

/-! ## Issue and retirement -/

/-- vcsr.DIRTY set (Table 10.1). -/
def Core.vDirty (k : Core) : Core := k.setSr (bk k.vf 0x401) (putB (k.srv (bk k.vf 0x401)) 1 true)
/-- vcsr.SAT set. -/
def Core.vSat (k : Core) (b : Bool) : Core :=
  if b then k.setSr (bk k.vf 0x401) (putB (k.srv (bk k.vf 0x401)) 0 true) else k

/-- The position whose TILE_VPWR governs a core (R305). -/
def State.vpwrAddr (s : State) (c : Nat) : Nat :=
  s.tileOf c + 0x100C0 + 8 * (if s.profile = 2 then 0 else s.posOf c)

/-- A heavy issue (R304, R305): it counts in the present window of 64 core cycles; whether a new window has begun is
timing, and a free choice. TRIG issues in one window move NORMAL to REQUESTING. -/
def State.heavy (s : State) (c : Nat) : State :=
  let k := s.core c
  let a := s.vpwrAddr c
  let n := if s.draw 2 = 1 then 1 else k.heavy + 1
  let s1 := s.bump
  if s1.flag a 2 && decide (s1.fld a 1 0 = 0) && decide (s1.fld a 9 3 ≤ n) then
    (s1.putFld a 1 0 1).modCore c (fun k => { k with heavy := 0 })
  else s1.modCore c (fun k => { k with heavy := n })

/-- A vector instruction that accesses no memory: ILLEGAL_INSTR by R291, or its effect, DIRTY when it writes vector
state, and retirement. -/
def State.vec (s : State) (c : Nat) (ok hv dirty : Bool) (f : Core → Core) : Out :=
  .next (s.run c (
    if !ok then s.illegal c
    else
      (if hv then s.heavy c else s).fin c (if hv then [evVec, evVecHeavy] else [evVec]) true
        (fun k => if dirty then (f k).vDirty else f k)))

/-- A lane-wise operation on two registers. -/
def State.vop (s : State) (c vd va vb m : Nat) (w : BitVec 2) (z : Bool) (f : Nat → Nat → Nat → Nat) : Out :=
  s.vec c true false true (fun k =>
    k.wv vd (vMerge (k.rv vd) (k.rm m) (eW w) z (fun i => f (eW w) (vEl (k.rv va) (eW w) i) (vEl (k.rv vb) (eW w) i))))

/-- A lane-wise comparison into a mask; m0 is no destination (R288). -/
def State.vcmp (s : State) (c md va vb m : Nat) (w : BitVec 2) (z : Bool) (f : Nat → Nat → Nat → Bool) : Out :=
  s.vec c (decide (md ≠ 0)) false true (fun k =>
    k.wm md (mMerge (k.rm md) (k.rm m) (eW w) z (fun i => f (eW w) (vEl (k.rv va) (eW w) i) (vEl (k.rv vb) (eW w) i))))

/-- A permute: every source element is read, the mask selects the destination elements. -/
def State.vperm (s : State) (c vd va vb m e : Nat) (z : Bool) (f : VWord → VWord → Nat → Nat) : Out :=
  s.vec c true false true (fun k => k.wv vd (vMerge (k.rv vd) (k.rm m) e z (f (k.rv va) (k.rv vb))))

/-- A mask-to-mask operation. -/
def State.mop (s : State) (c md ma mb : Nat) (f : BitVec 16 → BitVec 16 → BitVec 16) : Out :=
  s.vec c (decide (md ≠ 0)) false true (fun k => k.wm md (f (k.rm ma) (k.rm mb)))

/-- The widening group (R292): W = 0, 1 or 2. -/
def State.vwide (s : State) (c vd va vb m : Nat) (w : BitVec 2) (z high unsig acc : Bool) : Out :=
  let e := eW w
  let n := 128 / e
  let ext (x : Nat) : Int := if unsig then (x : Int) else sgn e x
  s.vec c (decide (w ≠ 3)) true true (fun k =>
    k.wv vd (vMerge (k.rv vd) (k.rm m) (2 * e) z (fun i =>
      let j := i + (if high then n / 2 else 0)
      let p := ext (vEl (k.rv va) e j) * ext (vEl (k.rv vb) e j)
      unS (2 * e) (if acc then p + (vEl (k.rv vd) (2 * e) i : Int) else p))))

/-- The dot products (R293): W = 0 or 1. The rule's sentence gives k = 2 products into a 64-bit result for W = 1, and its
pseudocode's comment gives the result "32 or 64" bits, while its line r := e * k would give 32: the sentence is followed
(DEDUCED, log entry 23). -/
def State.vdots (s : State) (c vd va vb m : Nat) (w : BitVec 2) (z ua ub : Bool) : Out :=
  let e := eW w
  let n := if e = 8 then 4 else 2
  let r := if e = 8 then 32 else 64
  let ext (u : Bool) (x : Nat) : Int := if u then (x : Int) else sgn e x
  s.vec c (decide (w.toNat < 2)) true true (fun k =>
    k.wv vd (vMerge (k.rv vd) (k.rm m) r z (fun i =>
      let sum := ((List.range n).map (fun j =>
        ext ua (vEl (k.rv va) e (n * i + j)) * ext ub (vEl (k.rv vb) e (n * i + j)))).sum
      unS r ((vEl (k.rv vd) r i : Int) + sum))))

/-! ## Floating point (R294) -/

/-- An element as an operand register of the scalar functions. -/
def elW (x : VWord) (e i : Nat) : Word := BitVec.ofNat 64 (vEl x e i)

/-- The flags of the active elements. -/
def flagsOf (m : BitVec 16) (e : Nat) (f : Nat → Nat) : Nat :=
  ((List.range (128 / e)).map (fun i => if actv m e i then f i else 0)).foldl (fun a b => a ||| b) 0

/-- A vector floating-point operation: W = 2 or 3 and a valid fpcsr.RM (R291, R294); g gives each element's result and
flags from the mode, the format and the element number. -/
def State.vfp (s : State) (c vd m : Nat) (w : BitVec 2) (z hv : Bool) (g : Core → Nat → Bool → Nat → Nat → Word × Nat) : Out :=
  let e := eW w
  let single := decide (w = 2)
  s.vec c (decide (2 ≤ w.toNat) && decide ((s.core c).dynRm < 5)) hv true (fun k =>
    (k.wv vd (vMerge (k.rv vd) (k.rm m) e z (fun i => (g k k.dynRm single e i).1.toNat))).raise
      (flagsOf (k.rm m) e (fun i => (g k k.dynRm single e i).2)))

/-- A vector floating-point comparison into a mask. -/
def State.vfcmp (s : State) (c md va vb m : Nat) (w : BitVec 2) (z : Bool) (rel : Nat) : Out :=
  let e := eW w
  let p := decide (w = 2)
  s.vec c (decide (md ≠ 0) && decide (2 ≤ w.toNat) && decide ((s.core c).dynRm < 5)) false true (fun k =>
    let r (i : Nat) := fCmp rel (fDec p (elW (k.rv va) e i)) (fDec p (elW (k.rv vb) e i))
    (k.wm md (mMerge (k.rm md) (k.rm m) e z (fun i => (r i).1))).raise (flagsOf (k.rm m) e (fun i => (r i).2)))

/-! ## Service-mode fixed-point forms (R296) -/

/-- Clamping to e bits: the element and whether it was clamped. -/
def satE (e : Nat) (x : Int) : Nat × Bool :=
  let lo := -((2 : Int) ^ (e - 1))
  let hi := (2 : Int) ^ (e - 1) - 1
  (unS e (max lo (min hi x)), decide (x < lo) || decide (hi < x))

/-- A service-mode form: ILLEGAL_INSTR outside PL3 with TILE_SVC.SVC = 1. -/
def State.vsvc (s : State) (c vd va vb m : Nat) (e32 z : Bool) (f : Nat → Int → Int → Int) : Out :=
  let e := if e32 then 32 else 16
  s.vec c (decide ((s.core c).pl = 3) && bitB (s.srVal c 0) 7) true true (fun k =>
    let r (i : Nat) := satE e (f e (sgn e (vEl (k.rv va) e i)) (sgn e (vEl (k.rv vb) e i)))
    (k.wv vd (vMerge (k.rv vd) (k.rm m) e z (fun i => (r i).1))).vSat
      ((List.range (128 / e)).any (fun i => actv (k.rm m) e i && (r i).2)))

/-! ## Table 10.3 -/

/-- VADD: va + vb, modulo 2^e, per element. -/
def execVadd (c : CoreId) (vd va vb : VReg) (m : MReg) (w : BitVec 2) (z : Bool) (s : State) : Out :=
  s.vop c vd va vb m w z (fun _ a b => a + b)
/-- VSUB: va - vb, modulo 2^e, per element. -/
def execVsub (c : CoreId) (vd va vb : VReg) (m : MReg) (w : BitVec 2) (z : Bool) (s : State) : Out :=
  s.vop c vd va vb m w z (fun e a b => a + 2 ^ e - b)
/-- VMUL: the low half of va x vb, per element. -/
def execVmul (c : CoreId) (vd va vb : VReg) (m : MReg) (w : BitVec 2) (z : Bool) (s : State) : Out :=
  s.vop c vd va vb m w z (fun _ a b => a * b)
/-- VMIN: signed minimum, per element. -/
def execVmin (c : CoreId) (vd va vb : VReg) (m : MReg) (w : BitVec 2) (z : Bool) (s : State) : Out :=
  s.vop c vd va vb m w z (fun e a b => if sgn e a < sgn e b then a else b)
/-- VMAX: signed maximum, per element. -/
def execVmax (c : CoreId) (vd va vb : VReg) (m : MReg) (w : BitVec 2) (z : Bool) (s : State) : Out :=
  s.vop c vd va vb m w z (fun e a b => if sgn e a < sgn e b then b else a)
/-- VMINU: unsigned minimum, per element. -/
def execVminu (c : CoreId) (vd va vb : VReg) (m : MReg) (w : BitVec 2) (z : Bool) (s : State) : Out :=
  s.vop c vd va vb m w z (fun _ a b => min a b)
/-- VMAXU: unsigned maximum, per element. -/
def execVmaxu (c : CoreId) (vd va vb : VReg) (m : MReg) (w : BitVec 2) (z : Bool) (s : State) : Out :=
  s.vop c vd va vb m w z (fun _ a b => max a b)
/-- VAND: and, per element. -/
def execVand (c : CoreId) (vd va vb : VReg) (m : MReg) (w : BitVec 2) (z : Bool) (s : State) : Out :=
  s.vop c vd va vb m w z (fun _ a b => a &&& b)
/-- VOR: or, per element. -/
def execVor (c : CoreId) (vd va vb : VReg) (m : MReg) (w : BitVec 2) (z : Bool) (s : State) : Out :=
  s.vop c vd va vb m w z (fun _ a b => a ||| b)
/-- VXOR: exclusive or, per element. -/
def execVxor (c : CoreId) (vd va vb : VReg) (m : MReg) (w : BitVec 2) (z : Bool) (s : State) : Out :=
  s.vop c vd va vb m w z (fun _ a b => a ^^^ b)
/-- VANDN: va and not vb, per element. -/
def execVandn (c : CoreId) (vd va vb : VReg) (m : MReg) (w : BitVec 2) (z : Bool) (s : State) : Out :=
  s.vop c vd va vb m w z (fun e a b => a &&& (2 ^ e - 1 - b))
/-- VSLL: va shifted left by vb mod e, per element. -/
def execVsll (c : CoreId) (vd va vb : VReg) (m : MReg) (w : BitVec 2) (z : Bool) (s : State) : Out :=
  s.vop c vd va vb m w z (fun e a b => a * 2 ^ (b % e))
/-- VSRL: va shifted right by vb mod e, per element. -/
def execVsrl (c : CoreId) (vd va vb : VReg) (m : MReg) (w : BitVec 2) (z : Bool) (s : State) : Out :=
  s.vop c vd va vb m w z (fun e a b => a / 2 ^ (b % e))
/-- VSRA: va shifted right arithmetically by vb mod e, per element. -/
def execVsra (c : CoreId) (vd va vb : VReg) (m : MReg) (w : BitVec 2) (z : Bool) (s : State) : Out :=
  s.vop c vd va vb m w z (fun e a b => unS e (sgn e a / (2 : Int) ^ (b % e)))
/-- VABSDU: absolute difference, unsigned, per element. -/
def execVabsdu (c : CoreId) (vd va vb : VReg) (m : MReg) (w : BitVec 2) (z : Bool) (s : State) : Out :=
  s.vop c vd va vb m w z (fun _ a b => max a b - min a b)
/-- VCMPEQ: equal, per element. -/
def execVcmpeq (c : CoreId) (md : MReg) (va vb : VReg) (m : MReg) (w : BitVec 2) (z : Bool) (s : State) : Out :=
  s.vcmp c md va vb m w z (fun _ a b => decide (a = b))
/-- VCMPNE: not equal, per element. -/
def execVcmpne (c : CoreId) (md : MReg) (va vb : VReg) (m : MReg) (w : BitVec 2) (z : Bool) (s : State) : Out :=
  s.vcmp c md va vb m w z (fun _ a b => decide (a ≠ b))
/-- VCMPLT: signed less, per element. -/
def execVcmplt (c : CoreId) (md : MReg) (va vb : VReg) (m : MReg) (w : BitVec 2) (z : Bool) (s : State) : Out :=
  s.vcmp c md va vb m w z (fun e a b => decide (sgn e a < sgn e b))
/-- VCMPLTU: unsigned less, per element. -/
def execVcmpltu (c : CoreId) (md : MReg) (va vb : VReg) (m : MReg) (w : BitVec 2) (z : Bool) (s : State) : Out :=
  s.vcmp c md va vb m w z (fun _ a b => decide (a < b))
/-- VCMPLE: signed less or equal, per element. -/
def execVcmple (c : CoreId) (md : MReg) (va vb : VReg) (m : MReg) (w : BitVec 2) (z : Bool) (s : State) : Out :=
  s.vcmp c md va vb m w z (fun e a b => decide (sgn e a ≤ sgn e b))
/-- VCMPLEU: unsigned less or equal, per element. -/
def execVcmpleu (c : CoreId) (md : MReg) (va vb : VReg) (m : MReg) (w : BitVec 2) (z : Bool) (s : State) : Out :=
  s.vcmp c md va vb m w z (fun _ a b => decide (a ≤ b))
/-- VSEL: vd[i] := va[i] when element i is active, else vb[i]. -/
def execVsel (c : CoreId) (vd va vb : VReg) (m : MReg) (w : BitVec 2) (s : State) : Out :=
  s.vec c true false true (fun k => k.wv vd (vMerge (k.rv vb) (k.rm m) (eW w) false (vEl (k.rv va) (eW w))))
/-- VSHUF: vd[i] := va[vb[i]] when vb[i] < 16, else 0, on bytes. -/
def execVshuf (c : CoreId) (vd va vb : VReg) (m : MReg) (z : Bool) (s : State) : Out :=
  s.vperm c vd va vb m 8 z (fun a b i => if vEl b 8 i < 16 then vEl a 8 (vEl b 8 i) else 0)
/-- VZIPL: the low halves interleaved. -/
def execVzipl (c : CoreId) (vd va vb : VReg) (m : MReg) (w : BitVec 2) (z : Bool) (s : State) : Out :=
  s.vperm c vd va vb m (eW w) z (fun a b i => if i % 2 = 0 then vEl a (eW w) (i / 2) else vEl b (eW w) (i / 2))
/-- VZIPH: the high halves interleaved. -/
def execVziph (c : CoreId) (vd va vb : VReg) (m : MReg) (w : BitVec 2) (z : Bool) (s : State) : Out :=
  s.vperm c vd va vb m (eW w) z (fun a b i => if i % 2 = 0 then vEl a (eW w) (i / 2 + 64 / eW w) else vEl b (eW w) (i / 2 + 64 / eW w))
/-- VUZPE: the even elements of va followed by vb. -/
def execVuzpe (c : CoreId) (vd va vb : VReg) (m : MReg) (w : BitVec 2) (z : Bool) (s : State) : Out :=
  s.vperm c vd va vb m (eW w) z (fun a b i => if i < 64 / eW w then vEl a (eW w) (2 * i) else vEl b (eW w) (2 * i - 128 / eW w))
/-- VUZPO: the odd elements of va followed by vb. -/
def execVuzpo (c : CoreId) (vd va vb : VReg) (m : MReg) (w : BitVec 2) (z : Bool) (s : State) : Out :=
  s.vperm c vd va vb m (eW w) z (fun a b i => if i < 64 / eW w then vEl a (eW w) (2 * i + 1) else vEl b (eW w) (2 * i + 1 - 128 / eW w))
/-- VCOMPRESS: the active elements of va in ascending order, the rest of vd 0. -/
def execVcompress (c : CoreId) (vd va : VReg) (m : MReg) (w : BitVec 2) (s : State) : Out :=
  let e := eW w
  s.vec c true false true (fun k =>
    let l := ((List.range (128 / e)).filter (actv (k.rm m) e)).map (vEl (k.rv va) e)
    k.wv vd (vMk e (128 / e) (fun i => l.getD i 0)))
/-- VWMUL.L: signed products of the low half. -/
def execVwmulL (c : CoreId) (vd va vb : VReg) (m : MReg) (w : BitVec 2) (z : Bool) (s : State) : Out :=
  s.vwide c vd va vb m w z false false false
/-- VWMUL.H: signed products of the high half. -/
def execVwmulH (c : CoreId) (vd va vb : VReg) (m : MReg) (w : BitVec 2) (z : Bool) (s : State) : Out :=
  s.vwide c vd va vb m w z true false false
/-- VWMULU.L: unsigned products of the low half. -/
def execVwmuluL (c : CoreId) (vd va vb : VReg) (m : MReg) (w : BitVec 2) (z : Bool) (s : State) : Out :=
  s.vwide c vd va vb m w z false true false
/-- VWMULU.H: unsigned products of the high half. -/
def execVwmuluH (c : CoreId) (vd va vb : VReg) (m : MReg) (w : BitVec 2) (z : Bool) (s : State) : Out :=
  s.vwide c vd va vb m w z true true false
/-- VWMACC.L: signed products of the low half, accumulated. -/
def execVwmaccL (c : CoreId) (vd va vb : VReg) (m : MReg) (w : BitVec 2) (z : Bool) (s : State) : Out :=
  s.vwide c vd va vb m w z false false true
/-- VWMACC.H: signed products of the high half, accumulated. -/
def execVwmaccH (c : CoreId) (vd va vb : VReg) (m : MReg) (w : BitVec 2) (z : Bool) (s : State) : Out :=
  s.vwide c vd va vb m w z true false true
/-- VWMACCU.L: unsigned products of the low half, accumulated. -/
def execVwmaccuL (c : CoreId) (vd va vb : VReg) (m : MReg) (w : BitVec 2) (z : Bool) (s : State) : Out :=
  s.vwide c vd va vb m w z false true true
/-- VWMACCU.H: unsigned products of the high half, accumulated. -/
def execVwmaccuH (c : CoreId) (vd va vb : VReg) (m : MReg) (w : BitVec 2) (z : Bool) (s : State) : Out :=
  s.vwide c vd va vb m w z true true true
/-- VDOT (R293). -/
def execVdot (c : CoreId) (vd va vb : VReg) (m : MReg) (w : BitVec 2) (z : Bool) (s : State) : Out :=
  s.vdots c vd va vb m w z false false
/-- VDOTU (R293). -/
def execVdotu (c : CoreId) (vd va vb : VReg) (m : MReg) (w : BitVec 2) (z : Bool) (s : State) : Out :=
  s.vdots c vd va vb m w z true true
/-- VDOTSU (R293). -/
def execVdotsu (c : CoreId) (vd va vb : VReg) (m : MReg) (w : BitVec 2) (z : Bool) (s : State) : Out :=
  s.vdots c vd va vb m w z false true
/-- VFADD, per element. -/
def execVfadd (c : CoreId) (vd va vb : VReg) (m : MReg) (w : BitVec 2) (z : Bool) (s : State) : Out :=
  s.vfp c vd m w z false (fun k r p e i => fAdd p r (fDec p (elW (k.rv va) e i)) (fDec p (elW (k.rv vb) e i)))
/-- VFSUB, per element. -/
def execVfsub (c : CoreId) (vd va vb : VReg) (m : MReg) (w : BitVec 2) (z : Bool) (s : State) : Out :=
  s.vfp c vd m w z false (fun k r p e i => fAdd p r (fDec p (elW (k.rv va) e i)) (fDec p (elW (k.rv vb) e i)).negate)
/-- VFMUL, per element. -/
def execVfmul (c : CoreId) (vd va vb : VReg) (m : MReg) (w : BitVec 2) (z : Bool) (s : State) : Out :=
  s.vfp c vd m w z false (fun k r p e i => fMul p r (fDec p (elW (k.rv va) e i)) (fDec p (elW (k.rv vb) e i)))
/-- VFMIN, per element. -/
def execVfmin (c : CoreId) (vd va vb : VReg) (m : MReg) (w : BitVec 2) (z : Bool) (s : State) : Out :=
  s.vfp c vd m w z false (fun k _ p e i => fMinMax p false (elW (k.rv va) e i) (elW (k.rv vb) e i))
/-- VFMAX, per element. -/
def execVfmax (c : CoreId) (vd va vb : VReg) (m : MReg) (w : BitVec 2) (z : Bool) (s : State) : Out :=
  s.vfp c vd m w z false (fun k _ p e i => fMinMax p true (elW (k.rv va) e i) (elW (k.rv vb) e i))
/-- VFMADD: va x vb + vd, one rounding; whether 0 x infinity + a quiet NaN signals IO is a free choice per element. -/
def execVfmadd (c : CoreId) (vd va vb : VReg) (m : MReg) (w : BitVec 2) (z : Bool) (s : State) : Out :=
  State.vfp { s with free := s.free + 16 } c vd m w z true (fun k r p e i =>
    fFma p r (fDec p (elW (k.rv va) e i)) (fDec p (elW (k.rv vb) e i)) (fDec p (elW (k.rv vd) e i)) (decide (Config.draw (s.free + i) % 2 = 1)))
/-- VFCMPEQ, per element. -/
def execVfcmpeq (c : CoreId) (md : MReg) (va vb : VReg) (m : MReg) (w : BitVec 2) (z : Bool) (s : State) : Out :=
  s.vfcmp c md va vb m w z 0
/-- VFCMPLT, per element. -/
def execVfcmplt (c : CoreId) (md : MReg) (va vb : VReg) (m : MReg) (w : BitVec 2) (z : Bool) (s : State) : Out :=
  s.vfcmp c md va vb m w z 1
/-- VFCMPLE, per element. -/
def execVfcmple (c : CoreId) (md : MReg) (va vb : VReg) (m : MReg) (w : BitVec 2) (z : Bool) (s : State) : Out :=
  s.vfcmp c md va vb m w z 2
/-- VITOF: signed integer to floating point of the same width. -/
def execVitof (c : CoreId) (vd va : VReg) (m : MReg) (w : BitVec 2) (z : Bool) (s : State) : Out :=
  s.vfp c vd m w z false (fun k r p e i => fOfInt p r (sgn e (vEl (k.rv va) e i)))
/-- VFTOI: floating point to signed integer of the same width (R195). -/
def execVftoi (c : CoreId) (vd va : VReg) (m : MReg) (w : BitVec 2) (z : Bool) (s : State) : Out :=
  s.vfp c vd m w z false (fun k r p e i =>
    let x := fToInt r (fDec p (elW (k.rv va) e i)) (-((2 : Int) ^ (e - 1))) ((2 : Int) ^ (e - 1) - 1) (-((2 : Int) ^ (e - 1)))
    (BitVec.ofInt 64 x.1, x.2))
/-- VMAND: and on 16 bits. -/
def execVmand (c : CoreId) (md ma mb : MReg) (s : State) : Out :=
  s.mop c md ma mb (fun a b => a &&& b)
/-- VMOR: or on 16 bits. -/
def execVmor (c : CoreId) (md ma mb : MReg) (s : State) : Out :=
  s.mop c md ma mb (fun a b => a ||| b)
/-- VMXOR: exclusive or on 16 bits. -/
def execVmxor (c : CoreId) (md ma mb : MReg) (s : State) : Out :=
  s.mop c md ma mb (fun a b => a ^^^ b)
/-- VMANDN: ma and not mb on 16 bits. -/
def execVmandn (c : CoreId) (md ma mb : MReg) (s : State) : Out :=
  s.mop c md ma mb (fun a b => a &&& ~~~ b)
/-- VSATADD: sat(a + b). -/
def execVsatadd (c : CoreId) (vd va vb : VReg) (m : MReg) (e32 : Bool) (z : Bool) (s : State) : Out :=
  s.vsvc c vd va vb m e32 z (fun _ a b => a + b)
/-- VFRMUL: the fractional product, truncated. -/
def execVfrmul (c : CoreId) (vd va vb : VReg) (m : MReg) (e32 : Bool) (z : Bool) (s : State) : Out :=
  s.vsvc c vd va vb m e32 z (fun e a b => (a * b) / (2 : Int) ^ (e - 1))
/-- VSATSUB: sat(a - b). -/
def execVsatsub (c : CoreId) (vd va vb : VReg) (m : MReg) (e32 : Bool) (z : Bool) (s : State) : Out :=
  s.vsvc c vd va vb m e32 z (fun _ a b => a - b)
/-- VFRMULR: the fractional product, rounded. -/
def execVfrmulr (c : CoreId) (vd va vb : VReg) (m : MReg) (e32 : Bool) (z : Bool) (s : State) : Out :=
  s.vsvc c vd va vb m e32 z (fun e a b => (a * b + (2 : Int) ^ (e - 2)) / (2 : Int) ^ (e - 1))

end Sys2Proof.Machine
end

