-- ==== Sys2Proof/Machine/VectorMem.lean ====
section
/-! DEFINITION. Major 0x1F: vector memory accesses, transfers, mask transfers and reductions, and the power state of
the vector unit (10_vector_unit.md, R297 to R305, Tables 10.4 and 10.5). -/

namespace Sys2Proof.Machine
open Sys2Proof

/-! ## Vector loads (R297 to R302) -/

/-- The bytes of two lists of elements' loads so far: the state, the element values by number, sources and events. -/
structure VAcc where
  s : State
  vals : List (Nat × Nat)
  srcs : List (Nat × Nat × Nat)
  evs : List Nat

/-- What a vector load comes to: it waits, it traps at an element, or it has loaded the elements below a bound. -/
inductive VRes where
  | wait
  | exc (e : Exc) (s : State)
  | ok (a : VAcc) (upto : Option Nat)

/-- An exception of element i (R301). -/
def Exc.atElem (e : Exc) (i : Nat) : Exc := { e with elem := some i, info := putW e.info 15 11 i }

/-- The exceptions that end a first-fault load at a later element (R302). -/
def ffEnds (code : Nat) : Bool :=
  code == 3 || code == 4 || code == 5 || code == 0x10 || code == 9 || code == 0x18

/-- Elements loaded in ascending order: `addr` gives each element's address, `acc` the access, `skew` that a contiguous
access is not 16-byte aligned, so that a side-effect page is an ALIGN_FAULT (R299); a first-fault form ends at a later
element with one of the exceptions of R302. -/
def vLoadEls (c n : Nat) (addr : Nat → Word) (acc : Acc) (ff skew : Bool) : List Nat → Bool → VAcc → VRes
  | [], _, a => .ok a none
  | i :: is, first, a =>
    let stop (e : Exc) : VRes :=
      if ff && !first && ffEnds e.code then .ok a (some i) else .exc (e.atElem i) a.s
    match (a.s.core c).xlate acc (addr i) n with
    | .error e => stop (if skew && decide (e.code = 7) then { e with code := 6 } else e)
    | .ok x =>
      match a.s.bindLoad c (addr i) n x acc.acc with
      | .wait => .wait
      | .exc e s1 => if ff && !first && ffEnds e.code then .ok a (some i) else .exc (e.atElem i) s1
      | .val v src evs s1 =>
        vLoadEls c n addr acc ff skew is false
          { s := s1, vals := (i, v) :: a.vals, srcs := (i, src, x.pas.headD 0) :: a.srcs, evs := evs ++ a.evs }

/-- The active elements of width e under a mask, ascending. -/
def actvs (m : BitVec 16) (e : Nat) : List Nat := (List.range (128 / e)).filter (actv m e)

/-- A vector load ends: registers written, ffm for a first-fault form, and retirement. The sample record names the
element with the longest latency, which is timing and a free choice (R378). -/
def State.vLoadEnd (s0 : State) (c vd m e : Nat) (z ff hv : Bool) (addr : Nat → Word) (a : VAcc) (upto : Option Nat) : State :=
  let n := 128 / e
  let bound := upto.getD n
  let k0 := s0.core c
  let pick := a.srcs.getD (a.s.draw (max 1 a.srcs.length)) (0, 0, 0)
  let s1 := if a.srcs.isEmpty then a.s else a.s.bump
  let f (k : Core) : Core :=
    let x := vMk e n (fun i =>
      if bound ≤ i then vEl (k.rv vd) e i
      else if actv (k.rm m) e i then ((a.vals.find? (fun y => y.1 == i)).map (fun y => y.2)).getD 0
      else if z then 0 else vEl (k.rv vd) e i)
    let k1 := (k.wv vd x).vDirty
    let k2 := if ff then
        k1.setSr (bk k.vf 0x400) (match upto with
          | some b => BitVec.ofNat 64 (2 ^ (b * (e / 8)) - 1)
          | none => 0xFFFF)
      else k1
    k2.adv
  ((s1.usedTlb c (a.vals.map (fun y => addr y.1))).modCore c f).retire c ([evLd, evVec] ++ (if hv then [evVecHeavy] else []) ++ srcEvents pick.2.1 ++
      a.evs.filter (fun x => decide (x = 0x1A))) false
    { pc := k0.pc, va := if a.srcs.isEmpty then 0 else addr pick.1, pa := pick.2.2, src := pick.2.1, elem := pick.1, load := true }

/-- A load by elements. -/
def State.vLoad (s : State) (c vd m : Nat) (w : BitVec 2) (z ff hv : Bool) (acc : Acc) (addr : Core → Nat → Word)
    (skew : Bool := false) : State :=
  let e := eW w
  let k := s.core c
  let s0 := if hv then s.heavy c else s
  match vLoadEls c (e / 8) (addr k) acc ff skew (actvs (k.rm m) e) true { s := s0, vals := [], srcs := [], evs := [] } with
  | .wait => s
  | .exc x s1 => s1.trap c x
  | .ok a upto => s0.vLoadEnd c vd m e z ff hv (addr k) a upto

/-- The access kinds of R299: side-effect targets fault. -/
def accVl : Acc := { accLoad with noSe := true }
def accVs : Acc := { accStore with noSe := true }

/-- Contiguous element addresses. -/
def contAddr (ra : Nat) (w : BitVec 2) (k : Core) (i : Nat) : Word := k.rd ra + BitVec.ofNat 64 (i * (eW w / 8))

/-- The side-effect checks of VST (R299): the exception of an element whose page or region is side-effect, when
the access is misaligned or has an inactive lane. -/
def vContSe (k : Core) (base va : Word) (m : BitVec 16) (acc : Acc) (n : Nat) : Option Exc :=
  let noSe : Acc := { acc with noSe := true }
  match k.xlate noSe va n with
  | .error e =>
    if e.code = 7 then (if base.toNat % 16 ≠ 0 then some { e with code := 6 } else if m ≠ 0xFFFF then some e else none) else some e
  | .ok _ => none

/-- The first exception of the elements of a contiguous access, in ascending order. -/
def vContExc (k : Core) (base : Word) (m : BitVec 16) (acc : Acc) (n : Nat) (addr : Nat → Word) : List Nat → Option Exc
  | [] => none
  | i :: is =>
    match vContSe k base (addr i) m acc n with
    | some e => some (e.atElem i)
    | none => vContExc k base m acc n addr is

/-- VLD: the active elements from memory; a 16-byte aligned access of all lanes to a side-effect target is one read
(R299). -/
def execVld (c : CoreId) (vd : VReg) (ra : Reg) (m : MReg) (w : BitVec 2) (z : Bool) (s : State) : Out :=
  .next (s.run c (
    let k := s.core c
    let se : Option Xl := match k.xlate accLoad (k.rd ra) 16 with
      | .ok x => if x.se && decide (k.rm m = 0xFFFF) then some x else none
      | .error _ => none
    match se with
    | none => s.vLoad c vd m w z false false accVl (contAddr ra w) (decide ((k.rd ra).toNat % 16 ≠ 0))
    | some x =>
      match s.bindLoad c (k.rd ra) 16 x 1 with
      | .wait => s
      | .exc ex s1 => s1.trap c (ex.atElem 0)
      | .val v src evs s1 =>
        ((s1.usedSpan c (k.rd ra) 16).modCore c (fun k => ((k.wv vd (BitVec.ofNat 128 v)).vDirty).adv)).retire c ([evLd, evVec] ++ evs) false
          { pc := k.pc, va := k.rd ra, pa := x.pas.headD 0, src := src, load := true }))
/-- VLDFF: as VLD, first-fault (R302). -/
def execVldff (c : CoreId) (vd : VReg) (ra : Reg) (m : MReg) (w : BitVec 2) (z : Bool) (s : State) : Out :=
  .next (s.run c (s.vLoad c vd m w z true false accVl (contAddr ra w)))
/-- VLDS: element i at ra + i x rb. -/
def execVlds (c : CoreId) (vd : VReg) (ra rb : Reg) (m : MReg) (w : BitVec 2) (z : Bool) (s : State) : Out :=
  .next (s.run c (s.vLoad c vd m w z false false accVl (fun k i => k.rd ra + BitVec.ofNat 64 i * k.rd rb)))

/-- Addresses of a gather or scatter: ra + (zext(vb[i]) << k). -/
def gatAddr (ra vb : Nat) (kk : BitVec 2) (w : BitVec 2) (k : Core) (i : Nat) : Word :=
  k.rd ra + BitVec.ofNat 64 (vEl (k.rv vb) (eW w) i * 2 ^ kk.toNat)

/-- VGATHER. -/
def execVgather (c : CoreId) (vd : VReg) (ra : Reg) (vb : VReg) (k : BitVec 2) (m : MReg) (w : BitVec 2) (z : Bool) (s : State) : Out :=
  .next (s.run c (s.vLoad c vd m w z false true accVl (gatAddr ra vb k w)))
/-- VGATHERFF: as VGATHER, first-fault. -/
def execVgatherff (c : CoreId) (vd : VReg) (ra : Reg) (vb : VReg) (k : BitVec 2) (m : MReg) (w : BitVec 2) (z : Bool) (s : State) : Out :=
  .next (s.run c (s.vLoad c vd m w z true true accVl (gatAddr ra vb k w)))

/-! ## Vector stores -/

/-- The store-buffer entries of the elements, ascending, or the first exception. -/
def vStoreEls (k : Core) (vs e : Nat) (addr : Nat → Word) (acc : Acc) : List Nat → Except Exc (List StEntry)
  | [] => .ok []
  | i :: is =>
    match k.xlate acc (addr i) (e / 8) with
    | .error x => .error (x.atElem i)
    | .ok x =>
      match vStoreEls k vs e addr acc is with
      | .error y => .error y
      | .ok l =>
        .ok ({ kind := if x.se then .sideEffect else .plain, pa := x.pas.headD 0, size := e / 8,
               cells := cellsAt x.pas (vEl (k.rv vs) e i), pl := k.pl, v := k.vf,
               tr := k.trOf x (addr i), marks := [] } :: l)

/-- Entries put into the store buffer; the instruction retires. -/
def State.vStoreEnd (s : State) (c : Nat) (l : List StEntry) (hv : Bool) (va : Word) : State :=
  let s0 := if hv then s.heavy c else s
  let lines := (l.flatMap (fun e => e.cells.map (fun x => x.1 / 64))).eraseDups.filter (fun x => decide (x < 2 ^ 42))
  let s1 := s0.needStores c (s.phys c) lines
  ((s1.usedTlb c (l.flatMap (fun e => e.tr.map (fun x => BitVec.ofNat 64 x.1)))).modCore c (fun k => { k with sbuf := k.sbuf ++ l }.adv)).retire c
    ([evSt, evVec] ++ (if hv then [evVecHeavy] else [])) false
    { pc := (s.core c).pc, va := va, pa := (l.map (fun e => e.pa)).headD 0 }

/-- VST: the active elements of vs as one entry (R300). -/
def execVst (c : CoreId) (vs : VReg) (ra : Reg) (m : MReg) (w : BitVec 2) (s : State) : Out :=
  .next (s.run c (
    let k := s.core c
    let e := eW w
    let mk := k.rm m
    match vContExc k (k.rd ra) mk accStore (e / 8) (contAddr ra w k) (actvs mk e) with
    | some x => s.trap c x
    | none =>
      match vStoreEls k vs e (contAddr ra w k) accStore (actvs mk e) with
      | .error x => s.trap c x
      | .ok l =>
        if 96 ≤ k.sbuf.length then s
        else
          let e1 : StEntry := { kind := if l.any (fun x => decide (x.kind = .sideEffect)) then .sideEffect else .plain,
                                pa := (l.map (fun x => x.pa)).headD 0, size := 16, cells := l.flatMap (fun x => x.cells),
                                pl := k.pl, v := k.vf, tr := l.flatMap (fun x => x.tr), marks := [] }
          s.vStoreEnd c (if l.isEmpty then [] else [e1]) false (k.rd ra)))

/-- A store by elements: one entry each. -/
def State.vStore (s : State) (c vs m : Nat) (w : BitVec 2) (hv : Bool) (addr : Core → Nat → Word) : State :=
  let k := s.core c
  let e := eW w
  match vStoreEls k vs e (addr k) accVs (actvs (k.rm m) e) with
  | .error x => s.trap c x
  | .ok l => if 96 < k.sbuf.length + 128 / e then s else s.vStoreEnd c l hv (addr k 0)

/-- VSTS: element i at ra + i x rb. -/
def execVsts (c : CoreId) (vs : VReg) (ra rb : Reg) (m : MReg) (w : BitVec 2) (s : State) : Out :=
  .next (s.run c (s.vStore c vs m w false (fun k i => k.rd ra + BitVec.ofNat 64 i * k.rd rb)))
/-- VSCATTER. -/
def execVscatter (c : CoreId) (vs : VReg) (ra : Reg) (vb : VReg) (k : BitVec 2) (m : MReg) (w : BitVec 2) (s : State) : Out :=
  .next (s.run c (s.vStore c vs m w true (gatAddr ra vb k w)))

/-! ## Transfers (Table 10.4) -/

/-- VBCAST: active elements := ra[e-1:0]. -/
def execVbcast (c : CoreId) (vd : VReg) (ra : Reg) (m : MReg) (w : BitVec 2) (z : Bool) (s : State) : Out :=
  s.vec c true false true (fun k => k.wv vd (vMerge (k.rv vd) (k.rm m) (eW w) z (fun _ => (k.rd ra).toNat)))
/-- VINS: vd[rb mod N] := ra[e-1:0]. -/
def execVins (c : CoreId) (vd : VReg) (ra rb : Reg) (w : BitVec 2) (s : State) : Out :=
  let e := eW w
  s.vec c true false true (fun k => k.wv vd (vMk e (128 / e) (fun i =>
    if i = (k.rd rb).toNat % (128 / e) then (k.rd ra).toNat else vEl (k.rv vd) e i)))
/-- VMVGV: rd := sext(va[rb mod N]). -/
def execVmvgv (c : CoreId) (rd : Reg) (va : VReg) (rb : Reg) (w : BitVec 2) (s : State) : Out :=
  let e := eW w
  s.vec c true false false (fun k => k.wr rd (BitVec.ofInt 64 (sgn e (vEl (k.rv va) e ((k.rd rb).toNat % (128 / e))))))
/-- VMMV: md := ra[15:0]. -/
def execVmmv (c : CoreId) (md : MReg) (ra : Reg) (s : State) : Out :=
  s.vec c (decide (md ≠ 0)) false true (fun k => k.wm md ((k.rd ra).setWidth 16))
/-- VMRD: rd := zext(ms). -/
def execVmrd (c : CoreId) (rd : Reg) (ms : MReg) (s : State) : Out :=
  s.vec c true false false (fun k => k.wr rd ((k.rm ms).setWidth 64))
/-- VMCNT: md element i := 1 when i < ra, else 0. -/
def execVmcnt (c : CoreId) (md : MReg) (ra : Reg) (w : BitVec 2) (s : State) : Out :=
  let e := eW w
  s.vec c (decide (md ≠ 0)) false true (fun k => k.wm md (mMk e (128 / e) (fun i => decide (i < (k.rd ra).toNat))))
/-- VMPOPC: rd := the number of elements active under ms. -/
def execVmpopc (c : CoreId) (rd : Reg) (ms : MReg) (w : BitVec 2) (s : State) : Out :=
  s.vec c true false false (fun k => k.wr rd (BitVec.ofNat 64 (actvs (k.rm ms) (eW w)).length))
/-- VMFFM: md := ffm. -/
def execVmffm (c : CoreId) (md : MReg) (s : State) : Out :=
  s.vec c (decide (md ≠ 0)) false true (fun k => k.wm md ((k.srv (bk k.vf 0x400)).setWidth 16))

/-! ## Reductions (R295) -/

/-- A reduction of the active elements of va into rd, from an identity. -/
def State.vred (s : State) (c rd va m : Nat) (w : BitVec 2) (ident : Nat → Int) (f : Nat → Int → Nat → Int) : Out :=
  let e := eW w
  s.vec c true false false (fun k =>
    k.wr rd (BitVec.ofInt 64 (((actvs (k.rm m) e).map (vEl (k.rv va) e)).foldl (f e) (ident e))))

/-- VRSUM: the sum of the sign-extended elements. -/
def execVrsum (c : CoreId) (rd : Reg) (va : VReg) (m : MReg) (w : BitVec 2) (s : State) : Out :=
  s.vred c rd va m w (fun _ => 0) (fun e a x => a + sgn e x)
/-- VRMIN: the signed minimum. -/
def execVrmin (c : CoreId) (rd : Reg) (va : VReg) (m : MReg) (w : BitVec 2) (s : State) : Out :=
  s.vred c rd va m w (fun e => (2 : Int) ^ (e - 1) - 1) (fun e a x => min a (sgn e x))
/-- VRMAX: the signed maximum. -/
def execVrmax (c : CoreId) (rd : Reg) (va : VReg) (m : MReg) (w : BitVec 2) (s : State) : Out :=
  s.vred c rd va m w (fun e => -((2 : Int) ^ (e - 1))) (fun e a x => max a (sgn e x))
/-- VRMINU: the unsigned minimum. -/
def execVrminu (c : CoreId) (rd : Reg) (va : VReg) (m : MReg) (w : BitVec 2) (s : State) : Out :=
  s.vred c rd va m w (fun e => (2 : Int) ^ e - 1) (fun _ a x => min a (x : Int))
/-- VRMAXU: the unsigned maximum. -/
def execVrmaxu (c : CoreId) (rd : Reg) (va : VReg) (m : MReg) (w : BitVec 2) (s : State) : Out :=
  s.vred c rd va m w (fun _ => 0) (fun _ a x => max a (x : Int))
/-- VRAND: the bitwise and. -/
def execVrand (c : CoreId) (rd : Reg) (va : VReg) (m : MReg) (w : BitVec 2) (s : State) : Out :=
  s.vred c rd va m w (fun e => (2 : Int) ^ e - 1) (fun _ a x => ((a.toNat &&& x : Nat) : Int))
/-- VROR: the bitwise or. -/
def execVror (c : CoreId) (rd : Reg) (va : VReg) (m : MReg) (w : BitVec 2) (s : State) : Out :=
  s.vred c rd va m w (fun _ => 0) (fun _ a x => ((a.toNat ||| x : Nat) : Int))
/-- VRXOR: the bitwise exclusive or. -/
def execVrxor (c : CoreId) (rd : Reg) (va : VReg) (m : MReg) (w : BitVec 2) (s : State) : Out :=
  s.vred c rd va m w (fun _ => 0) (fun _ a x => ((a.toNat ^^^ x : Nat) : Int))

/-! ## Power state (R305) -/

/-- VPWR_HOLD_EXPIRE: HOLD core cycles without a heavy issue: HIGH to NORMAL, the grant returned. -/
def execVpwrHoldExpire (c : CoreId) (s : State) : Out :=
  .next (
    let a := s.vpwrAddr c
    if s.fld a 1 0 = 2 then (s.putFld a 1 0 0).grantReturn (vecWho (s.phys c)) else s)

/-- TILE_VPWR_WRITE: clearing EN returns a grant; in the assurance profile a write of either position's
register writes both (R305). -/
def State.tileVpwrWrite (s : State) (a : CsrReq) : Nat × State :=
  s.csrWrite a (fun _ => none) (fun w s1 =>
    let t := w.block
    let p := w.ix.headD 0
    let off (s2 : State) (q : Nat) : State :=
      let ad := tileBase t + 0x100C0 + 8 * q
      if !s2.flag ad 2 && decide (s2.fld ad 1 0 = 2) then (s2.putFld ad 1 0 0).grantReturn (vecWho (2 * t + q)) else s2
    let s2 := if s.profile = 2 then s1.wrCsr (tileBase t + 0x100C0 + 8 * (1 - p)) w.new else s1
    off (off s2 0) 1)
def execTileVpwrWrite (t : TileId) (p : Fin 2) (value : Word) (q : Requester) (s : State) : Out :=
  .next (s.tileVpwrWrite (wr8 (tileBase t + 0x100C0 + 8 * p) value q)).2

end Sys2Proof.Machine
end

