-- ==== Sys2Proof/Machine/SideEffect.lean ====
section
/-! DEFINITION. Side-effect accesses at their targets: which register a write reaches (18_register_index.md), configuration
space writes (R322 to R327), what a store does when it is performed (R274), and start-up stage 7, which writes registers
(R418). -/

namespace Sys2Proof.Machine
open Sys2Proof

/-! ## Register writes -/

/-- A write of RAS_TMO: refused unless SNP_US < 1,000 × L1_MS < 1,000 × L0_MS (R447). -/
def State.tmoWrite (s : State) (a : CsrReq) : Nat × State :=
  s.csrWrite a (fun w => if bitsN w.val 9 0 < 1000 * bitsN w.val 25 18 ∧ bitsN w.val 25 18 < bitsN w.val 17 10 then none else some 1)
    (fun _ s => s)

/-- A write of a register without rules of its own; a lock bit written as 1 locks the block (R475). -/
def State.plainWrite (s : State) (a : CsrReq) : Nat × State :=
  s.csrWrite a (fun _ => none) (fun w s =>
    if (w.row.id = Rid.NMC_CFG ∨ w.row.id = Rid.IOT_CTL) ∧ bitB w.val 63 = true then s.putFlag w.pa 63 true else s)

/-- A write of TILE_SVC: only the DSE changes SVC, of both positions of a pair (R201, R281). -/
def State.svcWrite (s : State) (a : CsrReq) : Nat × State :=
  s.csrWrite a (fun _ => none) (fun w s1 =>
    if w.req.dse && bitB w.mask 0 then
      let both := if s.profile = 2 then [0, 1] else [w.ix.headD 0]
      both.foldl (fun (x : State) p => x.putFlag (tileBase w.block + 0x10000 + 8 * p) 0 (bitB w.val 0)) s1
    else s1)

/-- A write of a register by its name. -/
def State.writeOf (s : State) (r : Rid) (a : CsrReq) : Nat × State :=
  match r with
  | .TILE_SVC => s.svcWrite a
  | .TILE_VPWR => s.tileVpwrWrite a
  | .TILE_DVFS => s.dvfsWrite a
  | .TILE_CRST => s.crstWrite a
  | .TILE_L2CFG => s.l2cfgWrite a
  | .L3_CFG => s.l3cfgWrite a
  | .L3_LOCKCMD => s.lockCmdWrite a
  | .MESH_PROXY => s.meshProxyWrite a
  | .MESH_RT => s.meshRtWrite a
  | .PMU_SEL => s.pmuSelWrite a
  | .PMU_TAG_BASE => s.tagBaseWrite a
  | .PMU_TAG_HEAD => s.tagHeadWrite a
  | .PRT_MODE => s.prtModeWrite a
  | .PRT_PWIN => s.pwinWrite a
  | .NMC_REGION => s.regionWrite a
  | .NMC_BKT_CH => s.bktWrite a
  | .NMC_BKT_RANK => s.bktWrite a
  | .NMC_BKT_REG => s.bktWrite a
  | .NMC_SPARE => s.spareWrite a
  | .SOR_CMD_BASE => s.cmdBaseWrite a
  | .SOR_CMD_SIZE => s.cmdBaseWrite a
  | .SOR_CMD_TAIL => s.cmdTailWrite a
  | .IOT_CTXINV => s.ctxInvWrite a
  | .DEN_MBX_CMD => s.mbxCmdWrite a
  | .DEN_MBX_ARG => s.mbxArgWrite a
  | .DEN_MBX_IRQ => s.mbxArgWrite a
  | .DB_SQ_TAIL => s.sqTailWrite a
  | .DB_CQ_HEAD => s.cqHeadWrite a
  | .DB_FQ_HEAD => s.fqHeadWrite a
  | .DB_STATUS => s.dbStatusWrite a
  | .MSIX => s.msixWrite a
  | .DSE_WARM => s.warmWrite a
  | .DSE_RELEASE => s.releaseWrite a
  | .DSE_CMD_CTL => s.dseCtlWrite a
  | .DSE_SPI_OWN => s.spiWrite a
  | .DSE_CMD_BUF => s.cmdBufWrite a
  | .PWR_PKG => s.pkgWrite a
  | .PWR_THERM => s.thermWrite a
  | .PWR_DOM => s.domWrite a
  | .PWR_DIE_CFG => s.dieCfgWrite a
  | .KEY_CTL => s.keyWrite a
  | .RAS_TMO => s.tmoWrite a
  | .SOR_THRESH => s.threshWrite a
  | .SOR_ELR_BASE => s.elrBaseWrite a
  | .SOR_ELR_SIZE => s.elrBaseWrite a
  | .SOR_ELR_HEAD => s.elrHeadWrite a
  | .SOR_ELR_RETURN => s.elrReturnWrite a
  | .SOR_EVAC => s.evacWrite a
  | _ => s.plainWrite a

/-- A write that a CSR block receives: its REJECT log, its snapshot page (which a write leaves as it is), a fetch RAM (R26),
or a register. Answers the response status and the state. -/
def State.regWrite (s : State) (a : CsrReq) : Nat × State :=
  match blockNo a.pa with
  | none => (2, s.aerrQ a.pa true a.req)
  | some b =>
    let pa := a.pa / 8 * 8
    let off := pa - blockBase b
    let ok := (a.size = 4 ∨ a.size = 8) ∧ a.pa % a.size = 0 ∧ s.csrAccepts a.pa true a.req = true
    if rejectOff b ≤ off ∧ off < rejectOff b + 0x300 then s.rejectWrite a
    else if snapOff b ≤ off ∧ off < snapOff b + snapSize b then (if ok then (0, s) else (2, s.aerrQ a.pa true a.req))
    else match (if b < 544 then framOff b off else none) with
      | some (p, o) =>
        if ok then
          (0, s.modCore (s.framCore p) (fun k => k.framPut ((List.range a.size).map (fun i =>
            (o + a.pa % 8 + i, BitVec.ofNat 8 (a.value.toNat / 256 ^ i))))))
        else (2, s.aerrQ a.pa true a.req)
      | none => match regAt pa with
        | some (_, r, _) => s.writeOf r.id a
        | none => (2, s.aerrQ a.pa true a.req)

/-- What a register command answers. -/
def State.answered (r : Nat × State) (v : Nat) : State := { r.2 with csrRsp := (r.1, v) }

/-- REGISTER_WRITE: a write of a chip CSR. -/
def execRegisterWrite (a : CsrReq) (s : State) : Out := .next (State.answered (s.regWrite a) 0)

/-- REJECT_CLEAR: a write of the block's REJECT_CTL with CLEAR. -/
def execRejectClear (a : CsrReq) (s : State) : Out :=
  .next (match blockNo a.pa with
    | some b => State.answered (s.rejectWrite (wr8 (blockBase b + rejectOff b) (putB a.value 6 true) a.req)) 0
    | none => State.answered (2, s.aerrQ a.pa true a.req) 0)

/-- SHADOW_READ: a read of a snapshot page. -/
def execShadowRead (a : CsrReq) (s : State) : Out :=
  .next (
    let (st, v, s1) := s.csrRead a.pa a.size a.req
    State.answered (st, s1) v)

/-- RESERVED_ACCESS: a request to an address that names nothing; at one that names a CSR block, the block decides. -/
def execReservedAccess (a : CsrReq) (write : Bool) (s : State) : Out :=
  .next (match region a.pa with
    | .reserved => State.answered (2, s.aerrQ a.pa write a.req) (if write then 0 else 256 ^ a.size - 1)
    | .mmio p =>
      if s.portMode p = 0 then State.answered (2, s.aerrQ a.pa write a.req) (if write then 0 else 256 ^ a.size - 1) else s
    | .sysMem => s
    | .ecam _ _ => s
    | .fram _ => s
    | .intWin _ => s
    | _ =>
      if write then State.answered (s.regWrite a) 0
      else
        let (st, v, s1) := s.csrRead a.pa a.size a.req
        State.answered (st, s1) v)

/-! ## Configuration writes (R322 to R327) -/

/-- Base of a port's MMIO window (Table 1.7). -/
def mmioBase (p : Nat) : Nat := 0x2000000000000 + p * 0x10000000000

/-- Whether a root port's new prefetchable range lies in the port's own window (R317); an empty range does. -/
def prefOk (p : Nat) (w24 w28 w2C : BitVec 32) : Bool :=
  let w := w24.toNat
  let lo := w / 16 % 2 ^ 12 * 2 ^ 20 + w28.toNat * 2 ^ 32
  let hi := w / 2 ^ 20 % 2 ^ 12 * 2 ^ 20 + 0xFFFFF + w2C.toNat * 2 ^ 32
  decide (hi < lo) || (decide (mmioBase p ≤ lo) && decide (hi < mmioBase p + 0x10000000000))

/-- Whether a root port refuses a register's new value, of which the bits of the mask are written: the prefetchable range,
the Subordinate Bus Number (R324), the completion timeout (Table 11.5). -/
def State.rootBad (s : State) (p off : Nat) (new mask : BitVec 32) : Bool :=
  let k := p % 4
  if off = 0x24 then !prefOk p new (s.cfgw p 0x28) (s.cfgw p 0x2C)
  else if off = 0x28 then !prefOk p (s.cfgw p 0x24) new (s.cfgw p 0x2C)
  else if off = 0x2C then !prefOk p (s.cfgw p 0x24) (s.cfgw p 0x28) new
  else if off = 0x18 then
    decide (mask &&& 0xFF0000 ≠ 0) && !(decide (64 * k ≤ new.toNat / 2 ^ 16 % 256) && decide (new.toNat / 2 ^ 16 % 256 ≤ 64 * k + 63))
  else if off = 0x88 then decide (mask &&& 0xF ≠ 0) && !([0, 1, 2, 5, 6].contains (new.toNat % 16))
  else false

/-- A register's writable bits after a write: RW bits take the written value, RW1C bits written as 1 clear. -/
def cfgNew (old v mask : BitVec 32) (m : BitVec 32 × BitVec 32) : BitVec 32 :=
  ((old &&& ~~~ (m.1 &&& mask)) ||| (v &&& m.1 &&& mask)) &&& ~~~ (v &&& m.2 &&& mask)

/-- What a write of a root port's register starts: slot power (R334), Link Disable and Retrain Link, a bus reset, the end of
DPC (R337), an unmasked MSI. -/
def State.rootEffect (s : State) (p off : Nat) (old new : BitVec 32) : State :=
  let rose (i : Nat) : Bool := !old.getLsbD i && new.getLsbD i
  let fell (i : Nat) : Bool := old.getLsbD i && !new.getLsbD i
  let st := s.portLink p
  if off = 0x78 then
    (if rose 10 && (s.port p).power then s.slotOff p
     else if fell 10 && !(s.port p).power && decide (s.portMode p ≠ 0) then s.slotOn p
     else s)
  else if off = 0x70 then
    (if rose 4 then (if st = 0 ∨ st = 5 then s else s.linkDrop p)
     else if fell 4 then (if st = 0 then s.setLink p 1 else s)
     else if new.getLsbD 5 then (s.cfgClear p 0x70 0x20).setLink p (if st = 2 then 3 else st)
     else s)
  else if off = 0x3C then
    (if rose 22 then (if st = 0 ∨ st = 5 then s else s.linkDrop p)
     else if fell 22 then (if st = 0 then s.setLink p 1 else s)
     else s)
  else if off = 0x1C8 then (if fell 0 && decide (st = 4) then s.setLink p 1 else s)
  else if off = 0x58 then (if fell 0 && decide (s.cfgw p 0x5C ≠ 0) then (s.setCfg p 0x5C 0).rootMsi p else s)
  else s

/-- A write of a root port's register. -/
def State.rootWrite (s : State) (p pa off : Nat) (v mask : BitVec 32) (q : Requester) : State :=
  let old := s.cfgw p off
  let new := cfgNew old v mask (rootMask off)
  if s.rootBad p off new mask then s.reject (544 + 16 * (p / 32) + p % 32 / 4) (BitVec.ofNat 64 pa) (BitVec.ofNat 64 v.toNat) 1 q
  else (s.setCfg p off new).rootEffect p off old new

/-- A write of a data-engine function's register: during a function reset only Device Control is taken, for its end (Table
11.10); Bus Master Enable, PowerState and Initiate Function Level Reset act (R328). -/
def State.engCfgWrite (s : State) (d off : Nat) (v mask : BitVec 32) : State :=
  let fn := 64 + d
  let old := s.cfgw fn off
  let new := cfgNew old v mask (engMask off)
  if old.getLsbD 21 && decide (off = 0x68) then
    s.setEng d { s.eng d with devCtl := some (cfgNew (((s.eng d).devCtl).getD old) v mask (0x7FFF, 0)) }
  else if (s.cfgw fn 0x68).getLsbD 21 then s
  else if off = 0x04 then
    let s1 := s.setCfg fn off ((new &&& ~~~ 4) ||| (old &&& 4))
    if old.getLsbD 2 && !new.getLsbD 2 then s1.bmeClear d else if !old.getLsbD 2 && new.getLsbD 2 then s1.bmeSet d else s1
  else if off = 0x44 then (if mask.getLsbD 0 then s.powerState d (v.toNat % 4) else s)
  else if off = 0x68 then
    let s1 := s.setCfg fn off new
    if v.getLsbD 15 && mask.getLsbD 15 then s1.flrStart d else s1
  else if off = 0x48 then (s.setCfg fn off new).msixRetry d (List.range 2048)
  else s.setCfg fn off new

/-- A configuration write (R322): the status and the state; one to a bus behind a root port is not done here. -/
def State.cfgWrite (s : State) (pa seg off size v : Nat) (q : Requester) : Nat × State :=
  if cfgOk q off size then
    let sh := 8 * (off % 4)
    let w : BitVec 32 := BitVec.ofNat 32 (v % 256 ^ size * 2 ^ sh)
    let mask : BitVec 32 := BitVec.ofNat 32 ((256 ^ size - 1) * 2 ^ sh)
    match s.cfgTarget seg off with
    | .rootPort p reg => (0, s.rootWrite p pa (reg / 4 * 4) w mask q)
    | .engine d reg => (0, s.engCfgWrite d (reg / 4 * 4) w mask)
    | .absent => (0, s)
    | .downstream _ _ _ => (0, s)
  else (2, s.aerrQ pa true q)

/-! ## Packets of side-effect accesses -/

/-- The address of a side-effect packet, and the value of its written bytes. -/
def seAddr (p : Pkt) : Nat := p.addr / 64 * 64 + p.seOp.1
def seVal (p : Pkt) : Nat := p.seOp.2.2 / 2 ^ (8 * (p.seOp.1 % 16)) % 256 ^ p.seOp.2.1
/-- The answer to a side-effect read: the bytes at their place in the aligned 16-byte group. -/
def State.seAnswer (s : State) (p : Pkt) (r : Nat × Nat × State) : State :=
  r.2.2.inject { rsp p .Data r.1 with data := if r.1 = 0 then BitVec.ofNat 512 (r.2.1 * 2 ^ (8 * (p.seOp.1 % 16))) else BitVec.allOnes 512 }

/-- A configuration access at its target: a function of the part answers, and a request to a bus behind a root port goes on
the link (R324). -/
def State.ecamTake (s : State) (p : Pkt) (q : Requester) (seg off : Nat) : State :=
  let size := p.seOp.2.1
  match (if cfgOk q off size then s.cfgTarget seg off else .absent) with
  | .downstream d _ _ => s.linkTake d { p with addr := seAddr p } true
  | _ =>
    if p.op = .SeRd then s.seAnswer p (s.cfgRead seg off size q)
    else
      let r := s.cfgWrite (seAddr p) seg off size (seVal p) q
      r.2.answer p r.1

/-- A side-effect packet that reaches its target. -/
def State.seArrive (s : State) (p : Pkt) (q : Requester) : State :=
  let pa := seAddr p
  let size := p.seOp.2.1
  match region pa with
  | .mmio i => s.mmioTake i { p with addr := pa } q
  | .ecam seg off => s.ecamTake p q seg off
  | .sysMem => s.answer p 2
  | .fram _ => (s.aerrQ pa (decide (p.op = .SeWr)) q).answer p 2
  | .intWin o =>
    if p.op = .SeWr then
      let r := s.winWrite o size (seVal p) q.router q.agent
      r.2.answer p r.1
    else (s.aerrQ pa false q).answer p 2
  | .reserved => (s.aerrQ pa (decide (p.op = .SeWr)) q).answer p 2
  | _ =>
    if p.op = .SeRd then s.seAnswer p (s.csrRead pa size q)
    else
      let r := s.regWrite { pa := pa, size := size, value := BitVec.ofNat 64 (seVal p), req := q }
      r.2.answer p r.1

/-- SERD: a side-effect read arrives at a CSR block, port or target. -/
def execSerd (p : Pkt) (q : Requester) (s : State) : Out :=
  .next (if p.op = .SeRd then s.deliver p (fun s => s.seArrive p q) else s)
/-- SEWR: a side-effect write arrives at a CSR block, port or target. -/
def execSewr (p : Pkt) (q : Requester) (s : State) : Out :=
  .next (if p.op = .SeWr then s.deliver p (fun s => s.seArrive p q) else s)
/-- CONFIG_REQUEST: an ECAM access reaches its target. -/
def execConfigRequest (p : Pkt) (q : Requester) (s : State) : Out :=
  .next (match region (seAddr p) with
    | .ecam seg off => if p.op = .SeRd ∨ p.op = .SeWr then s.deliver p (fun s => s.ecamTake p q seg off) else s
    | _ => s)
/-- MSIWR: an interrupt window write arrives at an interrupt controller (R220). -/
def execMsiwr (p : Pkt) (s : State) : Out :=
  .next (
    if p.op ≠ .MsiWr then s
    else s.deliver p (fun s =>
      match region (seAddr p) with
      | .intWin o =>
        let r := s.winWrite o p.seOp.2.1 (seVal p) p.src.router p.src.agent
        r.2.answer p r.1
      | _ => (s.aerr (seAddr p) true p.src.router p.src.agent).answer p 2))

/-! ## Stores performed (R274, R139) -/

/-- A side-effect store of a core reaches its target: none while the port's link retrains, or the status and the state. What
a device answers to a configuration write is a free choice. -/
def State.seStore (s : State) (c : Nat) (e : StEntry) : Option (Nat × State) :=
  let q : Requester := { s.reqOf c with pl := e.pl, v := e.v }
  let v := numOf (e.cells.map (fun x => x.2))
  if s.tgtFenced e.pa then some (3, s)
  else match region e.pa with
  | .sysMem => some (0, s)
  | .fram off =>
    let f := bitsN ((s.core c).srv 0x060) (4 * (off / 4096) + 3) (4 * (off / 4096))
    let ok := decide (f % 4 ≤ e.pl) && (if e.v then f.testBit 2 else (!f.testBit 2 || decide (2 ≤ e.pl)))
    if ok && decide (e.size ≤ 8) then
      some (0, s.modCore c (fun k => k.framPut ((List.range e.size).map (fun i => (off + i, BitVec.ofNat 8 (v / 256 ^ i))))))
    else some (2, s.aerrQ e.pa true q)
  | .mmio p =>
    if s.portMode p ≠ 2 then some (2, s.aerrQ e.pa true q)
    else if !s.mmioHit p e.pa || decide (s.portLink p ≠ 2 ∧ s.portLink p ≠ 3) then some (0, s.prtLog p 7 0 0 e.pa)
    else if s.portWaits p true then none
    else some (0, ((s.portEv p 0x01).portEv p 0x06).toDevice p [1, e.pa, e.size, 0, v])
  | .ecam seg off =>
    match (if cfgOk q off e.size then s.cfgTarget seg off else .absent) with
    | .downstream p _ _ =>
      if s.portWaits p false then none
      else
        let r := s.devAnswer p e.pa true true
        some (r.1, r.2.toDevice p [3, e.pa, e.size, 0, v])
    | _ => some (s.cfgWrite e.pa seg off e.size v q)
  | .intWin o => some (s.winWrite o e.size v q.router q.agent)
  | .reserved => some (2, s.aerrQ e.pa true q)
  | _ => some (s.regWrite { pa := e.pa, size := e.size, value := BitVec.ofNat 64 v, req := q })

/-- Lines of a list of cells. -/
def linesOfCells (cs : List (Nat × Byte)) : List Nat := (cs.map (fun x => x.1 / 64)).eraseDups

/-- The entry of a CFLUSH or CCLEAN that has sent its request waits for the answer. -/
def State.sendMaint (s : State) (p line : Nat) (op : Op) : Got :=
  let x := s.l2line p line
  if x.miss.isSome ∨ 96 ≤ s.misses p then .wait
  else .ok ((s.setL2 p line { x with miss := some op }).request
    { op := op, src := physAgt p, dst := sliceAgt (s.sliceOf line), txid := 0, addr := 64 * line })

/-- CFLUSH of a line with no modified data anywhere, in one step (the Flush row of Table 4.3, R128): every copy goes and the data
way is empty and unlocked. Otherwise none: the request is sent, since the home agent must take the data. -/
def State.flushLine (s : State) (l : Nat) : Option Got :=
  let d := s.dline l
  if d.way = .dirty ∨ s.copyDirty l = true then none
  else if d.busy.isSome || d.evb.isSome || s.heldElsewhere 1088 l then some .wait
  else if s.fenced (sliceAgt (s.sliceOf l)) then some (.bad 3)
  else
    let s1 := s.loseOthers 1088 l d.st.copies
    some (.ok (s1.modDir l (fun d => { d with st := .U, way := .none, wn := 0, lock := false })))

/-- CCLEAN of a line with no modified data anywhere, in one step (the Clean row): an owner keeps the line in S. Otherwise none: the
request is sent. -/
def State.cleanLine (s : State) (l : Nat) : Option Got :=
  let d := s.dline l
  if d.way = .dirty ∨ s.copyDirty l = true then none
  else if d.busy.isSome || d.evb.isSome || s.heldElsewhere 1088 l then some .wait
  else if s.fenced (sliceAgt (s.sliceOf l)) then some (.bad 3)
  else match d.st with
    | .X o =>
      let x := s.l2line o l
      if x.st = .I then some (.ok (s.modDir l (fun d => { d with st := .U })))
      else some (.ok ((s.setL2 o l { x with st := .S }).modDir l (fun d => { d with st := .S [o] })))
    | _ => some (.ok s)

/-- Whether entry i of a store buffer may be performed (R274, R138): no older entry of one of its lines, no older STRL,
FENCE.W, side-effect store, CFLUSH or CCLEAN; and a STRL, a FENCE.W or a side-effect store only as the oldest. -/
def mayPerform (buf : List StEntry) (i : Nat) (e : StEntry) : Bool :=
  let older := buf.take i
  let ls := (e.pa / 64) :: linesOfCells e.cells
  if e.kind = .rel ∨ e.kind = .fence ∨ e.kind = .sideEffect then decide (i = 0)
  else !older.any (fun x => decide (x.kind ≠ .plain ∧ x.kind ≠ .zero) || ls.any (fun l => x.onLine l))

/-- Whether an older entry of a store buffer is ready to be written, so that a later one waits for it: entries are written in program
order, but one whose line is not yet in M holds no later entry for another line (R274). -/
def State.olderReady (s : State) (p : Nat) (buf : List StEntry) (i : Nat) : Bool :=
  (buf.take i).any (fun x => (decide (x.kind = .plain) || decide (x.kind = .zero)) &&
    ((x.pa / 64) :: linesOfCells x.cells).all (fun l => decide ((s.l2line p l).st = .M)))

/-- STORE_PERFORM: entry i of a core's store buffer is performed: its bytes are written once its line is in M, or its target takes
it; a status other than OK is latched (R212). A store that crosses a line writes both halves in one write once both lines are held
in M (Table 6.10, R274). A CFLUSH or CCLEAN whose line has modified data leaves when its request is answered (R128, R131). -/
def execStorePerform (c : CoreId) (i : Nat) (s : State) : Out :=
  .next (
    let n := c.val
    let p := s.phys n
    let k := s.core n
    match k.sbuf[i]? with
    | none => s
    | some e =>
      if !mayPerform k.sbuf i e || s.olderReady p k.sbuf i then s
      else
        let l := e.pa / 64
        let s0 := s.modCore n (fun k => { k with sbuf := k.sbuf.eraseIdx i })
        let lost (s : State) (st : Nat) : State := if st = 0 then s else s.modCore n (fun k => k.latchErr e.pa st)
        let ends (s' : State) (lines : List Nat) (g : Got) (f : State → State) : State :=
          match g with
          | .wait => s
          | .bad st => lost (s'.sawBad p lines) st
          | .ok s1 => f s1
        let maint (g : Option Got) (op : Op) : State :=
          match g with
          | some g => ends s0 [l] g id
          | none => match s.sendMaint p l op with
            | .ok s1 => s1
            | _ => s
        let store : State :=
          let ls := linesOfCells e.cells
          ends s0 ls (s0.takeAllM p ls) (fun s1 =>
            let s2 := (s1.l1UseAll c p ls).wrCells e.cells
            if e.poison then ls.foldl (fun (s : State) l => s.setPoison l true) s2 else s2)
        match e.kind with
        | .fence => s0
        | .flush => maint (s0.flushLine l) .Flush
        | .clean => maint (s0.cleanLine l) .Clean
        | .zero => ends s0 [l] (s0.takeZ p l) (fun s1 => ((s1.l1Use c p l).wrCells e.cells).setPoison l false)
        | .plain => store
        | .rel => store
        | .sideEffect =>
          if inSysMem e.pa then store
          else match s0.seStore n e with
            | none => s
            | some (st, s1) => lost s1 st)

/-! ## Start-up stage 7 (R404, R418) -/

/-- A CSR_WRITE record applied as a write of the DSE: whether it was refused, and the state. -/
def State.recWrite (s : State) (r : SetRec) : Bool × State :=
  let a := at' r.val 0 8
  let b := (blockNo a).getD 0
  let s1 := (s.regWrite (wr8 a (BitVec.ofNat 64 (at' r.val 8 8)) s.dseReq)).2
  (decide ((s1.rejOf b).total ≠ (s.rejOf b).total), s1)

/-- CSR_WRITE records applied in order: how many were refused, and the state. -/
def State.recWrites (s : State) : List SetRec → Nat × State
  | [] => (0, s)
  | r :: l =>
    let x := s.recWrite r
    let y := State.recWrites x.2 l
    ((if x.1 then 1 else 0) + y.1, y.2)

/-- What the DSE writes at start-up by itself: the BARs' assigned bases (R327), and NMAX of the compute dies in the latency
profile (Table 14.6); the profile's other power settings are its reset values. -/
def State.startWrites (s : State) : State :=
  let bars (s : State) (d : Nat) : State :=
    (List.range 3).foldl (fun (s : State) b =>
      (s.setCfg (64 + d) (0x10 + 8 * b) (BitVec.ofNat 32 (barBase d b))).setCfg (64 + d) (0x14 + 8 * b) (BitVec.ofNat 32 (barBase d b / 2 ^ 32))) s
  let s1 := bars (bars s 0) 1
  if s.profile = 1 then (List.range 8).foldl (fun (s : State) k => s.putFld (dieStatA k) 39 32 (s.dse.latCores / 8)) s1 else s1

/-- STAGE_7: CSR_WRITE records are applied in image order over the profile's power settings, the dies follow them, the ledger
tells, and the lock bits of the near channels are set (R418, Table 18.3). -/
def execStage7 (s : State) : Out :=
  .next (s.stageEnd 7 (fun s =>
    let s0 := s.startWrites
    let s1 := match s.dse.setImage with
      | none => s0
      | some i =>
        let img := s.setImg i
        let r := s0.recWrites ((imgRecs img).filter (fun x => decide (x.id = 0x20)))
        r.2.ledger 2 ([i, at' img 8 4, r.1] ++ (List.range 8).map (fun j => at' (pad s.dse.setDigest 64) (8 * j) 8))
    let s2 := (List.range 8).foldl (fun (s : State) k => s.settleDie k) s1
    (List.range 12).foldl (fun (s : State) ch => s.putFlag (chBase ch) 63 true) s2))

end Sys2Proof.Machine
end

