-- ==== Sys2Proof/Machine/System.lean ====
section
/-! DEFINITION. S-format instructions other than the translation ops, and the faults of fetch and decode
(07_privilege_traps_interrupts.md; 06_panath_base_isa.md, R174, R180). -/

namespace Sys2Proof.Machine
open Sys2Proof

/-- MFSR: rd := the system register. -/
def execMfsr (c : CoreId) (rd : Reg) (sr : BitVec 12) (s : State) : Out :=
  .next (s.run c (s.srAccess c sr.toNat true (fun n g => ((s.seen n).wg c rd (s.srSee c n g)).done c)))
/-- MTSR: the system register := ra. -/
def execMtsr (c : CoreId) (ra : Reg) (sr : BitVec 12) (s : State) : Out := .next (s.mtsr c ra sr.toNat)
/-- MSSET: rd := sr, then sr := sr or ra. -/
def execMsset (c : CoreId) (rd ra : Reg) (sr : BitVec 12) (s : State) : Out :=
  .next (s.run c (s.srAccess c sr.toNat false (fun n g =>
    let old := s.srSee c n g
    (((s.seen n).srWrite c sr.toNat n g (old ||| s.rg c ra)).wg c rd old).done c)))
/-- MSCLR: rd := sr, then sr := sr and not ra. -/
def execMsclr (c : CoreId) (rd ra : Reg) (sr : BitVec 12) (s : State) : Out :=
  .next (s.run c (s.srAccess c sr.toNat false (fun n g =>
    let old := s.srSee c n g
    (((s.seen n).srWrite c sr.toNat n g (old &&& ~~~ s.rg c ra)).wg c rd old).done c)))

/-- TRET: the trap return of R208, from PL1 upward; it retires at the level it leaves. -/
def execTret (c : CoreId) (s : State) : Out :=
  .next (s.run c (
    let k := s.core c
    if k.pl = 0 then s.priv c
    else
      let k1 := k.tret
      (((s.commit c).levelChange c k1.pl k1.vf).modCore c Core.tret).count c [evInst] k.pl k.vf { pc := k.pc }))

/-- WFI: waits until a vector would be accepted, or would be if every IE were 1 (Table 7.13). -/
def execWfi (c : CoreId) (s : State) : Out :=
  .next (s.run c (
    let k := s.core c
    if k.vf && bitB (k.srv 0x053) 0 then s.trapPl2 c { code := 0x02 }
    else if k.pl = 0 then s.priv c
    else (s.modCore c (fun k => { k with run := .wfi, hold := none })).wake c))

/-- A call or break: its exception, with the sr field in tinfo.CODE (Table 7.5). -/
def State.callTrap (s : State) (c minPl code : Nat) (arg : BitVec 12) : State :=
  s.run c (if (s.core c).pl < minPl then s.priv c
    else s.trap c { code := code, info := BitVec.ofNat 64 (arg.toNat * 2 ^ 16) })

/-- SYSCALL. -/
def execSyscall (c : CoreId) (code : BitVec 12) (s : State) : Out := .next (s.callTrap c 0 0x0B code)
/-- HCALL. -/
def execHcall (c : CoreId) (code : BitVec 12) (s : State) : Out := .next (s.callTrap c 1 0x0C code)
/-- PCALL. -/
def execPcall (c : CoreId) (code : BitVec 12) (s : State) : Out := .next (s.callTrap c 1 0x0D code)
/-- BREAK. -/
def execBreakI (c : CoreId) (code : BitVec 12) (s : State) : Out := .next (s.callTrap c 0 0x0E code)

/-- ILLEGAL_INSTR: a word that the decoder finds illegal reaches retirement (R174, R291); a word that stands for an instruction raises
nothing here, since that instruction has a command of its own. -/
def execIllegalInstr (c : CoreId) (word : BitVec 32) (s : State) : Out :=
  .next (if (decodeWord c word).isNone then s.run c (s.illegal c) else s)

/-- FETCH_FAULT with a status (R205). -/
def fetchFault (pc info : Word) : Exc := { code := 0x0A, addr := pc, info := info }

/-- What the address of a fetch raises: the fetch RAM window needs no translation and is checked by R213; any other
address is translated, and where it is a side-effect address other than that window the fetch is a FETCH_FAULT (R26, R180,
R205, R247). -/
def Core.fetchExc (k : Core) : Option Exc :=
  let pc := k.pc
  if framBase ≤ pc.toNat ∧ pc.toNat < framBase + 0x4000 then
    if k.framOk (pc.toNat - framBase) then none else some (fetchFault pc (putB 0 29 true))
  else
    match k.xlate accFetch pc 4 with
    | .error e => some e
    | .ok x =>
      if x.se then
        match region (x.pas.headD 0) with
        | .fram off => if k.framOk off then none else some (fetchFault pc (putB 0 29 true))
        | _ => some (fetchFault pc (tinfoOf 2 0 false 0))
      else none

/-- FETCH_FAULT: an instruction whose fetch failed would retire (R180, R205). -/
def execFetchFault (c : CoreId) (e : FetchEnv) (s : State) : Out :=
  .next (s.run c (
    match (s.core c).fetchExc with
    | some x => s.trap c x
    | none =>
      match e with
      | .translate => s
      | .status st => if st = 0 then s else s.trap c (fetchFault (s.core c).pc (tinfoOf (st % 256) 0 false 0))
      | .poison => s.trap c (fetchFault (s.core c).pc (putB 0 28 true))))

end Sys2Proof.Machine
end

