-- ==== Sys2Proof/Machine/Dispatch.lean ====
section
/-! DEFINITION. One arm per command: its meaning, or its refusal by name. -/

namespace Sys2Proof.Machine
open Sys2Proof

/-- The effect of a command on everything but the queue. -/
def exec (i : Instr) (s : State) : Host.Outcome State Fault Refusal :=
  match i with
  | .registerWrite a => Sys2Proof.Machine.execRegisterWrite a s
  | .rejectClear a => Sys2Proof.Machine.execRejectClear a s
  | .shadowRead a => Sys2Proof.Machine.execShadowRead a s
  | .reservedAccess a write => Sys2Proof.Machine.execReservedAccess a write s
  | .coldReset powerOn => Sys2Proof.Machine.execColdReset powerOn s
  | .warmRstN => Sys2Proof.Machine.execWarmRstN s
  | .dseWarm value q => Sys2Proof.Machine.execDseWarm value q s
  | .warmReset m => Sys2Proof.Machine.execWarmReset m s
  | .coreReset t p q => Sys2Proof.Machine.execCoreReset t p q s
  | .coreRestart c => Sys2Proof.Machine.execCoreRestart c s
  | .stage1 west east => Sys2Proof.Machine.execStage1 west east s
  | .stage2 => Sys2Proof.Machine.execStage2 s
  | .stage3 selftest faults => Sys2Proof.Machine.execStage3 selftest faults s
  | .stage4 => Sys2Proof.Machine.execStage4 s
  | .stage5 chans ports => Sys2Proof.Machine.execStage5 chans ports s
  | .stage6 caps => Sys2Proof.Machine.execStage6 caps s
  | .stage7 => Sys2Proof.Machine.execStage7 s
  | .stage8 => Sys2Proof.Machine.execStage8 s
  | .stage9 vpp => Sys2Proof.Machine.execStage9 vpp s
  | .epochBoundary => Sys2Proof.Machine.execEpochBoundary s
  | .scanVisit h => Sys2Proof.Machine.execScanVisit h s
  | .remapCacheFill h f ok => Sys2Proof.Machine.execRemapCacheFill h f ok s
  | .migrationStart h => Sys2Proof.Machine.execMigrationStart h s
  | .copyPassEnd f e => Sys2Proof.Machine.execCopyPassEnd f e s
  | .switchComplete f => Sys2Proof.Machine.execSwitchComplete f s
  | .switchAbort f => Sys2Proof.Machine.execSwitchAbort f s
  | .drainEnd f => Sys2Proof.Machine.execDrainEnd f s
  | .sorCmdTail h value q => Sys2Proof.Machine.execSorCmdTail h value q s
  | .sorCmdBase h value q => Sys2Proof.Machine.execSorCmdBase h value q s
  | .sorCmdSize h value q => Sys2Proof.Machine.execSorCmdSize h value q s
  | .sorCmdSlotRead h => Sys2Proof.Machine.execSorCmdSlotRead h s
  | .migrate h d => Sys2Proof.Machine.execMigrate h d s
  | .pin h d => Sys2Proof.Machine.execPin h d s
  | .unpin h d => Sys2Proof.Machine.execUnpin h d s
  | .weight h d => Sys2Proof.Machine.execWeight h d s
  | .query h d => Sys2Proof.Machine.execQuery h d s
  | .breach => Sys2Proof.Machine.execBreach s
  | .elrRecordWrite status => Sys2Proof.Machine.execElrRecordWrite status s
  | .sorElrHead value q => Sys2Proof.Machine.execSorElrHead value q s
  | .sorElrBase value q => Sys2Proof.Machine.execSorElrBase value q s
  | .sorElrSize value q => Sys2Proof.Machine.execSorElrSize value q s
  | .sorElrReturn value q => Sys2Proof.Machine.execSorElrReturn value q s
  | .land h k => Sys2Proof.Machine.execLand h k s
  | .revokeDeadline => Sys2Proof.Machine.execRevokeDeadline s
  | .landedMoveBack h => Sys2Proof.Machine.execLandedMoveBack h s
  | .portEvacuation value q => Sys2Proof.Machine.execPortEvacuation value q s
  | .channelEvacuation value q => Sys2Proof.Machine.execChannelEvacuation value q s
  | .recentre ch rank => Sys2Proof.Machine.execRecentre ch rank s
  | .refresh ch rank burst => Sys2Proof.Machine.execRefresh ch rank burst s
  | .dramThermalEvent ch degC => Sys2Proof.Machine.execDramThermalEvent ch degC s
  | .nmcRegionWrite ch r value q => Sys2Proof.Machine.execNmcRegionWrite ch r value q s
  | .conversionLine ch e => Sys2Proof.Machine.execConversionLine ch e s
  | .nearReadDone ch cf line e => Sys2Proof.Machine.execNearReadDone ch cf line e s
  | .mergeForce ch k e => Sys2Proof.Machine.execMergeForce ch k e s
  | .scrubRead ch e => Sys2Proof.Machine.execScrubRead ch e s
  | .bucketLeak ch b => Sys2Proof.Machine.execBucketLeak ch b s
  | .nmcSpareStart ch value q => Sys2Proof.Machine.execNmcSpareStart ch value q s
  | .rowSpareDone ch ok lines => Sys2Proof.Machine.execRowSpareDone ch ok lines s
  | .resilverDone ch => Sys2Proof.Machine.execResilverDone ch s
  | .prefetch c pa => Sys2Proof.Machine.execPrefetch c pa s
  | .l2Eviction c line => Sys2Proof.Machine.execL2Eviction c line s
  | .sliceEviction t line => Sys2Proof.Machine.execSliceEviction t line s
  | .lock t value q => Sys2Proof.Machine.execLock t value q s
  | .unlock t value q => Sys2Proof.Machine.execUnlock t value q s
  | .unlockAll t value q => Sys2Proof.Machine.execUnlockAll t value q s
  | .l2Disable t p value q => Sys2Proof.Machine.execL2Disable t p value q s
  | .l2WayDisable t p value q => Sys2Proof.Machine.execL2WayDisable t p value q s
  | .l3Disable t value q => Sys2Proof.Machine.execL3Disable t value q s
  | .l3WayDisable t value q => Sys2Proof.Machine.execL3WayDisable t value q s
  | .cacheDrainDone t which => Sys2Proof.Machine.execCacheDrainDone t which s
  | .llHoldExpire c => Sys2Proof.Machine.execLlHoldExpire c s
  | .packetAtRouter r p e => Sys2Proof.Machine.execPacketAtRouter r p e s
  | .rds p => Sys2Proof.Machine.execRds p s
  | .rdx p => Sys2Proof.Machine.execRdx p s
  | .upg p => Sys2Proof.Machine.execUpg p s
  | .rdz p => Sys2Proof.Machine.execRdz p s
  | .rdnc p => Sys2Proof.Machine.execRdnc p s
  | .wrf p => Sys2Proof.Machine.execWrf p s
  | .wrp p => Sys2Proof.Machine.execWrp p s
  | .fatom p => Sys2Proof.Machine.execFatom p s
  | .flush p => Sys2Proof.Machine.execFlush p s
  | .clean p => Sys2Proof.Machine.execClean p s
  | .puts p => Sys2Proof.Machine.execPuts p s
  | .pute p => Sys2Proof.Machine.execPute p s
  | .putm p => Sys2Proof.Machine.execPutm p s
  | .hrd p => Sys2Proof.Machine.execHrd p s
  | .hwrf p => Sys2Proof.Machine.execHwrf p s
  | .hwrp p => Sys2Proof.Machine.execHwrp p s
  | .hatom p => Sys2Proof.Machine.execHatom p s
  | .hput p => Sys2Proof.Machine.execHput p s
  | .serd p q => Sys2Proof.Machine.execSerd p q s
  | .sewr p q => Sys2Proof.Machine.execSewr p q s
  | .msiwr p => Sys2Proof.Machine.execMsiwr p s
  | .prd p => Sys2Proof.Machine.execPrd p s
  | .pwrf p => Sys2Proof.Machine.execPwrf p s
  | .pwrp p => Sys2Proof.Machine.execPwrp p s
  | .patom p => Sys2Proof.Machine.execPatom p s
  | .snps p => Sys2Proof.Machine.execSnps p s
  | .snpx p => Sys2Proof.Machine.execSnpx p s
  | .inv p => Sys2Proof.Machine.execInv p s
  | .data p => Sys2Proof.Machine.execData p s
  | .grant p => Sys2Proof.Machine.execGrant p s
  | .cmp p => Sys2Proof.Machine.execCmp p s
  | .wbgo p => Sys2Proof.Machine.execWbgo p s
  | .wbstale p => Sys2Proof.Machine.execWbstale p s
  | .wback p => Sys2Proof.Machine.execWback p s
  | .wbdata p => Sys2Proof.Machine.execWbdata p s
  | .putcancel p => Sys2Proof.Machine.execPutcancel p s
  | .snprsp p => Sys2Proof.Machine.execSnprsp p s
  | .snpdata p => Sys2Proof.Machine.execSnpdata p s
  | .invack p => Sys2Proof.Machine.execInvack p s
  | .back p => Sys2Proof.Machine.execBack p s
  | .rwrite p => Sys2Proof.Machine.execRwrite p s
  | .rwack p => Sys2Proof.Machine.execRwack p s
  | .mark p => Sys2Proof.Machine.execMark p s
  | .markAck p => Sys2Proof.Machine.execMarkAck p s
  | .arm => Sys2Proof.Machine.execArm s
  | .commit => Sys2Proof.Machine.execCommit s
  | .release => Sys2Proof.Machine.execRelease s
  | .countQuery id => Sys2Proof.Machine.execCountQuery id s
  | .sweep => Sys2Proof.Machine.execSweep s
  | .l3RedirRewrite k fromS toS valid => Sys2Proof.Machine.execL3RedirRewrite k fromS toS valid s
  | .homemapRewrite h ch => Sys2Proof.Machine.execHomemapRewrite h ch s
  | .lcmapRewrite n phys st => Sys2Proof.Machine.execLcmapRewrite n phys st s
  | .tlbInvalidationBcast id a => Sys2Proof.Machine.execTlbInvalidationBcast id a s
  | .routerOutOfService r => Sys2Proof.Machine.execRouterOutOfService r s
  | .meshFence r a => Sys2Proof.Machine.execMeshFence r a s
  | .meshProxySet r a => Sys2Proof.Machine.execMeshProxySet r a s
  | .meshProxyClear r a => Sys2Proof.Machine.execMeshProxyClear r a s
  | .meshFenceClear r a => Sys2Proof.Machine.execMeshFenceClear r a s
  | .addi c rd ra imm => Sys2Proof.Machine.execAddi c rd ra imm s
  | .andi c rd ra imm => Sys2Proof.Machine.execAndi c rd ra imm s
  | .ori c rd ra imm => Sys2Proof.Machine.execOri c rd ra imm s
  | .xori c rd ra imm => Sys2Proof.Machine.execXori c rd ra imm s
  | .slti c rd ra imm => Sys2Proof.Machine.execSlti c rd ra imm s
  | .sltiu c rd ra imm => Sys2Proof.Machine.execSltiu c rd ra imm s
  | .slli c rd ra sh => Sys2Proof.Machine.execSlli c rd ra sh s
  | .srli c rd ra sh => Sys2Proof.Machine.execSrli c rd ra sh s
  | .srai c rd ra sh => Sys2Proof.Machine.execSrai c rd ra sh s
  | .rori c rd ra sh => Sys2Proof.Machine.execRori c rd ra sh s
  | .slliw c rd ra sh => Sys2Proof.Machine.execSlliw c rd ra sh s
  | .srliw c rd ra sh => Sys2Proof.Machine.execSrliw c rd ra sh s
  | .sraiw c rd ra sh => Sys2Proof.Machine.execSraiw c rd ra sh s
  | .li c rd imm => Sys2Proof.Machine.execLi c rd imm s
  | .lsi c rd imm => Sys2Proof.Machine.execLsi c rd imm s
  | .pcoff c rd imm => Sys2Proof.Machine.execPcoff c rd imm s
  | .add c rd ra rb => Sys2Proof.Machine.execAdd c rd ra rb s
  | .sub c rd ra rb => Sys2Proof.Machine.execSub c rd ra rb s
  | .addw c rd ra rb => Sys2Proof.Machine.execAddw c rd ra rb s
  | .subw c rd ra rb => Sys2Proof.Machine.execSubw c rd ra rb s
  | .and c rd ra rb => Sys2Proof.Machine.execAnd c rd ra rb s
  | .or c rd ra rb => Sys2Proof.Machine.execOr c rd ra rb s
  | .xor c rd ra rb => Sys2Proof.Machine.execXor c rd ra rb s
  | .andn c rd ra rb => Sys2Proof.Machine.execAndn c rd ra rb s
  | .orn c rd ra rb => Sys2Proof.Machine.execOrn c rd ra rb s
  | .xnor c rd ra rb => Sys2Proof.Machine.execXnor c rd ra rb s
  | .sll c rd ra rb => Sys2Proof.Machine.execSll c rd ra rb s
  | .srl c rd ra rb => Sys2Proof.Machine.execSrl c rd ra rb s
  | .sra c rd ra rb => Sys2Proof.Machine.execSra c rd ra rb s
  | .ror c rd ra rb => Sys2Proof.Machine.execRor c rd ra rb s
  | .sllw c rd ra rb => Sys2Proof.Machine.execSllw c rd ra rb s
  | .srlw c rd ra rb => Sys2Proof.Machine.execSrlw c rd ra rb s
  | .sraw c rd ra rb => Sys2Proof.Machine.execSraw c rd ra rb s
  | .slt c rd ra rb => Sys2Proof.Machine.execSlt c rd ra rb s
  | .sltu c rd ra rb => Sys2Proof.Machine.execSltu c rd ra rb s
  | .min c rd ra rb => Sys2Proof.Machine.execMin c rd ra rb s
  | .max c rd ra rb => Sys2Proof.Machine.execMax c rd ra rb s
  | .minu c rd ra rb => Sys2Proof.Machine.execMinu c rd ra rb s
  | .maxu c rd ra rb => Sys2Proof.Machine.execMaxu c rd ra rb s
  | .selz c rd ra rb => Sys2Proof.Machine.execSelz c rd ra rb s
  | .selnz c rd ra rb => Sys2Proof.Machine.execSelnz c rd ra rb s
  | .clz c rd ra => Sys2Proof.Machine.execClz c rd ra s
  | .ctz c rd ra => Sys2Proof.Machine.execCtz c rd ra s
  | .popc c rd ra => Sys2Proof.Machine.execPopc c rd ra s
  | .bswap c rd ra => Sys2Proof.Machine.execBswap c rd ra s
  | .sextb c rd ra => Sys2Proof.Machine.execSextb c rd ra s
  | .sexth c rd ra => Sys2Proof.Machine.execSexth c rd ra s
  | .sextw c rd ra => Sys2Proof.Machine.execSextw c rd ra s
  | .zextw c rd ra => Sys2Proof.Machine.execZextw c rd ra s
  | .mul c rd ra rb => Sys2Proof.Machine.execMul c rd ra rb s
  | .mulh c rd ra rb => Sys2Proof.Machine.execMulh c rd ra rb s
  | .mulhu c rd ra rb => Sys2Proof.Machine.execMulhu c rd ra rb s
  | .mulhsu c rd ra rb => Sys2Proof.Machine.execMulhsu c rd ra rb s
  | .mulw c rd ra rb => Sys2Proof.Machine.execMulw c rd ra rb s
  | .div c rd ra rb => Sys2Proof.Machine.execDiv c rd ra rb s
  | .divu c rd ra rb => Sys2Proof.Machine.execDivu c rd ra rb s
  | .rem c rd ra rb => Sys2Proof.Machine.execRem c rd ra rb s
  | .remu c rd ra rb => Sys2Proof.Machine.execRemu c rd ra rb s
  | .divw c rd ra rb => Sys2Proof.Machine.execDivw c rd ra rb s
  | .divuw c rd ra rb => Sys2Proof.Machine.execDivuw c rd ra rb s
  | .remw c rd ra rb => Sys2Proof.Machine.execRemw c rd ra rb s
  | .remuw c rd ra rb => Sys2Proof.Machine.execRemuw c rd ra rb s
  | .beq c ra rb off => Sys2Proof.Machine.execBeq c ra rb off s
  | .bne c ra rb off => Sys2Proof.Machine.execBne c ra rb off s
  | .blt c ra rb off => Sys2Proof.Machine.execBlt c ra rb off s
  | .bge c ra rb off => Sys2Proof.Machine.execBge c ra rb off s
  | .bltu c ra rb off => Sys2Proof.Machine.execBltu c ra rb off s
  | .bgeu c ra rb off => Sys2Proof.Machine.execBgeu c ra rb off s
  | .j c off => Sys2Proof.Machine.execJ c off s
  | .jal c off => Sys2Proof.Machine.execJal c off s
  | .jalr c rd ra imm => Sys2Proof.Machine.execJalr c rd ra imm s
  | .lb c rd ra imm => Sys2Proof.Machine.execLb c rd ra imm s
  | .lbu c rd ra imm => Sys2Proof.Machine.execLbu c rd ra imm s
  | .lh c rd ra imm => Sys2Proof.Machine.execLh c rd ra imm s
  | .lhu c rd ra imm => Sys2Proof.Machine.execLhu c rd ra imm s
  | .lw c rd ra imm => Sys2Proof.Machine.execLw c rd ra imm s
  | .lwu c rd ra imm => Sys2Proof.Machine.execLwu c rd ra imm s
  | .ld c rd ra imm => Sys2Proof.Machine.execLd c rd ra imm s
  | .sb c rs ra imm => Sys2Proof.Machine.execSb c rs ra imm s
  | .sh c rs ra imm => Sys2Proof.Machine.execSh c rs ra imm s
  | .sw c rs ra imm => Sys2Proof.Machine.execSw c rs ra imm s
  | .sd c rs ra imm => Sys2Proof.Machine.execSd c rs ra imm s
  | .storePerform c k => Sys2Proof.Machine.execStorePerform c k s
  | .ldaq c rd ra sz => Sys2Proof.Machine.execLdaq c rd ra sz s
  | .strl c ra rb sz => Sys2Proof.Machine.execStrl c ra rb sz s
  | .ll c rd ra sz aq => Sys2Proof.Machine.execLl c rd ra sz aq s
  | .sc c rd ra rb sz rl => Sys2Proof.Machine.execSc c rd ra rb sz rl s
  | .aadd c rd ra rb sz aq rl => Sys2Proof.Machine.execAadd c rd ra rb sz aq rl s
  | .aswap c rd ra rb sz aq rl => Sys2Proof.Machine.execAswap c rd ra rb sz aq rl s
  | .acas c rd ra rb sz aq rl => Sys2Proof.Machine.execAcas c rd ra rb sz aq rl s
  | .amin c rd ra rb sz aq rl => Sys2Proof.Machine.execAmin c rd ra rb sz aq rl s
  | .amax c rd ra rb sz aq rl => Sys2Proof.Machine.execAmax c rd ra rb sz aq rl s
  | .aminu c rd ra rb sz aq rl => Sys2Proof.Machine.execAminu c rd ra rb sz aq rl s
  | .amaxu c rd ra rb sz aq rl => Sys2Proof.Machine.execAmaxu c rd ra rb sz aq rl s
  | .fadd c rd ra rb p rm => Sys2Proof.Machine.execFadd c rd ra rb p rm s
  | .fsub c rd ra rb p rm => Sys2Proof.Machine.execFsub c rd ra rb p rm s
  | .fmul c rd ra rb p rm => Sys2Proof.Machine.execFmul c rd ra rb p rm s
  | .fdiv c rd ra rb p rm => Sys2Proof.Machine.execFdiv c rd ra rb p rm s
  | .fsqrt c rd ra p rm => Sys2Proof.Machine.execFsqrt c rd ra p rm s
  | .fmin c rd ra rb p => Sys2Proof.Machine.execFmin c rd ra rb p s
  | .fmax c rd ra rb p => Sys2Proof.Machine.execFmax c rd ra rb p s
  | .fmadd c rd ra rb p rm => Sys2Proof.Machine.execFmadd c rd ra rb p rm s
  | .fmsub c rd ra rb p rm => Sys2Proof.Machine.execFmsub c rd ra rb p rm s
  | .fnmadd c rd ra rb p rm => Sys2Proof.Machine.execFnmadd c rd ra rb p rm s
  | .feq c rd ra rb p => Sys2Proof.Machine.execFeq c rd ra rb p s
  | .flt c rd ra rb p => Sys2Proof.Machine.execFlt c rd ra rb p s
  | .fle c rd ra rb p => Sys2Proof.Machine.execFle c rd ra rb p s
  | .fkind c rd ra p => Sys2Proof.Machine.execFkind c rd ra p s
  | .ftoi c rd ra p rm => Sys2Proof.Machine.execFtoi c rd ra p rm s
  | .ftou c rd ra p rm => Sys2Proof.Machine.execFtou c rd ra p rm s
  | .itof c rd ra p rm => Sys2Proof.Machine.execItof c rd ra p rm s
  | .utof c rd ra p rm => Sys2Proof.Machine.execUtof c rd ra p rm s
  | .fnarrow c rd ra rm => Sys2Proof.Machine.execFnarrow c rd ra rm s
  | .fwiden c rd ra => Sys2Proof.Machine.execFwiden c rd ra s
  | .fcpys c rd ra rb p => Sys2Proof.Machine.execFcpys c rd ra rb p s
  | .fcpysn c rd ra rb p => Sys2Proof.Machine.execFcpysn c rd ra rb p s
  | .fcpysx c rd ra rb p => Sys2Proof.Machine.execFcpysx c rd ra rb p s
  | .frcsr c rd => Sys2Proof.Machine.execFrcsr c rd s
  | .fwcsr c rd ra => Sys2Proof.Machine.execFwcsr c rd ra s
  | .fence c => Sys2Proof.Machine.execFence c s
  | .fenceR c => Sys2Proof.Machine.execFenceR c s
  | .fenceW c => Sys2Proof.Machine.execFenceW c s
  | .cflush c ra => Sys2Proof.Machine.execCflush c ra s
  | .cclean c ra => Sys2Proof.Machine.execCclean c ra s
  | .czero c ra => Sys2Proof.Machine.execCzero c ra s
  | .sbar c => Sys2Proof.Machine.execSbar c s
  | .pflush c => Sys2Proof.Machine.execPflush c s
  | .rdctime c rd => Sys2Proof.Machine.execRdctime c rd s
  | .pause c => Sys2Proof.Machine.execPause c s
  | .mfsr c rd sr => Sys2Proof.Machine.execMfsr c rd sr s
  | .mtsr c ra sr => Sys2Proof.Machine.execMtsr c ra sr s
  | .msset c rd ra sr => Sys2Proof.Machine.execMsset c rd ra sr s
  | .msclr c rd ra sr => Sys2Proof.Machine.execMsclr c rd ra sr s
  | .tret c => Sys2Proof.Machine.execTret c s
  | .wfi c => Sys2Proof.Machine.execWfi c s
  | .syscall c code => Sys2Proof.Machine.execSyscall c code s
  | .hcall c code => Sys2Proof.Machine.execHcall c code s
  | .pcall c code => Sys2Proof.Machine.execPcall c code s
  | .breakI c code => Sys2Proof.Machine.execBreakI c code s
  | .tlbwr c rd ra sr => Sys2Proof.Machine.execTlbwr c rd ra sr s
  | .tlbrd c rd ra sr => Sys2Proof.Machine.execTlbrd c rd ra sr s
  | .tlbprb c rd ra sr => Sys2Proof.Machine.execTlbprb c rd ra sr s
  | .tlbinv c rd ra sr => Sys2Proof.Machine.execTlbinv c rd ra sr s
  | .tlbsync c sr => Sys2Proof.Machine.execTlbsync c sr s
  | .s2wr c rd ra sr => Sys2Proof.Machine.execS2wr c rd ra sr s
  | .s2inv c rd ra sr => Sys2Proof.Machine.execS2inv c rd ra sr s
  | .interruptTaken c => Sys2Proof.Machine.execInterruptTaken c s
  | .errStore c pa status => Sys2Proof.Machine.execErrStore c pa status s
  | .errCore c => Sys2Proof.Machine.execErrCore c s
  | .timerCmpWrite c ra => Sys2Proof.Machine.execTimerCmpWrite c ra s
  | .timerFire c => Sys2Proof.Machine.execTimerFire c s
  | .timerClaim c ra => Sys2Proof.Machine.execTimerClaim c ra s
  | .timerRelease c ra => Sys2Proof.Machine.execTimerRelease c ra s
  | .intEoi c ra => Sys2Proof.Machine.execIntEoi c ra s
  | .walkFill c ra => Sys2Proof.Machine.execWalkFill c ra s
  | .inboundRequest r => Sys2Proof.Machine.execInboundRequest r s
  | .ioWalkDone d k => Sys2Proof.Machine.execIoWalkDone d k s
  | .iotCtxinv d value q => Sys2Proof.Machine.execIotCtxinv d value q s
  | .storeWaitClear c => Sys2Proof.Machine.execStoreWaitClear c s
  | .lockstepMismatch c pc => Sys2Proof.Machine.execLockstepMismatch c pc s
  | .portDivergence c pc => Sys2Proof.Machine.execPortDivergence c pc s
  | .vadd c vd va vb m w z => Sys2Proof.Machine.execVadd c vd va vb m w z s
  | .vsub c vd va vb m w z => Sys2Proof.Machine.execVsub c vd va vb m w z s
  | .vmul c vd va vb m w z => Sys2Proof.Machine.execVmul c vd va vb m w z s
  | .vmin c vd va vb m w z => Sys2Proof.Machine.execVmin c vd va vb m w z s
  | .vmax c vd va vb m w z => Sys2Proof.Machine.execVmax c vd va vb m w z s
  | .vminu c vd va vb m w z => Sys2Proof.Machine.execVminu c vd va vb m w z s
  | .vmaxu c vd va vb m w z => Sys2Proof.Machine.execVmaxu c vd va vb m w z s
  | .vand c vd va vb m w z => Sys2Proof.Machine.execVand c vd va vb m w z s
  | .vor c vd va vb m w z => Sys2Proof.Machine.execVor c vd va vb m w z s
  | .vxor c vd va vb m w z => Sys2Proof.Machine.execVxor c vd va vb m w z s
  | .vandn c vd va vb m w z => Sys2Proof.Machine.execVandn c vd va vb m w z s
  | .vsll c vd va vb m w z => Sys2Proof.Machine.execVsll c vd va vb m w z s
  | .vsrl c vd va vb m w z => Sys2Proof.Machine.execVsrl c vd va vb m w z s
  | .vsra c vd va vb m w z => Sys2Proof.Machine.execVsra c vd va vb m w z s
  | .vabsdu c vd va vb m w z => Sys2Proof.Machine.execVabsdu c vd va vb m w z s
  | .vcmpeq c md va vb m w z => Sys2Proof.Machine.execVcmpeq c md va vb m w z s
  | .vcmpne c md va vb m w z => Sys2Proof.Machine.execVcmpne c md va vb m w z s
  | .vcmplt c md va vb m w z => Sys2Proof.Machine.execVcmplt c md va vb m w z s
  | .vcmpltu c md va vb m w z => Sys2Proof.Machine.execVcmpltu c md va vb m w z s
  | .vcmple c md va vb m w z => Sys2Proof.Machine.execVcmple c md va vb m w z s
  | .vcmpleu c md va vb m w z => Sys2Proof.Machine.execVcmpleu c md va vb m w z s
  | .vsel c vd va vb m w => Sys2Proof.Machine.execVsel c vd va vb m w s
  | .vshuf c vd va vb m z => Sys2Proof.Machine.execVshuf c vd va vb m z s
  | .vzipl c vd va vb m w z => Sys2Proof.Machine.execVzipl c vd va vb m w z s
  | .vziph c vd va vb m w z => Sys2Proof.Machine.execVziph c vd va vb m w z s
  | .vuzpe c vd va vb m w z => Sys2Proof.Machine.execVuzpe c vd va vb m w z s
  | .vuzpo c vd va vb m w z => Sys2Proof.Machine.execVuzpo c vd va vb m w z s
  | .vcompress c vd va m w => Sys2Proof.Machine.execVcompress c vd va m w s
  | .vwmulL c vd va vb m w z => Sys2Proof.Machine.execVwmulL c vd va vb m w z s
  | .vwmulH c vd va vb m w z => Sys2Proof.Machine.execVwmulH c vd va vb m w z s
  | .vwmuluL c vd va vb m w z => Sys2Proof.Machine.execVwmuluL c vd va vb m w z s
  | .vwmuluH c vd va vb m w z => Sys2Proof.Machine.execVwmuluH c vd va vb m w z s
  | .vwmaccL c vd va vb m w z => Sys2Proof.Machine.execVwmaccL c vd va vb m w z s
  | .vwmaccH c vd va vb m w z => Sys2Proof.Machine.execVwmaccH c vd va vb m w z s
  | .vwmaccuL c vd va vb m w z => Sys2Proof.Machine.execVwmaccuL c vd va vb m w z s
  | .vwmaccuH c vd va vb m w z => Sys2Proof.Machine.execVwmaccuH c vd va vb m w z s
  | .vdot c vd va vb m w z => Sys2Proof.Machine.execVdot c vd va vb m w z s
  | .vdotu c vd va vb m w z => Sys2Proof.Machine.execVdotu c vd va vb m w z s
  | .vdotsu c vd va vb m w z => Sys2Proof.Machine.execVdotsu c vd va vb m w z s
  | .vfadd c vd va vb m w z => Sys2Proof.Machine.execVfadd c vd va vb m w z s
  | .vfsub c vd va vb m w z => Sys2Proof.Machine.execVfsub c vd va vb m w z s
  | .vfmul c vd va vb m w z => Sys2Proof.Machine.execVfmul c vd va vb m w z s
  | .vfmadd c vd va vb m w z => Sys2Proof.Machine.execVfmadd c vd va vb m w z s
  | .vfmin c vd va vb m w z => Sys2Proof.Machine.execVfmin c vd va vb m w z s
  | .vfmax c vd va vb m w z => Sys2Proof.Machine.execVfmax c vd va vb m w z s
  | .vfcmpeq c md va vb m w z => Sys2Proof.Machine.execVfcmpeq c md va vb m w z s
  | .vfcmplt c md va vb m w z => Sys2Proof.Machine.execVfcmplt c md va vb m w z s
  | .vfcmple c md va vb m w z => Sys2Proof.Machine.execVfcmple c md va vb m w z s
  | .vitof c vd va m w z => Sys2Proof.Machine.execVitof c vd va m w z s
  | .vftoi c vd va m w z => Sys2Proof.Machine.execVftoi c vd va m w z s
  | .vmand c md ma mb => Sys2Proof.Machine.execVmand c md ma mb s
  | .vmor c md ma mb => Sys2Proof.Machine.execVmor c md ma mb s
  | .vmxor c md ma mb => Sys2Proof.Machine.execVmxor c md ma mb s
  | .vmandn c md ma mb => Sys2Proof.Machine.execVmandn c md ma mb s
  | .vsatadd c vd va vb m e32 z => Sys2Proof.Machine.execVsatadd c vd va vb m e32 z s
  | .vfrmul c vd va vb m e32 z => Sys2Proof.Machine.execVfrmul c vd va vb m e32 z s
  | .vsatsub c vd va vb m e32 z => Sys2Proof.Machine.execVsatsub c vd va vb m e32 z s
  | .vfrmulr c vd va vb m e32 z => Sys2Proof.Machine.execVfrmulr c vd va vb m e32 z s
  | .vld c vd ra m w z => Sys2Proof.Machine.execVld c vd ra m w z s
  | .vst c vs ra m w => Sys2Proof.Machine.execVst c vs ra m w s
  | .vldff c vd ra m w z => Sys2Proof.Machine.execVldff c vd ra m w z s
  | .vlds c vd ra rb m w z => Sys2Proof.Machine.execVlds c vd ra rb m w z s
  | .vsts c vs ra rb m w => Sys2Proof.Machine.execVsts c vs ra rb m w s
  | .vgather c vd ra vb k m w z => Sys2Proof.Machine.execVgather c vd ra vb k m w z s
  | .vscatter c vs ra vb k m w => Sys2Proof.Machine.execVscatter c vs ra vb k m w s
  | .vgatherff c vd ra vb k m w z => Sys2Proof.Machine.execVgatherff c vd ra vb k m w z s
  | .vbcast c vd ra m w z => Sys2Proof.Machine.execVbcast c vd ra m w z s
  | .vins c vd ra rb w => Sys2Proof.Machine.execVins c vd ra rb w s
  | .vmvgv c rd va rb w => Sys2Proof.Machine.execVmvgv c rd va rb w s
  | .vmmv c md ra => Sys2Proof.Machine.execVmmv c md ra s
  | .vmrd c rd ms => Sys2Proof.Machine.execVmrd c rd ms s
  | .vmcnt c md ra w => Sys2Proof.Machine.execVmcnt c md ra w s
  | .vmpopc c rd ms w => Sys2Proof.Machine.execVmpopc c rd ms w s
  | .vmffm c md => Sys2Proof.Machine.execVmffm c md s
  | .vrsum c rd va m w => Sys2Proof.Machine.execVrsum c rd va m w s
  | .vrmin c rd va m w => Sys2Proof.Machine.execVrmin c rd va m w s
  | .vrmax c rd va m w => Sys2Proof.Machine.execVrmax c rd va m w s
  | .vrminu c rd va m w => Sys2Proof.Machine.execVrminu c rd va m w s
  | .vrmaxu c rd va m w => Sys2Proof.Machine.execVrmaxu c rd va m w s
  | .vrand c rd va m w => Sys2Proof.Machine.execVrand c rd va m w s
  | .vror c rd va m w => Sys2Proof.Machine.execVror c rd va m w s
  | .vrxor c rd va m w => Sys2Proof.Machine.execVrxor c rd va m w s
  | .vpwrHoldExpire c => Sys2Proof.Machine.execVpwrHoldExpire c s
  | .tileVpwrWrite t p value q => Sys2Proof.Machine.execTileVpwrWrite t p value q s
  | .linkTrained p e => Sys2Proof.Machine.execLinkTrained p e s
  | .linkDown p => Sys2Proof.Machine.execLinkDown p s
  | .cxlResponse p tag e => Sys2Proof.Machine.execCxlResponse p tag e s
  | .memTimeout p tag => Sys2Proof.Machine.execMemTimeout p tag s
  | .completionReceived p tag e => Sys2Proof.Machine.execCompletionReceived p tag e s
  | .cplTimeout p tag => Sys2Proof.Machine.execCplTimeout p tag s
  | .rrsExhausted p tag => Sys2Proof.Machine.execRrsExhausted p tag s
  | .configRequest p q => Sys2Proof.Machine.execConfigRequest p q s
  | .peerWindowWrite p w value q => Sys2Proof.Machine.execPeerWindowWrite p w value q s
  | .dpcTrigger p fatal => Sys2Proof.Machine.execDpcTrigger p fatal s
  | .dpcClear p => Sys2Proof.Machine.execDpcClear p s
  | .slotPowerOn p => Sys2Proof.Machine.execSlotPowerOn p s
  | .perstDeassert p => Sys2Proof.Machine.execPerstDeassert p s
  | .slotPowerOff p => Sys2Proof.Machine.execSlotPowerOff p s
  | .presenceChange p present => Sys2Proof.Machine.execPresenceChange p present s
  | .hotplugFrame d inputs => Sys2Proof.Machine.execHotplugFrame d inputs s
  | .transitionSlotGrant p => Sys2Proof.Machine.execTransitionSlotGrant p s
  | .busMasterEnableClear d => Sys2Proof.Machine.execBusMasterEnableClear d s
  | .busMasterEnableSet d => Sys2Proof.Machine.execBusMasterEnableSet d s
  | .initiateFunctionLevelReset d => Sys2Proof.Machine.execInitiateFunctionLevelReset d s
  | .d3hotEntry d => Sys2Proof.Machine.execD3hotEntry d s
  | .d3hotToD0 d => Sys2Proof.Machine.execD3hotToD0 d s
  | .functionResetSquash d => Sys2Proof.Machine.execFunctionResetSquash d s
  | .functionResetDone d => Sys2Proof.Machine.execFunctionResetDone d s
  | .dbSqTail d n value q => Sys2Proof.Machine.execDbSqTail d n value q s
  | .descriptorRead d n => Sys2Proof.Machine.execDescriptorRead d n s
  | .descriptorRetry d n => Sys2Proof.Machine.execDescriptorRetry d n s
  | .dispatch d u => Sys2Proof.Machine.execDispatch d u s
  | .copy d u => Sys2Proof.Machine.execCopy d u s
  | .fill d u => Sys2Proof.Machine.execFill d u s
  | .compare d u => Sys2Proof.Machine.execCompare d u s
  | .compress d u => Sys2Proof.Machine.execCompress d u s
  | .decompress d u => Sys2Proof.Machine.execDecompress d u s
  | .blockBoundary d u => Sys2Proof.Machine.execBlockBoundary d u s
  | .jobEnd d u => Sys2Proof.Machine.execJobEnd d u s
  | .dbCqHead d n value q => Sys2Proof.Machine.execDbCqHead d n value q s
  | .roundStart d => Sys2Proof.Machine.execRoundStart d s
  | .unitIdle d u => Sys2Proof.Machine.execUnitIdle d u s
  | .create d n => Sys2Proof.Machine.execCreate d n s
  | .destroy d n => Sys2Proof.Machine.execDestroy d n s
  | .setShare d n => Sys2Proof.Machine.execSetShare d n s
  | .resetDrain d n => Sys2Proof.Machine.execResetDrain d n s
  | .resetSquash d n => Sys2Proof.Machine.execResetSquash d n s
  | .freeze d n => Sys2Proof.Machine.execFreeze d n s
  | .unfreeze d n => Sys2Proof.Machine.execUnfreeze d n s
  | .save d n => Sys2Proof.Machine.execSave d n s
  | .restore d n => Sys2Proof.Machine.execRestore d n s
  | .mbxQuery d n => Sys2Proof.Machine.execMbxQuery d n s
  | .sampleRecordWrite c status => Sys2Proof.Machine.execSampleRecordWrite c status s
  | .sampTclaim c ra => Sys2Proof.Machine.execSampTclaim c ra s
  | .sampTrelease c ra => Sys2Proof.Machine.execSampTrelease c ra s
  | .sampBase c ra => Sys2Proof.Machine.execSampBase c ra s
  | .sampHead c ra => Sys2Proof.Machine.execSampHead c ra s
  | .keySnap value q => Sys2Proof.Machine.execKeySnap value q s
  | .keyFreeze value q => Sys2Proof.Machine.execKeyFreeze value q s
  | .keyThaw value q => Sys2Proof.Machine.execKeyThaw value q s
  | .keyCancel value q => Sys2Proof.Machine.execKeyCancel value q s
  | .keyArmBcast b => Sys2Proof.Machine.execKeyArmBcast b s
  | .keystoneTick => Sys2Proof.Machine.execKeystoneTick s
  | .keystoneDone timedOut => Sys2Proof.Machine.execKeystoneDone timedOut s
  | .timeDistribution ticks => Sys2Proof.Machine.execTimeDistribution ticks s
  | .tollRequest r => Sys2Proof.Machine.execTollRequest r s
  | .tollGrant k => Sys2Proof.Machine.execTollGrant k s
  | .leaseExpire k i0 => Sys2Proof.Machine.execLeaseExpire k i0 s
  | .tollReturn k i0 => Sys2Proof.Machine.execTollReturn k i0 s
  | .dvfsRequest t value q => Sys2Proof.Machine.execDvfsRequest t value q s
  | .dvfsChangeDone t => Sys2Proof.Machine.execDvfsChangeDone t s
  | .powerEstimate k est => Sys2Proof.Machine.execPowerEstimate k est s
  | .pmbusRead corr => Sys2Proof.Machine.execPmbusRead corr s
  | .excursionBucketEmpty => Sys2Proof.Machine.execExcursionBucketEmpty s
  | .sensorSample k raw => Sys2Proof.Machine.execSensorSample k raw s
  | .hotExit k => Sys2Proof.Machine.execHotExit k s
  | .domainDown value q => Sys2Proof.Machine.execDomainDown value q s
  | .domainUp value q e ok => Sys2Proof.Machine.execDomainUp value q e ok s
  | .domainDrainTimeout => Sys2Proof.Machine.execDomainDrainTimeout s
  | .heartbeat => Sys2Proof.Machine.execHeartbeat s
  | .takeover => Sys2Proof.Machine.execTakeover s
  | .dseRelease value q => Sys2Proof.Machine.execDseRelease value q s
  | .newnonce smbus => Sys2Proof.Machine.execNewnonce smbus s
  | .nonceExpire smbus => Sys2Proof.Machine.execNonceExpire smbus s
  | .enrollKey m => Sys2Proof.Machine.execEnrollKey m s
  | .revokeKey m => Sys2Proof.Machine.execRevokeKey m s
  | .fwUpdate m => Sys2Proof.Machine.execFwUpdate m s
  | .settingsUpdate m => Sys2Proof.Machine.execSettingsUpdate m s
  | .portAdd m e => Sys2Proof.Machine.execPortAdd m e s
  | .portRemove m => Sys2Proof.Machine.execPortRemove m s
  | .spareCore m => Sys2Proof.Machine.execSpareCore m s
  | .quote m => Sys2Proof.Machine.execQuote m s
  | .readback m => Sys2Proof.Machine.execReadback m s
  | .ledgerRead m => Sys2Proof.Machine.execLedgerRead m s
  | .certRead m => Sys2Proof.Machine.execCertRead m s
  | .setLifecycle m => Sys2Proof.Machine.execSetLifecycle m s
  | .debugUnlock m => Sys2Proof.Machine.execDebugUnlock m s
  | .smbusBlockWrite bytes => Sys2Proof.Machine.execSmbusBlockWrite bytes s
  | .smbusResponseRead => Sys2Proof.Machine.execSmbusResponseRead s
  | .smbusControl wr => Sys2Proof.Machine.execSmbusControl wr s
  | .smbusNonceRead => Sys2Proof.Machine.execSmbusNonceRead s
  | .sensorRead code sel => Sys2Proof.Machine.execSensorRead code sel s
  | .ledgerProgram => Sys2Proof.Machine.execLedgerProgram s
  | .spiTclaim value q => Sys2Proof.Machine.execSpiTclaim value q s
  | .spiTrelease value q => Sys2Proof.Machine.execSpiTrelease value q s
  | .catErrWatchdog => Sys2Proof.Machine.execCatErrWatchdog s
  | .faultReport r => Sys2Proof.Machine.execFaultReport r s
  | .selftestEnd k fail fail1 => Sys2Proof.Machine.execSelftestEnd k fail fail1 s
  | .coreSpare c => Sys2Proof.Machine.execCoreSpare c s
  | .wayRetire t which way => Sys2Proof.Machine.execWayRetire t which way s
  | .sliceDisable t => Sys2Proof.Machine.execSliceDisable t s
  | .rowSpare ch value => Sys2Proof.Machine.execRowSpare ch value s
  | .regionConvert ch => Sys2Proof.Machine.execRegionConvert ch s
  | .routeAround r => Sys2Proof.Machine.execRouteAround r s
  | .laneDegrade p width => Sys2Proof.Machine.execLaneDegrade p width s
  | .mirrorFailover port k => Sys2Proof.Machine.execMirrorFailover port k s
  | .frameRetire p ff => Sys2Proof.Machine.execFrameRetire p ff s
  | .unitRetire d u => Sys2Proof.Machine.execUnitRetire d u s
  | .homeFence h => Sys2Proof.Machine.execHomeFence h s
  | .requestTimeout p => Sys2Proof.Machine.execRequestTimeout p s
  | .pwrGoodFall => Sys2Proof.Machine.execPwrGoodFall s
  | .railMonitorTrip => Sys2Proof.Machine.execRailMonitorTrip s
  | .linkRecovery p => Sys2Proof.Machine.execLinkRecovery p s
  | .twinFailure => Sys2Proof.Machine.execTwinFailure s
  | .uartBlock bytes => Sys2Proof.Machine.execUartBlock bytes s
  | .jtagInstruction ir => Sys2Proof.Machine.execJtagInstruction ir s
  | .lossOfPower => Sys2Proof.Machine.execLossOfPower s
  | .illegalInstr c word => Sys2Proof.Machine.execIllegalInstr c word s
  | .fetchFault c e => Sys2Proof.Machine.execFetchFault c e s

end Sys2Proof.Machine
end

