-- ==== Sys2Proof/Safety.lean ====
section
/-! DEFINITION. What the statements say of a run: the invariant of the state, when a core runs an instruction, and what
an instruction leaves unchanged beside its own effect. -/

namespace Sys2Proof.Machine
open Sys2Proof

/-- The invariant of every step: the memory list is in its canonical form. -/
def State.Inv (s : State) : Prop := Memory.wf s.mem = true

/-- Core c retires its next instruction: it is neither off, waiting, stopped nor held, it waits for no far atomic, and no trap is
due before the instruction (R211). -/
structure State.Runs (s : State) (c : Nat) : Prop where
  running : (s.core c).run = .running
  free : (s.core c).far = none
  noTrap : (s.dueTrap c).isNone = true

/-- The system registers that counting retired work may change: pending vectors, pmu_ctl, pmu_ovf, the counters and
samp_lost (R217, R374, R377). -/
def countSr (n : Nat) : Bool :=
  (decide (0x100 ≤ n) && decide (n ≤ 0x107)) || n == 0x301 || n == 0x302 ||
    (decide (0x308 ≤ n) && decide (n ≤ 0x30F)) || n == 0x334

/-- Core t is core k, but for what counting retired work may change (R372 to R378). -/
structure Core.Counted (k t : Core) : Prop where
  rest : { t with sr := k.sr, sampQ := k.sampQ, sampDrop := k.sampDrop } = k
  sr : ∀ n, countSr n = false → t.srv n = k.srv n

/-- The chip CSRs that counting retired work of core c may change: the lockstep status of its tile (R284), and the
pending bits of its guest slots, where an overflow posts a vector (R384). -/
def State.countCsr (s : State) (c a : Nat) : Prop :=
  a = s.tileOf c + 0x10080 ∨ ∃ sl w : Nat, sl < 16 ∧ w < 8 ∧ a = s.slotAddr c sl (8 * w)

/-- State t is state s, but for core c and for what counting its retired work may change; `free` counts the model's own
free values, `nru` the TLB entries recently used. -/
structure State.Counted (s t : State) (c : Nat) : Prop where
  rest : { t with cores := s.cores, csr := s.csr, free := s.free, nru := s.nru } = s
  others : ∀ c', c' ≠ c → t.core c' = s.core c'
  csr : ∀ a, ¬ s.countCsr c a → t.rdCsr a = s.rdCsr a

/-- The instruction i answers a next state in which core c is core k up to counting, and nothing else has changed. -/
def Completes (i : Instr) (s : State) (c : Nat) (k : Core) : Prop :=
  ∃ t, exec i s = .next t ∧ s.Counted t c ∧ k.Counted (t.core c)

/-- State t is state s, but for core c, for counting, and for a request that core c's L2 may have sent for a line: its
record of lines, its prefetchers, the packets in flight or held, the transaction and its tag (R119, R122, R144, R381). -/
structure State.Fetched (s t : State) (c : Nat) : Prop where
  rest : { t with cores := s.cores, csr := s.csr, free := s.free, l2 := s.l2, net := s.net, held := s.held,
                  outst := s.outst, reqs := s.reqs, reqAt := s.reqAt, tagLfsr := s.tagLfsr, tagT0 := s.tagT0, pfs := s.pfs, plru := s.plru, nru := s.nru,
                  txwait := s.txwait } = s
  others : ∀ c', c' ≠ c → t.core c' = s.core c'
  csr : ∀ a, ¬ s.countCsr c a → t.rdCsr a = s.rdCsr a

/-- As Completes, where the instruction may also send for lines. -/
def CompletesFetching (i : Instr) (s : State) (c : Nat) (k : Core) : Prop :=
  ∃ t, exec i s = .next t ∧ s.Fetched t c ∧ k.Counted (t.core c)

/-- As CompletesFetching, for a load: the lines that it uses may take the place of others in the L1 data cache, and the loss of the line
of a reservation clears it (R141). -/
def CompletesLoading (i : Instr) (s : State) (c : Nat) (k : Core) : Prop :=
  ∃ t r, exec i s = .next t ∧ s.Fetched t c ∧ (r = k.resv ∨ r = none) ∧ ({ k with resv := r } : Core).Counted (t.core c)

/-- What an instruction that only writes general register rd leaves of its core: rd holds v, the pc has advanced (R169). -/
def Core.put (k : Core) (rd : Nat) (v : Word) (plain : Bool := true) : Core := ((k.wr rd v).adv).holdStep plain

end Sys2Proof.Machine
end

