-- ==== Sys2Proof/Certificates/Slice0/Obligations.lean ====
section
/-! DEFINITION. What is stated of the model for the provers: one definition per statement, by family of commands. -/

open Sys2Proof Sys2Proof.Machine

/-! ## Integer instructions (06_panath_base_isa.md, R169 to R178) -/

/-- Rests on R169: g0 reads as 0 and a write to it is discarded; any other register reads as written, and every other
register, with the program counter, as before. R215: while status.SHB = 1, g24 to g31 are the shadow bank. -/
def Obligations.GeneralRegisters : Prop :=
  ∀ (k : Core) (r q : Reg) (v : Word),
    k.rd 0 = 0 ∧ k.wr 0 v = k ∧
    (r ≠ 0 → (k.wr r v).rd r = v) ∧
    (q ≠ r → (k.wr r v).rd q = k.rd q) ∧
    { k.wr r v with g := k.g, bank := k.bank } = k ∧
    (k.shb = true → 24 ≤ r.val → (k.wr r v).g = k.g) ∧
    (k.shb = false ∨ r.val < 24 → (k.wr r v).bank = k.bank)

/-- Rests on Table 6.4 and R177: each immediate instruction completes with the value of its row, and changes nothing
else. -/
def Obligations.ImmediateInstructions : Prop :=
  ∀ (s : State) (c : CoreId) (rd ra : Reg) (i : BitVec 17) (l : BitVec 22), s.Runs c →
    let k := s.core c
    let a := k.rd ra
    Completes (.addi c rd ra i) s c (k.put rd (BitVec.ofNat 64 (a.toNat + (i.signExtend 64).toNat))) ∧
    Completes (.andi c rd ra i) s c (k.put rd (a &&& i.signExtend 64)) ∧
    Completes (.ori c rd ra i) s c (k.put rd (a ||| BitVec.ofNat 64 i.toNat)) ∧
    Completes (.xori c rd ra i) s c (k.put rd (a ^^^ BitVec.ofNat 64 i.toNat)) ∧
    Completes (.slti c rd ra i) s c (k.put rd (if a.toInt < i.toInt then 1 else 0)) ∧
    Completes (.sltiu c rd ra i) s c (k.put rd (if a.toNat < (i.signExtend 64).toNat then 1 else 0)) ∧
    Completes (.li c rd l) s c (k.put rd (BitVec.ofInt 64 l.toInt)) ∧
    Completes (.lsi c rd l) s c (k.put rd (BitVec.ofNat 64 ((k.rd rd).toNat * 2 ^ 22 + l.toNat))) ∧
    Completes (.pcoff c rd l) s c (k.put rd (BitVec.ofInt 64 (k.pc.toNat + l.toInt * 2 ^ 10)))

/-- Rests on Tables 6.5 and 6.6, the shifts: by SHAMT, or by the low bits of rb; the W kinds on the low 32 bits, the
result sign-extended. -/
def Obligations.Shifts : Prop :=
  ∀ (s : State) (c : CoreId) (rd ra rb : Reg) (n : BitVec 6), s.Runs c →
    let k := s.core c
    let a := k.rd ra
    let w := a.setWidth 32
    let m := (k.rd rb).toNat % 64
    let m5 := (k.rd rb).toNat % 32
    Completes (.slli c rd ra n) s c (k.put rd (a <<< n.toNat)) ∧
    Completes (.srli c rd ra n) s c (k.put rd (a >>> n.toNat)) ∧
    Completes (.srai c rd ra n) s c (k.put rd (BitVec.ofInt 64 (a.toInt / 2 ^ n.toNat))) ∧
    Completes (.rori c rd ra n) s c (k.put rd (a.rotateRight n.toNat)) ∧
    (n.toNat < 32 → Completes (.slliw c rd ra n) s c (k.put rd ((w <<< n.toNat).signExtend 64))) ∧
    (n.toNat < 32 → Completes (.srliw c rd ra n) s c (k.put rd ((w >>> n.toNat).signExtend 64))) ∧
    (n.toNat < 32 → Completes (.sraiw c rd ra n) s c (k.put rd (BitVec.ofInt 64 (w.toInt / 2 ^ n.toNat)))) ∧
    Completes (.sll c rd ra rb) s c (k.put rd (a <<< m)) ∧
    Completes (.srl c rd ra rb) s c (k.put rd (a >>> m)) ∧
    Completes (.sra c rd ra rb) s c (k.put rd (BitVec.ofInt 64 (a.toInt / 2 ^ m))) ∧
    Completes (.ror c rd ra rb) s c (k.put rd (a.rotateRight m)) ∧
    Completes (.sllw c rd ra rb) s c (k.put rd ((w <<< m5).signExtend 64)) ∧
    Completes (.srlw c rd ra rb) s c (k.put rd ((w >>> m5).signExtend 64)) ∧
    Completes (.sraw c rd ra rb) s c (k.put rd (BitVec.ofInt 64 (w.toInt / 2 ^ m5)))

/-- Rests on Table 6.6: addition, logic, comparison, minimum and maximum, and the selects that read rd as a third
source. -/
def Obligations.RegisterInstructions : Prop :=
  ∀ (s : State) (c : CoreId) (rd ra rb : Reg), s.Runs c →
    let k := s.core c
    let a := k.rd ra
    let b := k.rd rb
    Completes (.add c rd ra rb) s c (k.put rd (BitVec.ofNat 64 (a.toNat + b.toNat))) ∧
    Completes (.sub c rd ra rb) s c (k.put rd (BitVec.ofInt 64 (a.toInt - b.toInt))) ∧
    Completes (.addw c rd ra rb) s c (k.put rd ((BitVec.ofNat 32 (a.toNat + b.toNat)).signExtend 64)) ∧
    Completes (.subw c rd ra rb) s c (k.put rd ((BitVec.ofInt 32 (a.toInt - b.toInt)).signExtend 64)) ∧
    Completes (.and c rd ra rb) s c (k.put rd (a &&& b)) ∧
    Completes (.or c rd ra rb) s c (k.put rd (a ||| b)) ∧
    Completes (.xor c rd ra rb) s c (k.put rd (a ^^^ b)) ∧
    Completes (.andn c rd ra rb) s c (k.put rd (a &&& ~~~ b)) ∧
    Completes (.orn c rd ra rb) s c (k.put rd (a ||| ~~~ b)) ∧
    Completes (.xnor c rd ra rb) s c (k.put rd (~~~ (a ^^^ b))) ∧
    Completes (.slt c rd ra rb) s c (k.put rd (if a.toInt < b.toInt then 1 else 0)) ∧
    Completes (.sltu c rd ra rb) s c (k.put rd (if a.toNat < b.toNat then 1 else 0)) ∧
    Completes (.min c rd ra rb) s c (k.put rd (BitVec.ofInt 64 (min a.toInt b.toInt))) ∧
    Completes (.max c rd ra rb) s c (k.put rd (BitVec.ofInt 64 (max a.toInt b.toInt))) ∧
    Completes (.minu c rd ra rb) s c (k.put rd (BitVec.ofNat 64 (min a.toNat b.toNat))) ∧
    Completes (.maxu c rd ra rb) s c (k.put rd (BitVec.ofNat 64 (max a.toNat b.toNat))) ∧
    Completes (.selz c rd ra rb) s c (k.put rd (if b = 0 then a else k.rd rd)) ∧
    Completes (.selnz c rd ra rb) s c (k.put rd (if b = 0 then k.rd rd else a))

/-- Rests on Table 6.6, unary rows and multiplication: the counts and the byte reversal by their defining property. -/
def Obligations.UnaryAndMultiply : Prop :=
  ∀ (s : State) (c : CoreId) (rd ra rb : Reg), s.Runs c →
    let k := s.core c
    let a := k.rd ra
    let b := k.rd rb
    (∃ n : Nat, n ≤ 64 ∧ a.toNat < 2 ^ (64 - n) ∧ (n < 64 → 2 ^ (63 - n) ≤ a.toNat) ∧
      Completes (.clz c rd ra) s c (k.put rd (BitVec.ofNat 64 n))) ∧
    (∃ n : Nat, n ≤ 64 ∧ a.toNat % 2 ^ n = 0 ∧ (n < 64 → a.getLsbD n = true) ∧
      Completes (.ctz c rd ra) s c (k.put rd (BitVec.ofNat 64 n))) ∧
    Completes (.popc c rd ra) s c (k.put rd (BitVec.ofNat 64 ((List.range 64).countP a.getLsbD))) ∧
    (∃ v : Word, (∀ j, j < 64 → v.getLsbD j = a.getLsbD (8 * (7 - j / 8) + j % 8)) ∧
      Completes (.bswap c rd ra) s c (k.put rd v)) ∧
    Completes (.sextb c rd ra) s c (k.put rd (BitVec.ofInt 64 (a.setWidth 8).toInt)) ∧
    Completes (.sexth c rd ra) s c (k.put rd (BitVec.ofInt 64 (a.setWidth 16).toInt)) ∧
    Completes (.sextw c rd ra) s c (k.put rd (BitVec.ofInt 64 (a.setWidth 32).toInt)) ∧
    Completes (.zextw c rd ra) s c (k.put rd (BitVec.ofNat 64 (a.toNat % 2 ^ 32))) ∧
    Completes (.mul c rd ra rb) s c (k.put rd (BitVec.ofNat 64 (a.toNat * b.toNat))) ∧
    Completes (.mulh c rd ra rb) s c (k.put rd (BitVec.ofInt 64 (a.toInt * b.toInt / 2 ^ 64))) ∧
    Completes (.mulhu c rd ra rb) s c (k.put rd (BitVec.ofNat 64 (a.toNat * b.toNat / 2 ^ 64))) ∧
    Completes (.mulhsu c rd ra rb) s c (k.put rd (BitVec.ofInt 64 (a.toInt * b.toNat / 2 ^ 64))) ∧
    Completes (.mulw c rd ra rb) s c (k.put rd ((BitVec.ofNat 32 (a.toNat * b.toNat)).signExtend 64))

/-- A quotient and remainder as R178 gives them for signed n-bit operands: -1 and the dividend for a zero divisor; else,
up to 2^n, the truncated quotient, whose remainder has the sign of the dividend; the overflow gives -2^(n-1) and 0. -/
def Sys2Proof.Machine.signedDivision (n : Nat) (a b q r : Int) : Prop :=
  (b = 0 → q = -1 ∧ r = a) ∧
  (b ≠ 0 → r = a - a.tdiv b * b ∧ (a.tdiv b < 2 ^ (n - 1) → q = a.tdiv b) ∧ (a.tdiv b = 2 ^ (n - 1) → q = -(2 ^ (n - 1))))

/-- The unsigned forms: all ones and the dividend for a zero divisor. -/
def Sys2Proof.Machine.unsignedDivision (n a b q r : Nat) : Prop :=
  (b = 0 → q = 2 ^ n - 1 ∧ r = a) ∧ (b ≠ 0 → q = a / b ∧ r = a - a / b * b)

/-- R178: division never traps; quotients round toward zero, and a remainder takes the sign of the dividend. -/
def Obligations.Division : Prop :=
  ∀ (s : State) (c : CoreId) (rd ra rb : Reg), s.Runs c →
    let k := s.core c
    let a := k.rd ra
    let b := k.rd rb
    (∃ q r : Int, signedDivision 64 a.toInt b.toInt q r ∧
      Completes (.div c rd ra rb) s c (k.put rd (BitVec.ofInt 64 q)) ∧
      Completes (.rem c rd ra rb) s c (k.put rd (BitVec.ofInt 64 r))) ∧
    (∃ q r : Nat, unsignedDivision 64 a.toNat b.toNat q r ∧
      Completes (.divu c rd ra rb) s c (k.put rd (BitVec.ofNat 64 q)) ∧
      Completes (.remu c rd ra rb) s c (k.put rd (BitVec.ofNat 64 r))) ∧
    (∃ q r : Int, signedDivision 32 (a.setWidth 32).toInt (b.setWidth 32).toInt q r ∧
      Completes (.divw c rd ra rb) s c (k.put rd (BitVec.ofInt 64 q)) ∧
      Completes (.remw c rd ra rb) s c (k.put rd (BitVec.ofInt 64 r))) ∧
    (∃ q r : Nat, unsignedDivision 32 (a.toNat % 2 ^ 32) (b.toNat % 2 ^ 32) q r ∧
      Completes (.divuw c rd ra rb) s c (k.put rd ((BitVec.ofNat 32 q).signExtend 64)) ∧
      Completes (.remuw c rd ra rb) s c (k.put rd ((BitVec.ofNat 32 r).signExtend 64)))
/-! ## Control transfer, loads and stores, atomics (06_panath_base_isa.md, R179 to R190) -/

/-- Core t is core k, but for counting and for the predictors, which affect timing only (R263 to R267). -/
def Sys2Proof.Machine.Core.Predicted (k t : Core) : Prop :=
  ({ k with ctr := t.ctr, hist := t.hist, rstack := t.rstack, btb := t.btb, zb := t.zb } : Core).Counted t

/-- Instruction i completes with core c as k, up to counting and prediction, and changes nothing else. -/
def Sys2Proof.Machine.Transfers (i : Instr) (s : State) (c : Nat) (k : Core) : Prop :=
  ∃ t, exec i s = .next t ∧ s.Counted t c ∧ k.Predicted (t.core c)

/-- Rests on Table 6.7 and R173: a branch goes to pc + sext(off) x 4 when its condition holds and to pc + 4
otherwise. -/
def Obligations.Branches : Prop :=
  ∀ (s : State) (c : CoreId) (ra rb : Reg) (off : BitVec 12), s.Runs c →
    let k := s.core c
    let a := k.rd ra
    let b := k.rd rb
    let goes (taken : Prop) (k' : Core) : Prop :=
      (taken → k'.pc = BitVec.ofInt 64 (k.pc.toNat + off.toInt * 4)) ∧ (¬ taken → k'.pc = k.pc + 4) ∧
        { k' with pc := k.pc } = k.holdStep true
    (∃ k', goes (a = b) k' ∧ Transfers (.beq c ra rb off) s c k') ∧
    (∃ k', goes (a ≠ b) k' ∧ Transfers (.bne c ra rb off) s c k') ∧
    (∃ k', goes (a.toInt < b.toInt) k' ∧ Transfers (.blt c ra rb off) s c k') ∧
    (∃ k', goes (b.toInt ≤ a.toInt) k' ∧ Transfers (.bge c ra rb off) s c k') ∧
    (∃ k', goes (a.toNat < b.toNat) k' ∧ Transfers (.bltu c ra rb off) s c k') ∧
    (∃ k', goes (b.toNat ≤ a.toNat) k' ∧ Transfers (.bgeu c ra rb off) s c k')

/-- Rests on R179: J, JAL and JALR. JALR computes its target from the old ra, and raises ALIGN_FAULT, with the target
as trap address, when the target is not a multiple of 4. -/
def Obligations.Jumps : Prop :=
  ∀ (s : State) (c : CoreId) (rd ra : Reg) (i : BitVec 17) (off : BitVec 27), s.Runs c →
    let k := s.core c
    let t := BitVec.ofNat 64 ((k.rd ra).toNat + (i.signExtend 64).toNat)
    let dest := BitVec.ofInt 64 (k.pc.toNat + off.toInt * 4)
    Transfers (.j c off) s c ({ k with pc := dest }.holdStep true) ∧
    Transfers (.jal c off) s c ({ k.wr 30 (k.pc + 4) with pc := dest }.holdStep true) ∧
    (t.toNat % 4 = 0 → Transfers (.jalr c rd ra i) s c ({ k.wr rd (k.pc + 4) with pc := t }.holdStep true)) ∧
    (t.toNat % 4 ≠ 0 → exec (.jalr c rd ra i) s = .next (s.trap c { code := 0x06, addr := t }))

/-- What a load of n bytes at va binds: its translation x touches no side-effect page or region, no older store in the
store buffer overlaps it, and every line it touches is backed and not poisoned (R183, Table 9.5). -/
structure Sys2Proof.Machine.State.Reads (s : State) (c : Nat) (a : Acc) (va : Word) (n : Nat) (x : Xl) : Prop where
  xlate : (s.core c).xlate a va n = .ok x
  plain : x.se = false
  older : forward (s.core c).sbuf x.pas = .none
  ok : s.firstBad (s.phys c) x.lines = 0
  clean : x.lines.any s.poisoned = false

/-- Rests on Table 6.8: a load completes with the bytes of memory, sign- or zero-extended, and changes no byte of
memory. -/
def Obligations.Loads : Prop :=
  ∀ (s : State) (c : CoreId) (rd ra : Reg) (i : BitVec 17) (x : Xl), s.Runs c →
    let k := s.core c
    let va := k.rd ra + i.signExtend 64
    let res (v : Word) := k.put rd v false
    let v := s.rdPas x.pas
    (s.Reads c accLoad va 1 x → CompletesLoading (.lb c rd ra i) s c (res ((BitVec.ofNat 8 v).signExtend 64))) ∧
    (s.Reads c accLoad va 1 x → CompletesLoading (.lbu c rd ra i) s c (res (BitVec.ofNat 64 v))) ∧
    (s.Reads c accLoad va 2 x → CompletesLoading (.lh c rd ra i) s c (res ((BitVec.ofNat 16 v).signExtend 64))) ∧
    (s.Reads c accLoad va 2 x → CompletesLoading (.lhu c rd ra i) s c (res (BitVec.ofNat 64 v))) ∧
    (s.Reads c accLoad va 4 x → CompletesLoading (.lw c rd ra i) s c (res ((BitVec.ofNat 32 v).signExtend 64))) ∧
    (s.Reads c accLoad va 4 x → CompletesLoading (.lwu c rd ra i) s c (res (BitVec.ofNat 64 v))) ∧
    (s.Reads c accLoad va 8 x → CompletesLoading (.ld c rd ra i) s c (res (BitVec.ofNat 64 v)))

/-- Rests on Tables 6.11 and 6.12: LDAQ zero-extends; LL obtains its line in M, sign-extends and sets the reservation
on the line of its address (R140, R190). -/
def Obligations.AcquireAndLinkedLoads : Prop :=
  ∀ (s : State) (c : CoreId) (rd ra : Reg) (sz : BitVec 2) (aq : Bool) (x : Xl), s.Runs c →
    let k := s.core c
    let n := 2 ^ sz.toNat
    (s.Reads c accLdaq (k.rd ra) n x → k.sbuf.any (fun e => decide (e.kind = .rel)) = false →
      CompletesLoading (.ldaq c rd ra sz) s c (k.put rd (BitVec.ofNat 64 (s.rdPas x.pas)) false)) ∧
    (2 ≤ sz.toNat → s.Reads c accLL (k.rd ra) n x →
      ∀ s1, s.takeM (s.phys c) (x.pas.headD 0 / 64) = .ok s1 →
        ∃ t, exec (.ll c rd ra sz aq) s = .next t ∧ s1.Fetched t c ∧
          ({ (s1.core c).put rd (sxN n (s.rdPas x.pas)) false with resv := some (x.pas.headD 0 / 64), hold := some 1 } : Core).Counted
            (t.core c))

/-- Rests on R274: a store retires into the store buffer with the low bytes of its source at its translated addresses;
memory itself is unchanged until the store is performed. The buffer holds 96 entries. -/
def Obligations.Stores : Prop :=
  ∀ (s : State) (c : CoreId) (rs ra : Reg) (i : BitVec 17) (sz : BitVec 2) (x : Xl), s.Runs c →
    let k := s.core c
    let va := k.rd ra + i.signExtend 64
    let holds (n : Nat) (kind : StKind) (a : Word) (v : Word) (k' : Core) : Prop :=
      ∃ e : StEntry, e.kind = (if x.se then .sideEffect else kind) ∧ e.size = n ∧ e.pa = x.pas.headD 0 ∧
        e.cells = cellsAt x.pas (v.toNat % 2 ^ (8 * n)) ∧ e.pl = k.pl ∧ e.v = k.vf ∧ e.marks = [] ∧ e.tr = k.trOf x a ∧
        k' = { k with sbuf := k.sbuf ++ [e], pc := k.pc + 4, hold := none }
    let puts (i : Instr) (n : Nat) (acc : Acc) (kind : StKind) (a v : Word) : Prop :=
      k.xlate acc a n = .ok x → k.sbuf.length < 96 → ∃ k', holds n kind a v k' ∧ CompletesFetching i s c k'
    puts (.sb c rs ra i) 1 accStore .plain va (k.rd rs) ∧
    puts (.sh c rs ra i) 2 accStore .plain va (k.rd rs) ∧
    puts (.sw c rs ra i) 4 accStore .plain va (k.rd rs) ∧
    puts (.sd c rs ra i) 8 accStore .plain va (k.rd rs) ∧
    puts (.strl c ra rs sz) (2 ^ sz.toNat) accStrl .rel (k.rd ra) (k.rd rs)

/-- Rests on R190: a store-conditional with a valid reservation of its line stores and writes 0; any other writes 1,
stores nothing and changes nothing but its register and counting. Either clears the reservation. -/
def Obligations.StoreConditional : Prop :=
  ∀ (s : State) (c : CoreId) (rd ra rb : Reg) (sz : BitVec 2) (rl : Bool) (x : Xl), s.Runs c → 2 ≤ sz.toNat →
    let k := s.core c
    let n := 2 ^ sz.toNat
    let pa := x.pas.headD 0
    k.xlate accAtom (k.rd ra) n false = .ok x →
    (k.resv ≠ some (pa / 64) →
      Completes (.sc c rd ra rb sz rl) s c { k.put rd 1 with resv := none, hold := none }) ∧
    (k.resv = some (pa / 64) → k.xlate accAtom (k.rd ra) n = .ok x → k.sbufClear (pa / 64) rl = true →
      ∀ s1, s.takeM (s.phys c) (pa / 64) = .ok s1 →
        ∃ t, exec (.sc c rd ra rb sz rl) s = .next t ∧ (s1.wrN pa ((k.rd rb).toNat % 2 ^ (8 * n)) n).Fetched t c ∧
          ({ (s1.core c).put rd 0 with resv := none, hold := none } : Core).Counted (t.core c))

/-- The value that a far atomic stores (Table 6.12), for n-byte operands as numbers below 2^w. -/
def Sys2Proof.Machine.atomResult (op w old rb cmp : Nat) : Nat :=
  let sg (y : Nat) : Int := if y < 2 ^ (w - 1) then (y : Int) else (y : Int) - 2 ^ w
  match op with
  | 0 => (old + rb) % 2 ^ w
  | 1 => rb
  | 2 => if old = cmp then rb else old
  | 3 => if sg rb < sg old then rb else old
  | 4 => if sg old < sg rb then rb else old
  | 5 => Min.min old rb
  | _ => Max.max old rb

/-- Rests on R126 and R189: a far atomic that its slice performs by itself reads the old value, stores the result of
its operation in its place and nowhere else, and writes the old value, sign-extended, to rd; any other is sent to the
slice, and the instruction completes with the old value that the answer brings, or takes the exception of the answer's
status. -/
def Obligations.FarAtomics : Prop :=
  ∀ (s : State) (c : CoreId) (rd ra rb : Reg) (sz : BitVec 2) (aq rl : Bool) (op : Fin 7), 2 ≤ sz.toNat →
    let k := s.core c
    let n := 2 ^ sz.toNat
    let va := k.rd ra
    let m (r : Reg) := (k.rd r).toNat % 2 ^ (8 * n)
    let i : Instr := match op with
      | 0 => .aadd c rd ra rb sz aq rl | 1 => .aswap c rd ra rb sz aq rl | 2 => .acas c rd ra rb sz aq rl
      | 3 => .amin c rd ra rb sz aq rl | 4 => .amax c rd ra rb sz aq rl | 5 => .aminu c rd ra rb sz aq rl
      | 6 => .amaxu c rd ra rb sz aq rl
    (∀ x : Xl, s.Runs c → k.xlate accAtom va n = .ok x → k.sbufClear (x.pas.headD 0 / 64) rl = true →
      let pa := x.pas.headD 0
      (s.atomHere (pa / 64) = true → s.poisoned (pa / 64) = false →
        ∀ s1 o, s.farAtomic (s.phys c) pa op n (k.rd rb).toNat (k.rd rd).toNat = (.ok s1, o) →
          o = s.rdN pa n ∧
          (∀ b, s1.rdByte b = (s.wrN pa (atomResult op (8 * n) o (m rb) (m rd)) n).rdByte b) ∧
          ∃ t, exec i s = .next t ∧ s1.Counted t c ∧ ((s1.core c).put rd (sxN n o) false).Counted (t.core c)) ∧
      (s.atomHere (pa / 64) = false →
        exec i s = .next (s.sendAtomic c pa op n (k.rd rb).toNat (k.rd rd).toNat (k.trOf x va)))) ∧
    (∀ (f : FarOp) (st old : Nat) (bad : Bool), k.run = .running → k.far = some { f with size := n, ans := some (st, bad, old) } →
      let s1 := s.modCore c (fun k => { k with far := none })
      (st = 0 → bad = false → ∃ t, exec i s = .next t ∧ s.Counted t c ∧
        (({ k with far := none } : Core).put rd (sxN n old) false).Counted (t.core c)) ∧
      (st ≠ 0 → exec i s = .next (s1.trap c (busError va st 3))) ∧
      (st = 0 → bad = true → exec i s = .next (s1.trap c { code := 0x18, addr := va, info := 3 * 2 ^ 8 })))

/-- Rests on R186, R190 and Table 6.9: where the checks of an access raise an exception, the instruction takes it, and
has no other effect. -/
def Obligations.MemoryExceptions : Prop :=
  ∀ (s : State) (c : CoreId) (r ra rb : Reg) (i : BitVec 17) (sz : BitVec 2) (q l : Bool) (e : Exc), s.Runs c →
    let k := s.core c
    let va := k.rd ra + i.signExtend 64
    let n := 2 ^ sz.toNat
    let traps (x : Instr) : Prop := exec x s = .next (s.trap c e)
    (k.xlate accLoad va 1 = .error e → traps (.lb c r ra i) ∧ traps (.lbu c r ra i)) ∧
    (k.xlate accLoad va 2 = .error e → traps (.lh c r ra i) ∧ traps (.lhu c r ra i)) ∧
    (k.xlate accLoad va 4 = .error e → traps (.lw c r ra i) ∧ traps (.lwu c r ra i)) ∧
    (k.xlate accLoad va 8 = .error e → traps (.ld c r ra i)) ∧
    (k.xlate accStore va 1 = .error e → traps (.sb c r ra i)) ∧
    (k.xlate accStore va 2 = .error e → traps (.sh c r ra i)) ∧
    (k.xlate accStore va 4 = .error e → traps (.sw c r ra i)) ∧
    (k.xlate accStore va 8 = .error e → traps (.sd c r ra i)) ∧
    (k.xlate accLdaq (k.rd ra) n = .error e → traps (.ldaq c r ra sz)) ∧
    (k.xlate accStrl (k.rd ra) n = .error e → traps (.strl c ra rb sz)) ∧
    (2 ≤ sz.toNat → k.xlate accLL (k.rd ra) n = .error e → traps (.ll c r ra sz q)) ∧
    (2 ≤ sz.toNat → k.xlate accAtom (k.rd ra) n false = .error e → traps (.sc c r ra rb sz l)) ∧
    (2 ≤ sz.toNat → k.xlate accAtom (k.rd ra) n = .error e →
      traps (.aadd c r ra rb sz q l) ∧ traps (.aswap c r ra rb sz q l) ∧ traps (.acas c r ra rb sz q l) ∧
      traps (.amin c r ra rb sz q l) ∧ traps (.amax c r ra rb sz q l) ∧ traps (.aminu c r ra rb sz q l) ∧
      traps (.amaxu c r ra rb sz q l))

/-! ## Scalar floating point (06_panath_base_isa.md, R193 to R195) -/

/-- A core after a floating-point instruction with a result and the flags that it raises: the flags are sticky. -/
def Sys2Proof.Machine.Core.putF (k : Core) (rd : Nat) (r : Word × Nat) : Core :=
  { k.put rd r.1 with fpcsr := k.fpcsr ||| BitVec.ofNat 64 (r.2 % 32) }

/-- Rests on Table 6.15, the instructions that round: with a valid rounding mode m (R194: the RM field, or fpcsr.RM
when it is 0) each completes with its operation's result rounded by m, and raises its flags; with none it raises
ILLEGAL_INSTR. -/
def Obligations.RoundingInstructions : Prop :=
  ∀ (s : State) (c : CoreId) (rd ra rb : Reg) (p : Bool) (rm : BitVec 3), s.Runs c →
    let k := s.core c
    let a := fDec p (k.rd ra)
    let b := fDec p (k.rd rb)
    let d := fDec p (k.rd rd)
    let dyn := bitsN k.fpcsr 7 5
    let mode (m : Nat) : Prop := (rm = 0 ∧ dyn < 5 ∧ m = dyn) ∨ (1 ≤ rm.toNat ∧ rm.toNat ≤ 5 ∧ m = rm.toNat - 1)
    let gives (i : Instr) (f : Nat → Word × Nat) : Prop :=
      (∀ m, mode m → Completes i s c (k.putF rd (f m))) ∧
      ((∀ m, ¬ mode m) → exec i s = .next (s.trap c { code := 0x01 }))
    gives (.fadd c rd ra rb p rm) (fun m => fAdd p m a b) ∧
    gives (.fsub c rd ra rb p rm) (fun m => fAdd p m a b.negate) ∧
    gives (.fmul c rd ra rb p rm) (fun m => fMul p m a b) ∧
    gives (.fdiv c rd ra rb p rm) (fun m => fDiv p m a b) ∧
    gives (.fsqrt c rd ra p rm) (fun m => fSqrt p m a) ∧
    gives (.ftoi c rd ra p rm) (fun m =>
      let r := fToInt m a (-(2 ^ 63)) (2 ^ 63 - 1) (-(2 ^ 63)); (BitVec.ofInt 64 r.1, r.2)) ∧
    gives (.ftou c rd ra p rm) (fun m => let r := fToInt m a 0 (2 ^ 64 - 1) 0; (BitVec.ofInt 64 r.1, r.2)) ∧
    gives (.itof c rd ra p rm) (fun m => fOfInt p m (k.rd ra).toInt) ∧
    gives (.utof c rd ra p rm) (fun m => fOfInt p m (k.rd ra).toNat) ∧
    gives (.fnarrow c rd ra rm) (fun m => fConv true m (fDec false (k.rd ra))) ∧
    (∀ m, mode m → ∃ q : Bool,
      Completes (.fmadd c rd ra rb p rm) s c (k.putF rd (fFma p m a b d q)) ∧
      Completes (.fmsub c rd ra rb p rm) s c (k.putF rd (fFma p m a b d.negate q)) ∧
      Completes (.fnmadd c rd ra rb p rm) s c (k.putF rd (fFma p m a.negate b d q))) ∧
    ((∀ m, ¬ mode m) → ∃ n : Nat,
      let t := ({ s with free := n } : State).trap c { code := 0x01 }
      exec (.fmadd c rd ra rb p rm) s = .next t ∧ exec (.fmsub c rd ra rb p rm) s = .next t ∧
        exec (.fnmadd c rd ra rb p rm) s = .next t)

/-- Rests on Table 6.15 and R195: the floating-point instructions that do not round; the sign copies, FRCSR and FWCSR
set no flag. -/
def Obligations.ExactFloatInstructions : Prop :=
  ∀ (s : State) (c : CoreId) (rd ra rb : Reg) (p : Bool), s.Runs c →
    let k := s.core c
    let x := k.rd ra
    let y := k.rd rb
    let a := fDec p x
    let b := fDec p y
    let n := if p then 31 else 63
    let isNaN (v : FVal) : Prop := v = .nan true ∨ v = .nan false
    let io (on : Prop) (f : Nat) : Prop := (on → f = 1) ∧ (¬ on → f = 0)
    let low (v : Word) : Word := if p then v &&& 0xFFFFFFFF else v
    let signed (v : Word) (sg : Bool) : Prop := v.getLsbD n = sg ∧ (∀ j, j < n → v.getLsbD j = x.getLsbD j) ∧
      (p = true → v.toNat < 2 ^ 32)
    (∃ r : Word × Nat, io (a = .nan true ∨ b = .nan true) r.2 ∧ (isNaN a → isNaN b → r.1 = fNaN p) ∧
      (¬ isNaN a → isNaN b → r.1 = low x) ∧ (isNaN a → ¬ isNaN b → r.1 = low y) ∧
      (¬ isNaN a → ¬ isNaN b → (fLess a b = true → r.1 = low x) ∧ (fLess b a = true → r.1 = low y)) ∧
      Completes (.fmin c rd ra rb p) s c (k.putF rd r)) ∧
    (∃ r : Word × Nat, io (a = .nan true ∨ b = .nan true) r.2 ∧ (isNaN a → isNaN b → r.1 = fNaN p) ∧
      (¬ isNaN a → isNaN b → r.1 = low x) ∧ (isNaN a → ¬ isNaN b → r.1 = low y) ∧
      (¬ isNaN a → ¬ isNaN b → (fLess a b = true → r.1 = low y) ∧ (fLess b a = true → r.1 = low x)) ∧
      Completes (.fmax c rd ra rb p) s c (k.putF rd r)) ∧
    (∃ r : Word × Nat, io (a = .nan true ∨ b = .nan true) r.2 ∧ (isNaN a ∨ isNaN b → r.1 = 0) ∧
      (¬ isNaN a → ¬ isNaN b → r.1 = if fLess a b = false ∧ fLess b a = false then 1 else 0) ∧
      Completes (.feq c rd ra rb p) s c (k.putF rd r)) ∧
    (∃ r : Word × Nat, io (isNaN a ∨ isNaN b) r.2 ∧ (isNaN a ∨ isNaN b → r.1 = 0) ∧
      (¬ isNaN a → ¬ isNaN b → r.1 = if fLess a b = true then 1 else 0) ∧
      Completes (.flt c rd ra rb p) s c (k.putF rd r)) ∧
    (∃ r : Word × Nat, io (isNaN a ∨ isNaN b) r.2 ∧ (isNaN a ∨ isNaN b → r.1 = 0) ∧
      (¬ isNaN a → ¬ isNaN b → r.1 = if fLess b a = true then 0 else 1) ∧
      Completes (.fle c rd ra rb p) s c (k.putF rd r)) ∧
    (∃ q : Nat, (a = .nan true → q = 5) ∧ (a = .nan false → q = 4) ∧ (∀ g, a = .inf g → q = 3) ∧
      (∀ g e, a = .fin g 0 e → q = 0) ∧
      (∀ g m e, a = .fin g m e → m ≠ 0 → q = if m < 2 ^ (if p then 23 else 52) then 1 else 2) ∧
      Completes (.fkind c rd ra p) s c (k.put rd (BitVec.ofNat 64 (q + if x.getLsbD n then 8 else 0)))) ∧
    Completes (.fwiden c rd ra) s c (k.putF rd (fConv false 0 (fDec true x))) ∧
    (∃ v, signed v (y.getLsbD n) ∧ Completes (.fcpys c rd ra rb p) s c (k.put rd v)) ∧
    (∃ v, signed v (!y.getLsbD n) ∧ Completes (.fcpysn c rd ra rb p) s c (k.put rd v)) ∧
    (∃ v, signed v (x.getLsbD n != y.getLsbD n) ∧ Completes (.fcpysx c rd ra rb p) s c (k.put rd v)) ∧
    Completes (.frcsr c rd) s c (k.put rd k.fpcsr) ∧
    Completes (.fwcsr c rd ra) s c { k.put rd k.fpcsr with fpcsr := x &&& 0xFF }

/-- Rests on R195: every NaN result of an arithmetic operation is the canonical quiet NaN; a conversion of a NaN gives
-2^63 (FTOI) or 0 (FTOU) and raises IO alone; one out of range saturates and raises IO alone. -/
def Obligations.NaNsAndConversions : Prop :=
  ∀ (p : Bool) (m : Nat) (a b d : FVal) (q : Bool),
    let nan (v : FVal) : Prop := v = .nan true ∨ v = .nan false
    (nan a ∨ nan b → (fAdd p m a b).1 = fNaN p ∧ (fMul p m a b).1 = fNaN p ∧ (fDiv p m a b).1 = fNaN p) ∧
    (nan a ∨ nan b ∨ nan d → (fFma p m a b d q).1 = fNaN p) ∧
    (nan a → (fSqrt p m a).1 = fNaN p ∧ fToInt m a (-(2 ^ 63)) (2 ^ 63 - 1) (-(2 ^ 63)) = (-(2 ^ 63), 1) ∧
      fToInt m a 0 (2 ^ 64 - 1) 0 = (0, 1)) ∧
    (∀ g, a = .inf g → fToInt m a (-(2 ^ 63)) (2 ^ 63 - 1) (-(2 ^ 63)) = (if g then -(2 ^ 63) else 2 ^ 63 - 1, 1) ∧
      fToInt m a 0 (2 ^ 64 - 1) 0 = (if g then 0 else 2 ^ 64 - 1, 1)) ∧
    (∀ g, b = .inf (!g) → a = .inf g → fAdd p m a b = (fNaN p, 1)) ∧
    (∀ g n e, a = .inf g → b = .fin n 0 e → fMul p m a b = (fNaN p, 1)) ∧
    (∀ g h e f, a = .fin g 0 e → b = .fin h 0 f → fDiv p m a b = (fNaN p, 1)) ∧
    (∀ g h n e f, a = .fin g n e → n ≠ 0 → b = .fin h 0 f → fDiv p m a b = (fInf p (g != h), 2)) ∧
    (∀ n e, a = .fin true n e → n ≠ 0 → fSqrt p m a = (fNaN p, 1))

/-! ## Fences, hints, system instructions and translation (06_panath_base_isa.md, R191, R196; 07, 08) -/

/-- Rests on R191, Tables 6.13 and 9.7: FENCE retires once no store waits; FENCE.R, SBAR and PAUSE change nothing;
FENCE.W puts a barrier into the store buffer; PFLUSH returns the predictors and the store-wait table to their reset
state; RDCTIME reads ctime. CFLUSH, CCLEAN and CZERO ignore ra[5:0] and enter the store buffer at retirement
(R192). -/
def Obligations.FencesAndMaintenance : Prop :=
  ∀ (s : State) (c : CoreId) (rd ra : Reg) (x : Xl), s.Runs c →
    let k := s.core c
    let va := BitVec.ofNat 64 ((k.rd ra).toNat / 64 * 64)
    let next (k' : Core) : Core := { k' with pc := k.pc + 4, hold := none }
    let enters (kind : StKind) (cells : List (Nat × Byte)) (k' : Core) : Prop :=
      ∃ e : StEntry, e.kind = kind ∧ e.pa = x.pas.headD 0 ∧ e.size = 64 ∧ e.cells = cells ∧ e.pl = k.pl ∧ e.v = k.vf ∧
        e.marks = [] ∧ k' = next { k with sbuf := k.sbuf ++ [e] }
    (k.sbuf = [] → Completes (.fence c) s c (next k)) ∧
    (k.sbuf ≠ [] → exec (.fence c) s = .next s) ∧
    Completes (.fenceR c) s c (next k) ∧
    (k.sbuf.length < 96 → ∃ e : StEntry, e.kind = .fence ∧ e.cells = [] ∧
      Completes (.fenceW c) s c (next { k with sbuf := k.sbuf ++ [e] })) ∧
    Completes (.sbar c) s c ({ k with pc := k.pc + 4 }.holdStep true) ∧
    Completes (.pause c) s c ({ k with pc := k.pc + 4 }.holdStep true) ∧
    Completes (.rdctime c rd) s c (k.put rd s.ctime) ∧
    Completes (.pflush c) s c
      ({ k with ctr := [], hist := 0, rstack := [], btb := [], zb := [], swait := [], pc := k.pc + 4 }.holdStep true) ∧
    (k.xlate accFlush va 64 = .ok x → k.sbuf.length < 96 →
      (∃ k', enters .flush [] k' ∧ CompletesFetching (.cflush c ra) s c k') ∧
      (∃ k', enters .clean [] k' ∧ CompletesFetching (.cclean c ra) s c k')) ∧
    (k.xlate accZero va 64 = .ok x → k.sbuf.length < 96 →
      ∃ k', enters .zero (x.pas.map (fun a => (a, 0))) k' ∧ CompletesFetching (.czero c ra) s c k')

/-- Rests on R207: what trap entry saves and where it goes, for a trap taken at level t with guest flag g by the
general entry. -/
def Obligations.TrapEntry : Prop :=
  ∀ (k : Core) (t : Fin 4) (g : Bool) (e : Exc), 1 ≤ t.val → (g = true → t.val = 1) →
    let b := 16 * t.val
    let k' := k.trapAt t g e
    let off : Nat := if e.code = 0x20 then 0x200 else if e.code = 0x18 ∨ e.code = 0x19 ∨ e.code = 0x1A then 0x300 else 0x100
    k'.srv (bk g (b + 1)) = k.pc ∧
    k'.srv (bk g b) = BitVec.ofNat 64 (e.code + e.hi * 2 ^ 8) ∧
    k'.srv (bk g (b + 2)) = e.addr ∧
    k'.srv (bk g (b + 3)) = e.info ∧
    bitsN (k'.srv (bk g (b + 4))) 1 0 = k.pl ∧
    bitB (k'.srv (bk g (b + 4))) 2 = k.vf ∧
    bitB (k'.srv (bk g (b + 4))) 3 = k.shb ∧
    bitB (k'.srv (bk g (b + 4))) 4 = k.ie t g ∧
    bitB (k'.srv (bk g (b + 4))) 5 = k.eip ∧
    k'.pl = t ∧ k'.vf = g ∧ k'.shb = false ∧ k'.ie t g = false ∧
    k'.eip = (k.eip || e.code == 0x18 || e.code == 0x19 || e.code == 0x1A) ∧
    k'.resv = none ∧ k'.pc = k.vecPc t g off ∧
    k'.g = k.g ∧ k'.bank = k.bank ∧ k'.v = k.v ∧ k'.m = k.m ∧ k'.fpcsr = k.fpcsr ∧ k'.sbuf = k.sbuf

/-- Rests on R216: the refill entry saves into the refill registers of the level, sets status.SHB, and enters at
offset 0. -/
def Obligations.RefillEntry : Prop :=
  ∀ (k : Core) (t : Fin 4) (g : Bool) (e : Exc), 1 ≤ t.val → (g = true → t.val = 1) →
    let k' := k.refillAt t g e
    k'.srv (bk g 0x040) = k.pc ∧ k'.srv (bk g 0x042) = e.addr ∧
    bitsN (k'.srv (bk g 0x041)) 1 0 = k.pl ∧ bitB (k'.srv (bk g 0x041)) 2 = k.vf ∧ bitB (k'.srv (bk g 0x041)) 3 = false ∧
    bitB (k'.srv (bk g 0x041)) 5 = k.eip ∧
    bitsN (k'.srv (bk g 0x208)) 15 0 = bitsN (k.srv (bk k.vf 0x201)) 15 0 ∧
    bitsN (k'.srv (bk g 0x208)) 63 19 = bitsN e.addr 56 12 ∧
    k'.pl = t ∧ k'.vf = g ∧ k'.shb = true ∧ k'.eip = k.eip ∧ k'.resv = none ∧ k'.pc = k.vecPc t g 0 ∧
    k'.g = k.g ∧ k'.bank = k.bank ∧ k'.v = k.v ∧ k'.m = k.m ∧ k'.fpcsr = k.fpcsr ∧ k'.sbuf = k.sbuf

/-- R208: a trap return outside a refill handler restores PL, V, SHB, EIP and the level's IE from tstatus and goes to
tpc; in a refill handler it restores from the refill registers and clears SHB. -/
def Obligations.TrapReturn : Prop :=
  ∀ (s : State) (c : CoreId), s.Runs c → 1 ≤ (s.core c).pl →
    let k := s.core c
    let g := k.vf && decide (k.pl = 1)
    let w := if k.shb then k.srv (bk g 0x041) else k.srv (bk g (16 * k.pl + 4))
    ∃ (t : State) (u : Core), exec (.tret c) s = .next t ∧ s.Counted t c ∧
      ({ u with ctr := (t.core c).ctr, hist := (t.core c).hist, rstack := (t.core c).rstack, btb := (t.core c).btb,
                zb := (t.core c).zb, swait := (t.core c).swait } : Core).Counted (t.core c) ∧
      u.pc = (if k.shb then k.srv (bk g 0x040) else k.srv (bk g (16 * k.pl + 1))) ∧
      u.pl = bitsN w 1 0 ∧ u.vf = bitB w 2 ∧ u.shb = (!k.shb && bitB w 3) ∧ u.eip = bitB w 5 ∧
      u.ie k.pl g = bitB w 4 ∧ u.resv = none ∧
      { u with pc := k.pc, sr := k.sr, resv := k.resv, hold := k.hold } = k ∧
      (∀ n, n ≠ 0 → n ≠ 0x800 → u.srv n = k.srv n)

/-- Rests on R196, R200, R203 and Table 7.5: SYSCALL and BREAK take their exceptions at every level, HCALL and PCALL
from PL1, each with its call code in tinfo; below that level, and for TRET and WFI at PL0, the instruction raises
PRIV_INSTR; a guest's WFI that hctl traps is taken at PL2 (R200). -/
def Obligations.CallsAndPrivilege : Prop :=
  ∀ (s : State) (c : CoreId) (n : BitVec 12), s.Runs c →
    let info : Word := BitVec.ofNat 64 (n.toNat * 2 ^ 16)
    let takes (i : Instr) (code : Nat) : Prop := exec i s = .next (s.trap c { code := code, info := info })
    let priv (i : Instr) : Prop := exec i s = .next (s.trap c { code := 0x02 })
    takes (.syscall c n) 0x0B ∧ takes (.breakI c n) 0x0E ∧
    (1 ≤ (s.core c).pl → takes (.hcall c n) 0x0C ∧ takes (.pcall c n) 0x0D) ∧
    ((s.core c).pl = 0 → priv (.hcall c n) ∧ priv (.pcall c n) ∧ priv (.tret c)) ∧
    ((s.core c).pl = 0 → ((s.core c).vf && bitB ((s.core c).srv 0x053) 0) = false → priv (.wfi c)) ∧
    (((s.core c).vf && bitB ((s.core c).srv 0x053) 0) = true → exec (.wfi c) s = .next (s.trapPl2 c { code := 0x02 })) ∧
    (∀ w, decodeWord c w = none → exec (.illegalInstr c w) s = .next (s.trap c { code := 0x01 })) ∧
    (∀ e x, (s.core c).fetchExc = some x → exec (.fetchFault c e) s = .next (s.trap c x)) ∧
    (∀ st, (s.core c).fetchExc = none → st ≠ 0 → st < 256 → exec (.fetchFault c (.status st)) s =
      .next (s.trap c { code := 0x0A, addr := (s.core c).pc, info := BitVec.ofNat 64 st }))

/-- Rests on Table 6.16, R202 to R204: MFSR reads a system register that its level and guest flag may read; MTSR,
MSSET and MSCLR write it; MSSET and MSCLR also read the old value. Stated for the 64-bit registers without fields,
tpc, taddr and rpc of a level at which the core runs, outside the guest. -/
def Obligations.SystemRegisterAccess : Prop :=
  ∀ (s : State) (c : CoreId) (rd ra : Reg) (n : BitVec 12), s.Runs c → (s.core c).vf = false →
    let k := s.core c
    let a := k.rd ra
    let next (k' : Core) : Core := { k' with pc := k.pc + 4, hold := none }
    (n = 0x011 ∧ 1 ≤ k.pl) ∨ (n = 0x012 ∧ 1 ≤ k.pl) ∨ (n = 0x021 ∧ 2 ≤ k.pl) ∨ (n = 0x022 ∧ 2 ≤ k.pl) ∨
      (n = 0x031 ∧ k.pl = 3) ∨ (n = 0x032 ∧ k.pl = 3) ∨ (n = 0x040 ∧ 1 ≤ k.pl) ∨ (n = 0x209 ∧ 1 ≤ k.pl) →
    let old := k.srv n.toNat
    Completes (.mfsr c rd n) s c (next (k.wr rd old)) ∧
    Completes (.mtsr c ra n) s c (next (k.setSr n.toNat a)) ∧
    Completes (.msset c rd ra n) s c (next ((k.setSr n.toNat (old ||| a)).wr rd old)) ∧
    Completes (.msclr c rd ra n) s c (next ((k.setSr n.toNat (old &&& ~~~ a)).wr rd old))

/-- Rests on R203, R204: a system register that no row of Table 7.3 names raises ILLEGAL_INSTR; one above the level of
the core raises PRIV_INSTR; a write with a value out of range is refused and logged, changes no register and
retires. -/
def Obligations.SystemRegisterRefusals : Prop :=
  ∀ (s : State) (c : CoreId) (rd ra : Reg) (n : BitVec 12), s.Runs c → (s.core c).vf = false → n.toNat < 0x800 →
    let k := s.core c
    let all (o : Out) : Prop := exec (.mfsr c rd n) s = o ∧ exec (.mtsr c ra n) s = o ∧ exec (.msset c rd ra n) s = o ∧
      exec (.msclr c rd ra n) s = o
    (srLevel n.toNat = none → all (.next (s.trap c { code := 0x01 }))) ∧
    (∀ l, srLevel n.toNat = some l → k.pl < l → n.toNat ≠ 0x300 → ¬ (0x308 ≤ n.toNat ∧ n.toNat ≤ 0x30F) →
      all (.next (s.trap c { code := 0x02 }))) ∧
    (∀ l, srLevel n.toNat = some l → l ≤ k.pl → s.srCause c n.toNat false (k.rd ra) = some 1 →
      ∃ t, exec (.mtsr c ra n) s = .next t ∧ t.mem = s.mem ∧
        ({ k with pc := k.pc + 4, hold := none } : Core).Counted (t.core c) ∧
        (t.rejOf (s.phys c / 2)).total = ((s.rejOf (s.phys c / 2)).total + 1) % 2 ^ 32)

/-- Table m is table k with some entries invalidated: each loses its V bit and nothing else (R233). -/
def Sys2Proof.Machine.Invalidated (k m : Map (Option TlbEntry)) (j : Nat) : Prop :=
  Map.get none m j = Map.get none k j ∨
    ∃ e, Map.get none k j = some e ∧ Map.get none m j = some { e with val := putB e.val 0 false }

/-- Rests on R235, R236, R246: an explicit TLBWR in the host regime writes its valid entry at tlb_index, an entry of
its set, and rd becomes 0; a bad entry value gives rd = 1, a bad index rd = 2, and nothing is written. S2WR writes a
way of its set. For guest entries see log entry 69. -/
def Obligations.TlbWrites : Prop :=
  ∀ (s : State) (c : CoreId) (rd ra : Reg), s.Runs c → (s.core c).vf = false → 1 ≤ (s.core c).pl →
    let k := s.core c
    let val := k.rd ra
    let hi := k.srv 0x208
    let size := bitsN hi 18 16
    let idx := bitsN (k.srv 0x20A) 11 0
    let next (k' : Core) : Core := { k' with pc := k.pc + 4, hold := none }
    (badEntry val size false = true → Completes (.tlbwr c rd ra 1) s c (next (k.wr rd 1)) ∧
      Completes (.tlbwr c rd ra 0) s c (next (k.wr rd 1))) ∧
    (badEntry val size false = false → idxFits idx size (bitsN hi 63 19 * 2 ^ 12) = false →
      Completes (.tlbwr c rd ra 1) s c (next (k.wr rd 2))) ∧
    (badEntry val size false = false → idxFits idx size (bitsN hi 63 19 * 2 ^ 12) = true → bitB val 0 = true →
      ∃ m, Completes (.tlbwr c rd ra 1) s c (next (({ k with tlb := m } : Core).wr rd 0)) ∧
        Map.get none m idx = some { guest := false, vmid := 0, asid := bitsN hi 15 0, size := size,
                                    vpn := alignVpn (bitsN hi 63 19) size, val := val } ∧
        ∀ j, j ≠ idx → Invalidated k.tlb m j) ∧
    (2 ≤ k.pl → badEntry val (bitsN (k.srv 0x211) 11 9) true = false → bitB val 0 = true →
      ∃ m i, i < 8 ∧ Completes (.s2wr c rd ra 0) s c (next (({ k with s2tlb := m } : Core).wr rd 0)) ∧
        let pos := s2Set (bitsN (k.srv 0x211) 11 9) (bitsN (k.srv 0x211) 51 12 * 2 ^ 12) * 8 + i
        Map.get none m pos = some { guest := true, vmid := bitsN (k.srv 0x211) 8 0, asid := 0,
                                    size := bitsN (k.srv 0x211) 11 9, vpn := alignVpn (bitsN (k.srv 0x211) 51 12) (bitsN (k.srv 0x211) 11 9), val := val } ∧
        ∀ j, j ≠ pos → Invalidated k.s2tlb m j)

/-- Rests on R237: TLBRD loads tlb_hi and tlb_lo from the entry at an index, TLBPRB from the entry that covers an
address, whose index it returns; with no such entry TLBPRB returns all ones and leaves the registers. Outside the
guest. -/
def Obligations.TlbReads : Prop :=
  ∀ (s : State) (c : CoreId) (rd ra : Reg), s.Runs c → (s.core c).vf = false → 1 ≤ (s.core c).pl →
    let k := s.core c
    let next (k' : Core) : Core := { k' with pc := k.pc + 4, hold := none }
    let loaded (e : TlbEntry) : Core :=
      (k.setSr 0x208 (BitVec.ofNat 64 (e.asid + e.size * 2 ^ 16 + e.vpn * 2 ^ 19))).setSr 0x209 e.val
    (∀ e, bitsN (k.rd ra) 11 0 < 3136 → Map.get none k.tlb (bitsN (k.rd ra) 11 0) = some e →
      Completes (.tlbrd c rd ra 0) s c (next ((loaded e).wr rd
        (BitVec.ofNat 64 ((if bitB e.val 0 then 1 else 0) + (if e.guest then 2 else 0) + e.vmid * 4))))) ∧
    (∀ j e, k.findTlb (k.rd ra).toNat = some (j, e) →
      Completes (.tlbprb c rd ra 0) s c (next ((loaded e).wr rd (BitVec.ofNat 64 j)))) ∧
    (k.findTlb (k.rd ra).toNat = none → Completes (.tlbprb c rd ra 0) s c (next (k.wr rd (BitVec.allOnes 64))))

/-- Rests on R246, R248 to R251: with no earlier store waiting, TLBINV and S2INV remove this core's entries in their
scope at once; with BCAST they also send a broadcast, which the core then awaits, and at most four may be outstanding.
TLBSYNC waits for the core's broadcasts, and with DRAIN, where it met one outstanding, until no marked access is
left. -/
def Obligations.TlbInvalidation : Prop :=
  ∀ (s : State) (c : CoreId) (rd ra : Reg) (sr : BitVec 12), s.Runs c → (s.core c).sbuf = [] →
    let k := s.core c
    let next (k' : Core) : Core := { k' with pc := k.pc + 4, hold := none }
    let id := s.nextId * 2048 + c.val
    let root := routerOfTile (s.phys c / 2)
    let leaves := bcLeaves s.oosList root
    let self (i : Instr) (op : BcOp) : Prop := Completes i s c (next (k.bcRemove op))
    let sends (i : Instr) (op : BcOp) : Prop := ∃ t, exec i s = .next t ∧
      t.bcasts = s.bcasts ++ [{ id := id, origin := some c.val, op := op, root := root, acked := [], backs := [],
                                sent := leaves, done := false }] ∧
      t.net = s.net ++ leaves.map (fun r => bcBack s.oosList root r 0 id) ∧
      (next { k.bcRemove op with bcasts := k.bcasts ++ [id] }).Counted (t.core c) ∧ t.mem = s.mem
    let tlb := BcOp.tlbInv k.vf k.curVmid (sr.toNat % 4) (bitsN (k.rd rd) 15 0) (k.rd ra).toNat
    let s2 := BcOp.s2Inv (bitsN (k.rd rd) 8 0) (sr.toNat % 4) ((k.rd ra).toNat % 2 ^ 52)
    (1 ≤ k.pl → tlbinvFields rd ra sr = true → sr.toNat < 4 → self (.tlbinv c rd ra sr) tlb) ∧
    (1 ≤ k.pl → tlbinvFields rd ra sr = true → 4 ≤ sr.toNat → k.bcasts.length < 4 → sends (.tlbinv c rd ra sr) tlb) ∧
    (2 ≤ k.pl → sr.toNat < 3 → self (.s2inv c rd ra sr) s2) ∧
    (2 ≤ k.pl → 4 ≤ sr.toNat → sr.toNat < 7 → k.bcasts.length < 4 → sends (.s2inv c rd ra sr) s2) ∧
    (1 ≤ k.pl → k.bcasts = [] → Completes (.tlbsync c 0) s c (next k)) ∧
    (1 ≤ k.pl → k.bcasts ≠ [] → exec (.tlbsync c 0) s = .next s) ∧
    (1 ≤ k.pl → k.bcasts = [] → k.drains = false ∨ s.markedFor c = 0 → Completes (.tlbsync c 1) s c (next { k with drains := false })) ∧
    (1 ≤ k.pl → k.bcasts = [] → k.drains = true → s.markedFor c ≠ 0 → exec (.tlbsync c 1) s = .next s) ∧
    (1 ≤ k.pl → k.bcasts ≠ [] → exec (.tlbsync c 1) s = .next (s.setCore c { k with drains := true }))

/-- Rests on R211, R212, R219: at an instruction boundary an accepted vector is taken: its pending bit clears, its
class comes in service, and the core enters the interrupt entry of the vector's level. A store's failure and a lost
register value are latched until their traps are taken first. -/
def Obligations.InterruptsAndErrorTraps : Prop :=
  ∀ (s : State) (c : CoreId) (pa : BitVec 52) (st : BitVec 8),
    let k := s.core c
    (k.run = .running → k.far = none → k.errCore = false → k.errStore = false → ∀ v, k.takeVec false 512 = some v → 1 ≤ k.intLevel (v / 32) →
      ∃ t u, exec (.interruptTaken c) s = .next t ∧ s.Counted t c ∧ Core.Counted u (t.core c) ∧
        bitB (u.srv (0x100 + v / 64)) (v % 64) = false ∧ bitB (u.srv 0x110) (4 + v / 32) = true ∧
        u.srv (16 * k.intLevel (v / 32)) = BitVec.ofNat 64 (0x20 + v * 2 ^ 8) ∧
        u.srv (16 * k.intLevel (v / 32) + 1) = k.pc ∧ u.pc = k.vecPc (k.intLevel (v / 32)) false 0x200) ∧
    (k.run = .running → k.far = none → k.errCore = true → k.shb = false → exec (.interruptTaken c) s =
      .next ((s.modCore c (fun k => { k with errCore := false })).trap c { code := 0x1A })) ∧
    exec (.errCore c) s = .next (s.setCore c { k with errCore := true }) ∧
    (st ≠ 0 → bitB (k.srv 0x071) 16 = false → exec (.errStore c pa st) s = .next (s.setCore c
      { ((k.setSr 0x070 (BitVec.ofNat 64 pa.toNat)).setSr 0x071 (BitVec.ofNat 64 (st.toNat + 2 ^ 16))) with errStore := true })) ∧
    exec (.storeWaitClear c) s = .next (s.setCore c { k with swait := [] }) ∧
    exec (.llHoldExpire c) s = .next (s.setCore c { k with hold := none })

/-- Rests on R219, R223, R224, R239, Tables 7.13 and 7.14: an owner's write of timer_cmp arms the timer, a due timer
pends its vector and disarms, a claim succeeds while OWNER is 0 and is refused with CONFLICT otherwise, a release
frees the timer, int_eoi ends the highest class in service, a write of walk_fill adds a hint, and WFI waits. Outside
the guest. -/
def Obligations.TimerWalksAndWaiting : Prop :=
  ∀ (s : State) (c : CoreId) (ra : Reg), s.Runs c → (s.core c).vf = false → 1 ≤ (s.core c).pl →
    let k := s.core c
    let a := k.rd ra
    let ctl := k.srv 0x131
    let owner := bitsN ctl 11 10
    let isr := bitsN (k.srv 0x110) 19 4
    let next (k' : Core) : Core := { k' with pc := k.pc + 4, hold := none }
    (exec (.timerCmpWrite c ra) s = exec (.mtsr c ra 0x130) s ∧ exec (.timerClaim c ra) s = exec (.mtsr c ra 0x131) s ∧
      exec (.timerRelease c ra) s = exec (.mtsr c ra 0x131) s ∧ exec (.intEoi c ra) s = exec (.mtsr c ra 0x111) s ∧
      exec (.walkFill c ra) s = exec (.mtsr c ra 0x204) s) ∧
    (owner = 1 → bitB ctl 0 = false ∨ s.ctime.toNat < a.toNat →
      Completes (.timerCmpWrite c ra) s c (next ((k.setSr 0x130 a).setSr 0x131 (putB ctl 15 true)))) ∧
    (owner ≠ 1 → ∃ t, exec (.timerCmpWrite c ra) s = .next t ∧
      (next (k.setSr 0x131 (putB ctl 14 true))).Counted (t.core c)) ∧
    (owner = 0 → bitB ctl 15 = false → bitB a 12 = true → bitB a 13 = false → bitsN a 9 0 = bitsN ctl 9 0 →
      Completes (.timerClaim c ra) s c (next (k.setSr 0x131 (putB (putW ctl 11 10 1) 14 false)))) ∧
    (owner ≠ 0 → bitB a 12 = true → ∃ t, exec (.timerClaim c ra) s = .next t ∧
      (next (k.setSr 0x131 (putB ctl 14 true))).Counted (t.core c)) ∧
    (owner = 1 → bitB a 12 = false → bitB a 13 = true → bitsN a 9 0 = bitsN ctl 9 0 →
      Completes (.timerRelease c ra) s c (next (k.setSr 0x131 (putB (putW ctl 11 10 0) 0 false)))) ∧
    (isr ≠ 0 → bitB a 0 = true →
      Completes (.intEoi c ra) s c (next (k.setSr 0x110 (putW (k.srv 0x110) 19 4 (isr - 2 ^ isr.log2))))) ∧
    (∃ (h : Hint) (w : Word),
      h.guest = false ∧ h.asid = (if bitB a 0 then none else some (bitsN (k.srv 0x201) 15 0)) ∧
      h.table = bitsN a 51 12 * 2 ^ 12 ∧ bitsN w 51 12 = bitsN a 51 12 ∧ bitB w 0 = bitB a 0 ∧ h.region = (k.srv 0x042).toNat / 2 ^ 21 % 2 ^ 36 ∧
      ∃ hs, (∀ x ∈ hs, x ∈ h :: k.hints) ∧ hs.head? = some h ∧ hs.length ≤ 64 ∧
        Completes (.walkFill c ra) s c (next { k.setSr 0x204 w with hints := hs })) ∧
    (owner = 1 → bitB ctl 0 = true → bitB ctl 15 = true → (k.srv 0x130).toNat ≤ s.ctime.toNat → s.lcState c ≠ 2 →
      exec (.timerFire c) s = .next (s.setCore c ((k.setSr 0x131 (putB ctl 15 false)).setPend (bitsN ctl 9 1)))) ∧
    (k.takeVec true 512 = none → exec (.wfi c) s = .next (s.setCore c { k with run := .wfi, hold := none })) ∧
    (bitB ctl 0 = false → owner = 1 → exec (.timerFire c) s = .next s)

/-- Rests on R377 and R379: TCLAIM takes the free timer for sampling and arms the first interval, TRELEASE frees it, a
write of samp_base restarts the ring, a write of samp_head within the ring moves the head; a queued record goes to the
ring at the tail, whose advance publishes it; a failed write sets ERR and ends sampling. Outside the guest. -/
def Obligations.Sampling : Prop :=
  ∀ (s : State) (c : CoreId) (ra : Reg) (st : BitVec 8), s.Runs c → (s.core c).vf = false → 1 ≤ (s.core c).pl →
    let k := s.core c
    let a := k.rd ra
    let owner := bitsN (k.srv 0x131) 11 10
    let size := 2 ^ bitsN (k.srv 0x330) 4 0
    let tail := (k.srv 0x332).toNat
    let head := (k.srv 0x331).toNat
    let slot := bitsN (k.srv 0x330) 51 12 * 2 ^ 12 + 64 * tail
    let inRange := 10000 ≤ bitsN a 30 4 ∧ bitsN a 30 4 ≤ 100000000
    let next (k' : Core) : Core := { k' with pc := k.pc + 4, hold := none }
    (owner = 0 → inRange → bitB a 1 = true → ∃ w, bitB w 3 = false ∧ bitsN w 30 4 = bitsN a 30 4 ∧ bitB w 0 = bitB a 0 ∧
      Completes (.sampTclaim c ra) s c (next (((k.setSr 0x333 w).setSr 0x131 (putB (putW (k.srv 0x131) 11 10 2) 14 false)).setSr 0x130
        (s.ctime + BitVec.ofNat 64 (bitsN a 30 4))))) ∧
    (owner ≠ 0 → bitB a 1 = true → ∃ t, exec (.sampTclaim c ra) s = .next t ∧ bitB ((t.core c).srv 0x333) 3 = true ∧
      bitB ((t.core c).srv 0x131) 14 = true ∧ bitsN ((t.core c).srv 0x131) 11 10 = owner) ∧
    (owner = 2 → inRange → bitB a 1 = false → bitB a 2 = true → ∃ w, bitsN w 30 4 = bitsN a 30 4 ∧
      Completes (.sampTrelease c ra) s c (next ((k.setSr 0x333 w).setSr 0x131 (putW (k.srv 0x131) 11 10 0)))) ∧
    (6 ≤ bitsN a 4 0 → bitsN a 4 0 ≤ 16 → bitsN a 51 12 * 2 ^ 12 + 64 * 2 ^ bitsN a 4 0 ≤ 2 ^ 48 →
      ∃ w, bitsN w 4 0 = bitsN a 4 0 ∧ bitsN w 51 12 = bitsN a 51 12 ∧
        Completes (.sampBase c ra) s c (next { (((k.setSr 0x330 w).setSr 0x331 0).setSr 0x332 0).setSr 0x334 0 with
        sampQ := [], sampDrop := 0 })) ∧
    (bitsN a 15 0 < size → (bitsN a 15 0 + size - head) % size ≤ (tail + size - head) % size →
      ∃ w, bitsN w 15 0 = bitsN a 15 0 ∧ Completes (.sampHead c ra) s c (next (k.setSr 0x331 w))) ∧
    (∀ r rest, k.sampQ = r :: rest → k.sampDrop = 0 → (tail + 1) % size ≠ head →
      bitB (s.rdCsr (keyBase + 0x10)) 32 = false →
      (st ≠ 0 → ∃ t, exec (.sampleRecordWrite c st) s = .next t ∧ { t with cores := s.cores } = s ∧
        t.core c = { k with sampQ := rest }.setSr 0x333 (putB (putB (k.srv 0x333) 48 true) 0 false)) ∧
      (bitB (k.srv 0x333) 31 = false →
        let record := wordsLine (if bitsN (r.headD 0) 3 0 = 4 then r else setAt r 5 s.ctime)
        let s1 := s.setCore c { k with sampQ := rest }
        (s1.dmaWrite (physAgt (s.phys c)) slot record 64).1 = 0 → (dmaLines slot 64).any (s1.heldBy 1088) = false →
        ∃ t, exec (.sampleRecordWrite c 0) s = .next t ∧ (t.core c).sampQ = rest ∧
          (t.core c).srv 0x332 = BitVec.ofNat 64 ((tail + 1) % size) ∧
          ∀ i, i < 64 → t.rdByte (slot + i) = BitVec.ofNat 8 (record / 256 ^ i)))

/-! ## Vector instructions (10_vector_unit.md) -/

/-- vcsr.DIRTY set, the pc advanced: what a vector instruction that writes vector state leaves beside its result. -/
def Sys2Proof.Machine.Core.vDone (k : Core) : Core := (k.vDirty.adv).holdStep true

/-- Element i of x is f i where it is active under mask register m; elsewhere 0 when z, else as in old (R288, R289). -/
def Sys2Proof.Machine.Lanes (k : Core) (m : MReg) (e : Nat) (z : Bool) (old x : VWord) (f : Nat → Nat) : Prop :=
  ∀ i, i < 128 / e → vEl x e i = if (k.rm m).getLsbD (i * (e / 8)) then f i % 2 ^ e else if z then 0 else vEl old e i

/-- Instruction i completes with a vector register whose lanes are as `Lanes` says. -/
def Sys2Proof.Machine.VGives (i : Instr) (s : State) (c : Nat) (vd : VReg) (m : MReg) (e : Nat) (z : Bool) (f : Nat → Nat) : Prop :=
  ∃ x, Lanes (s.core c) m e z ((s.core c).rv vd) x f ∧ Completes i s c ((s.core c).wv vd x).vDone

/-- Rests on R287 to R289 and Table 10.3: the lane-wise integer operations, per active element. -/
def Obligations.VectorLanes : Prop :=
  ∀ (s : State) (c : CoreId) (vd va vb : VReg) (m : MReg) (w : BitVec 2) (z : Bool), s.Runs c →
    let k := s.core c
    let e := 8 * 2 ^ w.toNat
    let a := vEl (k.rv va) e
    let b := vEl (k.rv vb) e
    let g (x : Nat) : Int := if x < 2 ^ (e - 1) then (x : Int) else (x : Int) - 2 ^ e
    let u (x : Int) : Nat := (x % 2 ^ e).toNat
    let gives (i : Instr) (f : Nat → Nat) : Prop := VGives i s c vd m e z f
    gives (.vadd c vd va vb m w z) (fun i => a i + b i) ∧
    gives (.vsub c vd va vb m w z) (fun i => u ((a i : Int) - b i)) ∧
    gives (.vmul c vd va vb m w z) (fun i => a i * b i) ∧
    gives (.vmin c vd va vb m w z) (fun i => u (min (g (a i)) (g (b i)))) ∧
    gives (.vmax c vd va vb m w z) (fun i => u (max (g (a i)) (g (b i)))) ∧
    gives (.vminu c vd va vb m w z) (fun i => min (a i) (b i)) ∧
    gives (.vmaxu c vd va vb m w z) (fun i => max (a i) (b i)) ∧
    gives (.vand c vd va vb m w z) (fun i => a i &&& b i) ∧
    gives (.vor c vd va vb m w z) (fun i => a i ||| b i) ∧
    gives (.vxor c vd va vb m w z) (fun i => a i ^^^ b i) ∧
    gives (.vandn c vd va vb m w z) (fun i => a i &&& (2 ^ e - 1 - b i)) ∧
    gives (.vsll c vd va vb m w z) (fun i => a i * 2 ^ (b i % e)) ∧
    gives (.vsrl c vd va vb m w z) (fun i => a i / 2 ^ (b i % e)) ∧
    gives (.vsra c vd va vb m w z) (fun i => u (g (a i) / 2 ^ (b i % e))) ∧
    gives (.vabsdu c vd va vb m w z) (fun i => ((a i : Int) - b i).natAbs)

/-- Rests on R288 and Table 10.3: a comparison writes all lanes of each active element of its mask with the relation;
m0 is no destination and raises ILLEGAL_INSTR. The mask-to-mask operations work on all 16 bits. -/
def Obligations.VectorMasks : Prop :=
  ∀ (s : State) (c : CoreId) (md ma mb : MReg) (va vb : VReg) (m : MReg) (w : BitVec 2) (z : Bool) (rd ra : Reg), s.Runs c →
    let k := s.core c
    let e := 8 * 2 ^ w.toNat
    let a := vEl (k.rv va) e
    let b := vEl (k.rv vb) e
    let g (x : Nat) : Int := if x < 2 ^ (e - 1) then (x : Int) else (x : Int) - 2 ^ e
    let sets (i : Instr) (r : Nat → Prop) : Prop :=
      (md = 0 → exec i s = .next (s.trap c { code := 0x01 })) ∧
      (md ≠ 0 → ∃ x : BitVec 16, Completes i s c (k.wm md x).vDone ∧ ∀ j, j < 16 →
        let n := j / (e / 8)
        let on := (k.rm m).getLsbD (n * (e / 8))
        (on = true → (x.getLsbD j = true ↔ r n)) ∧
        (on = false → x.getLsbD j = if z then false else (k.rm md).getLsbD (n * (e / 8))))
    let puts (i : Instr) (x : BitVec 16) : Prop :=
      (md = 0 → exec i s = .next (s.trap c { code := 0x01 })) ∧ (md ≠ 0 → Completes i s c (k.wm md x).vDone)
    let moves (i : Instr) (v : Word) : Prop := Completes i s c (k.put rd v)
    sets (.vcmpeq c md va vb m w z) (fun i => a i = b i) ∧
    sets (.vcmpne c md va vb m w z) (fun i => a i ≠ b i) ∧
    sets (.vcmplt c md va vb m w z) (fun i => g (a i) < g (b i)) ∧
    sets (.vcmpltu c md va vb m w z) (fun i => a i < b i) ∧
    sets (.vcmple c md va vb m w z) (fun i => g (a i) ≤ g (b i)) ∧
    sets (.vcmpleu c md va vb m w z) (fun i => a i ≤ b i) ∧
    puts (.vmand c md ma mb) (k.rm ma &&& k.rm mb) ∧
    puts (.vmor c md ma mb) (k.rm ma ||| k.rm mb) ∧
    puts (.vmxor c md ma mb) (k.rm ma ^^^ k.rm mb) ∧
    puts (.vmandn c md ma mb) (k.rm ma &&& ~~~ k.rm mb) ∧
    puts (.vmmv c md ra) ((k.rd ra).setWidth 16) ∧
    puts (.vmffm c md) ((k.srv (bk k.vf 0x400)).setWidth 16) ∧
    (md = 0 → exec (.vmcnt c md ra w) s = .next (s.trap c { code := 0x01 })) ∧
    (md ≠ 0 → ∃ x : BitVec 16, Completes (.vmcnt c md ra w) s c (k.wm md x).vDone ∧
      ∀ j, j < 16 → (x.getLsbD j = true ↔ j / (e / 8) < (k.rd ra).toNat)) ∧
    moves (.vmrd c rd ma) (BitVec.ofNat 64 (k.rm ma).toNat) ∧
    moves (.vmpopc c rd ma w) (BitVec.ofNat 64 ((List.range (128 / e)).countP (fun i => (k.rm ma).getLsbD (i * (e / 8))))) ∧
    k.rm 0 = 0xFFFF

/-- Rests on Tables 10.3 and 10.4: the permutes, which read every source element, VSEL and VCOMPRESS, and VBCAST, VINS
and VMVGV. -/
def Obligations.VectorPermutes : Prop :=
  ∀ (s : State) (c : CoreId) (vd va vb : VReg) (m : MReg) (w : BitVec 2) (z : Bool) (rd ra rb : Reg), s.Runs c →
    let k := s.core c
    let e := 8 * 2 ^ w.toNat
    let n := 128 / e
    let a := vEl (k.rv va) e
    let b := vEl (k.rv vb) e
    let cat (i : Nat) : Nat := if i < n then a i else b (i - n)
    let act (i : Nat) : Bool := (k.rm m).getLsbD (i * (e / 8))
    let g (x : Nat) : Int := if x < 2 ^ (e - 1) then (x : Int) else (x : Int) - 2 ^ e
    let whole (i : Instr) (f : Nat → Nat) : Prop :=
      ∃ x, (∀ j, j < n → vEl x e j = f j) ∧ Completes i s c (k.wv vd x).vDone
    VGives (.vshuf c vd va vb m z) s c vd m 8 z
      (fun i => if vEl (k.rv vb) 8 i < 16 then vEl (k.rv va) 8 (vEl (k.rv vb) 8 i) else 0) ∧
    VGives (.vzipl c vd va vb m w z) s c vd m e z (fun i => if i % 2 = 0 then a (i / 2) else b (i / 2)) ∧
    VGives (.vziph c vd va vb m w z) s c vd m e z (fun i => if i % 2 = 0 then a (i / 2 + n / 2) else b (i / 2 + n / 2)) ∧
    VGives (.vuzpe c vd va vb m w z) s c vd m e z (fun i => cat (2 * i)) ∧
    VGives (.vuzpo c vd va vb m w z) s c vd m e z (fun i => cat (2 * i + 1)) ∧
    VGives (.vbcast c vd ra m w z) s c vd m e z (fun _ => (k.rd ra).toNat) ∧
    whole (.vsel c vd va vb m w) (fun i => if act i then a i else b i) ∧
    whole (.vcompress c vd va m w) (fun i => (((List.range n).filter act).map a).getD i 0) ∧
    whole (.vins c vd ra rb w) (fun i =>
      if i = (k.rd rb).toNat % n then (k.rd ra).toNat % 2 ^ e else vEl (k.rv vd) e i) ∧
    Completes (.vmvgv c rd va rb w) s c (k.put rd (BitVec.ofInt 64 (g (a ((k.rd rb).toNat % n)))))

/-- R295: a reduction combines the active elements of va; with none active, rd receives the identity of the operation. -/
def Obligations.VectorReductions : Prop :=
  ∀ (s : State) (c : CoreId) (rd : Reg) (va : VReg) (m : MReg) (w : BitVec 2), s.Runs c →
    let k := s.core c
    let e := 8 * 2 ^ w.toNat
    let l := ((List.range (128 / e)).filter (fun i => (k.rm m).getLsbD (i * (e / 8)))).map (vEl (k.rv va) e)
    let g (x : Nat) : Int := if x < 2 ^ (e - 1) then (x : Int) else (x : Int) - 2 ^ e
    let gives (i : Instr) (p : Int → Prop) : Prop := ∃ v, p v ∧ Completes i s c (k.put rd (BitVec.ofInt 64 v))
    gives (.vrsum c rd va m w) (fun v => v = (l.map g).sum) ∧
    gives (.vrmin c rd va m w) (fun v => (l = [] → v = 2 ^ (e - 1) - 1) ∧ (∀ x ∈ l, v ≤ g x) ∧ (l ≠ [] → ∃ x ∈ l, v = g x)) ∧
    gives (.vrmax c rd va m w) (fun v => (l = [] → v = -(2 ^ (e - 1))) ∧ (∀ x ∈ l, g x ≤ v) ∧ (l ≠ [] → ∃ x ∈ l, v = g x)) ∧
    gives (.vrminu c rd va m w) (fun v => (l = [] → v = 2 ^ e - 1) ∧ (∀ x ∈ l, v ≤ x) ∧ (l ≠ [] → ∃ x ∈ l, v = x)) ∧
    gives (.vrmaxu c rd va m w) (fun v => (l = [] → v = 0) ∧ (∀ x ∈ l, x ≤ v) ∧ (l ≠ [] → ∃ x ∈ l, v = x)) ∧
    gives (.vrand c rd va m w) (fun v => ∃ n : Nat, v = n ∧ ∀ j, n.testBit j = (decide (j < e) && l.all (fun x => x.testBit j))) ∧
    gives (.vror c rd va m w) (fun v => ∃ n : Nat, v = n ∧ ∀ j, n.testBit j = l.any (fun x => x.testBit j)) ∧
    gives (.vrxor c rd va m w) (fun v => ∃ n : Nat, v = n ∧ ∀ j, n.testBit j = decide (l.countP (fun x => x.testBit j) % 2 = 1))

/-- As Completes, for a heavy vector instruction (R304): beside counting, its issue may count in the present window and
move the vector unit's power state, TILE_VPWR.STATE (R305). -/
def Sys2Proof.Machine.CompletesHeavy (i : Instr) (s : State) (c : Nat) (k : Core) : Prop :=
  ∃ t, exec i s = .next t ∧ { t with cores := s.cores, csr := s.csr, free := s.free } = s ∧
    (∀ c', c' ≠ c → t.core c' = s.core c') ∧
    (∀ a, ¬ s.countCsr c a → a ≠ s.vpwrAddr c → t.rdCsr a = s.rdCsr a) ∧
    ({ k with heavy := (t.core c).heavy } : Core).Counted (t.core c)

/-- Rests on R292 and R293: the widening products of one half, accumulated or not, and the dot products, per active
element of the result's width; an encoding with W outside the row's range raises ILLEGAL_INSTR (R291). For W = 1 of
the dot products see log entry 23. -/
def Obligations.VectorProducts : Prop :=
  ∀ (s : State) (c : CoreId) (vd va vb : VReg) (m : MReg) (w : BitVec 2) (z : Bool), s.Runs c →
    let k := s.core c
    let e := 8 * 2 ^ w.toNat
    let a := vEl (k.rv va) e
    let b := vEl (k.rv vb) e
    let g (x : Nat) : Int := if x < 2 ^ (e - 1) then (x : Int) else (x : Int) - 2 ^ e
    let n (x : Nat) : Int := x
    let gives (i : Instr) (r : Nat) (f : Nat → Int) : Prop :=
      ∃ x, Lanes k m r z (k.rv vd) x (fun i => (f i % 2 ^ r).toNat) ∧ CompletesHeavy i s c (k.wv vd x).vDone
    let traps (i : Instr) : Prop := exec i s = .next (s.trap c { code := 0x01 })
    let half := 128 / e / 2
    let old (i : Nat) : Int := vEl (k.rv vd) (2 * e) i
    let q := if e = 8 then 4 else 2
    let r := if e = 8 then 32 else 64
    let dot (x y : Nat → Int) (i : Nat) : Int :=
      vEl (k.rv vd) r i + ((List.range q).map (fun j => x (a (q * i + j)) * y (b (q * i + j)))).sum
    (w.toNat < 3 →
      gives (.vwmulL c vd va vb m w z) (2 * e) (fun i => g (a i) * g (b i)) ∧
      gives (.vwmulH c vd va vb m w z) (2 * e) (fun i => g (a (i + half)) * g (b (i + half))) ∧
      gives (.vwmuluL c vd va vb m w z) (2 * e) (fun i => n (a i) * n (b i)) ∧
      gives (.vwmuluH c vd va vb m w z) (2 * e) (fun i => n (a (i + half)) * n (b (i + half))) ∧
      gives (.vwmaccL c vd va vb m w z) (2 * e) (fun i => g (a i) * g (b i) + old i) ∧
      gives (.vwmaccH c vd va vb m w z) (2 * e) (fun i => g (a (i + half)) * g (b (i + half)) + old i) ∧
      gives (.vwmaccuL c vd va vb m w z) (2 * e) (fun i => n (a i) * n (b i) + old i) ∧
      gives (.vwmaccuH c vd va vb m w z) (2 * e) (fun i => n (a (i + half)) * n (b (i + half)) + old i)) ∧
    (w.toNat < 2 →
      gives (.vdot c vd va vb m w z) r (dot g g) ∧
      gives (.vdotu c vd va vb m w z) r (dot n n) ∧
      gives (.vdotsu c vd va vb m w z) r (dot g n)) ∧
    (w = 3 → traps (.vwmulL c vd va vb m w z) ∧ traps (.vwmulH c vd va vb m w z) ∧ traps (.vwmuluL c vd va vb m w z) ∧
      traps (.vwmuluH c vd va vb m w z) ∧ traps (.vwmaccL c vd va vb m w z) ∧ traps (.vwmaccH c vd va vb m w z) ∧
      traps (.vwmaccuL c vd va vb m w z) ∧ traps (.vwmaccuH c vd va vb m w z)) ∧
    (2 ≤ w.toNat → traps (.vdot c vd va vb m w z) ∧ traps (.vdotu c vd va vb m w z) ∧ traps (.vdotsu c vd va vb m w z))

/-- R296: the saturating forms work only in service mode, at PL3 with TILE_SVC.SVC = 1, and clamp each result; when an
active element is clamped, vcsr.SAT becomes 1. In any other mode they raise ILLEGAL_INSTR. -/
def Obligations.ServiceModeForms : Prop :=
  ∀ (s : State) (c : CoreId) (vd va vb : VReg) (m : MReg) (wide z : Bool), s.Runs c →
    let k := s.core c
    let e := if wide then 32 else 16
    let g (x : Nat) : Int := if x < 2 ^ (e - 1) then (x : Int) else (x : Int) - 2 ^ e
    let a (i : Nat) := g (vEl (k.rv va) e i)
    let b (i : Nat) := g (vEl (k.rv vb) e i)
    let lo : Int := -(2 ^ (e - 1))
    let hi : Int := 2 ^ (e - 1) - 1
    let svc := bitB (s.rdCsr (s.tileOf c + 0x10000 + 8 * s.posOf c)) 0
    let act (i : Nat) : Prop := i < 128 / e ∧ (k.rm m).getLsbD (i * (e / 8)) = true
    let gives (i : Instr) (f : Nat → Int) : Prop :=
      ∃ x : VWord, Lanes k m e z (k.rv vd) x (fun i => (max lo (min hi (f i)) % 2 ^ e).toNat) ∧
        ((∃ i, act i ∧ ¬ (lo ≤ f i ∧ f i ≤ hi)) →
          CompletesHeavy i s c ((k.wv vd x).setSr 0x401 (k.srv 0x401 ||| 1)).vDone) ∧
        ((∀ i, act i → lo ≤ f i ∧ f i ≤ hi) → CompletesHeavy i s c (k.wv vd x).vDone)
    let traps (i : Instr) : Prop := exec i s = .next (s.trap c { code := 0x01 })
    (k.pl = 3 → k.vf = false → svc = true →
      gives (.vsatadd c vd va vb m wide z) (fun i => a i + b i) ∧
      gives (.vsatsub c vd va vb m wide z) (fun i => a i - b i) ∧
      gives (.vfrmul c vd va vb m wide z) (fun i => a i * b i / 2 ^ (e - 1)) ∧
      gives (.vfrmulr c vd va vb m wide z) (fun i => (a i * b i + 2 ^ (e - 2)) / 2 ^ (e - 1))) ∧
    (k.pl ≠ 3 ∨ svc = false →
      traps (.vsatadd c vd va vb m wide z) ∧ traps (.vsatsub c vd va vb m wide z) ∧
      traps (.vfrmul c vd va vb m wide z) ∧ traps (.vfrmulr c vd va vb m wide z))

/-- Rests on R294: the vector floating-point operations follow the scalar ones element by element, under fpcsr.RM, and
each active element ORs its flags into fpcsr; a reserved fpcsr.RM, or a width other than 32 and 64 bits, raises
ILLEGAL_INSTR. -/
def Obligations.VectorFloat : Prop :=
  ∀ (s : State) (c : CoreId) (vd va vb : VReg) (md m : MReg) (w : BitVec 2) (z : Bool), s.Runs c →
    let k := s.core c
    let e := 8 * 2 ^ w.toNat
    let p : Bool := decide (w = 2)
    let r := bitsN k.fpcsr 7 5
    let wa (i : Nat) : Word := BitVec.ofNat 64 (vEl (k.rv va) e i)
    let wb (i : Nat) : Word := BitVec.ofNat 64 (vEl (k.rv vb) e i)
    let a (i : Nat) := fDec p (wa i)
    let b (i : Nat) := fDec p (wb i)
    let d (i : Nat) := fDec p (BitVec.ofNat 64 (vEl (k.rv vd) e i))
    let g (x : Nat) : Int := if x < 2 ^ (e - 1) then (x : Int) else (x : Int) - 2 ^ e
    let act (i : Nat) : Bool := decide (i < 128 / e) && (k.rm m).getLsbD (i * (e / 8))
    let raised (f : Nat → Nat) (fl : Word) : Prop :=
      ∀ j, j < 64 → fl.getLsbD j = (k.fpcsr.getLsbD j || (decide (j < 5) && (List.range (128 / e)).any (fun i => act i && (f i).testBit j)))
    let gives (i : Instr) (f : Nat → Word × Nat) : Prop :=
      ∃ x fl, Lanes k m e z (k.rv vd) x (fun i => (f i).1.toNat) ∧ raised (fun i => (f i).2) fl ∧
        Completes i s c ({ k.wv vd x with fpcsr := fl } : Core).vDone
    let sets (i : Instr) (f : Nat → Bool × Nat) : Prop :=
      ∃ x fl, raised (fun i => (f i).2) fl ∧ Completes i s c ({ k.wm md x with fpcsr := fl } : Core).vDone ∧
        ∀ j, j < 16 → x.getLsbD j = let n := j / (e / 8)
          if act n then (f n).1 else if z then false else (k.rm md).getLsbD (n * (e / 8))
    let traps (i : Instr) : Prop := exec i s = .next (s.trap c { code := 0x01 })
    (2 ≤ w.toNat → r < 5 →
      gives (.vfadd c vd va vb m w z) (fun i => fAdd p r (a i) (b i)) ∧
      gives (.vfsub c vd va vb m w z) (fun i => fAdd p r (a i) (b i).negate) ∧
      gives (.vfmul c vd va vb m w z) (fun i => fMul p r (a i) (b i)) ∧
      (∃ (q : Nat → Bool) (x : VWord) (fl : Word), Lanes k m e z (k.rv vd) x (fun i => (fFma p r (a i) (b i) (d i) (q i)).1.toNat) ∧
        raised (fun i => (fFma p r (a i) (b i) (d i) (q i)).2) fl ∧
        CompletesHeavy (.vfmadd c vd va vb m w z) s c ({ k.wv vd x with fpcsr := fl } : Core).vDone) ∧
      gives (.vfmin c vd va vb m w z) (fun i => fMinMax p false (wa i) (wb i)) ∧
      gives (.vfmax c vd va vb m w z) (fun i => fMinMax p true (wa i) (wb i)) ∧
      gives (.vitof c vd va m w z) (fun i => fOfInt p r (g (vEl (k.rv va) e i))) ∧
      gives (.vftoi c vd va m w z) (fun i =>
        let x := fToInt r (a i) (-(2 ^ (e - 1))) (2 ^ (e - 1) - 1) (-(2 ^ (e - 1))); (BitVec.ofInt 64 x.1, x.2)) ∧
      (md ≠ 0 →
        sets (.vfcmpeq c md va vb m w z) (fun i => fCmp 0 (a i) (b i)) ∧
        sets (.vfcmplt c md va vb m w z) (fun i => fCmp 1 (a i) (b i)) ∧
        sets (.vfcmple c md va vb m w z) (fun i => fCmp 2 (a i) (b i)))) ∧
    (w.toNat < 2 ∨ 5 ≤ r →
      traps (.vfadd c vd va vb m w z) ∧ traps (.vfsub c vd va vb m w z) ∧ traps (.vfmul c vd va vb m w z) ∧
      traps (.vfmin c vd va vb m w z) ∧ traps (.vfmax c vd va vb m w z) ∧
      traps (.vitof c vd va m w z) ∧ traps (.vftoi c vd va m w z) ∧ traps (.vfcmpeq c md va vb m w z) ∧
      traps (.vfcmplt c md va vb m w z) ∧ traps (.vfcmple c md va vb m w z))

/-- As CompletesHeavy, for a load: lines and entries used are marked as such, and a line that leaves the L1 data cache may take the
reservation with it (R141, R233). -/
def Sys2Proof.Machine.CompletesHeavyLoading (i : Instr) (s : State) (c : Nat) (k : Core) : Prop :=
  ∃ t r, exec i s = .next t ∧
    { t with cores := s.cores, csr := s.csr, free := s.free, l2 := s.l2, plru := s.plru, nru := s.nru } = s ∧
    (∀ c', c' ≠ c → t.core c' = s.core c') ∧
    (∀ a, ¬ s.countCsr c a → a ≠ s.vpwrAddr c → t.rdCsr a = s.rdCsr a) ∧ (r = k.resv ∨ r = none) ∧
    ({ k with heavy := (t.core c).heavy, resv := r } : Core).Counted (t.core c)

/-- Rests on R297 to R302: a vector store puts its active elements, in ascending order, into the store buffer; a
vector load writes the active elements from memory, and the first-fault forms set ffm. Stated for accesses that raise
no exception, meet no older store and touch no side-effect page: every active element reads as a load of its size
does. -/
def Obligations.VectorMemory : Prop :=
  ∀ (s : State) (c : CoreId) (vd vb : VReg) (ra rb : Reg) (m : MReg) (w kk : BitVec 2) (z : Bool), s.Runs c →
    let k := s.core c
    let e := 8 * 2 ^ w.toNat
    let act (i : Nat) : Prop := i < 128 / e ∧ (k.rm m).getLsbD (i * (e / 8)) = true
    let cont (i : Nat) : Word := k.rd ra + BitVec.ofNat 64 (i * (e / 8))
    let stride (i : Nat) : Word := k.rd ra + BitVec.ofNat 64 i * k.rd rb
    let index (i : Nat) : Word := k.rd ra + BitVec.ofNat 64 (vEl (k.rv vb) e i * 2 ^ kk.toNat)
    let ready (addr : Nat → Word) (acc : Acc) : Prop := ∀ i, act i → ∃ x, s.Reads c acc (addr i) (e / 8) x ∧
      ∀ l ∈ x.lines, (s.l2line (s.phys c) l).st ≠ .I
    let loads (i : Instr) (addr : Nat → Word) (acc : Acc) (ff : Bool) : Prop :=
      ready addr acc → ∃ x, CompletesHeavyLoading i s c
          (let k' := (k.wv vd x).vDirty; ({ if ff then k'.setSr (bk k.vf 0x400) 0xFFFF else k' with pc := k.pc + 4, hold := none } : Core)) ∧
        ∀ i, i < 128 / e → (act i → ∀ y, k.xlate acc (addr i) (e / 8) = .ok y → vEl x e i = s.rdPas y.pas) ∧
          (¬ act i → vEl x e i = if z then 0 else vEl (k.rv vd) e i)
    let stored (addr : Nat → Word) (acc : Acc) (cells : List (Nat × Byte)) : Prop :=
      cells = ((List.range (128 / e)).filter (fun i => (k.rm m).getLsbD (i * (e / 8)))).flatMap (fun i =>
        match k.xlate acc (addr i) (e / 8) with
        | .ok y => cellsAt y.pas (vEl (k.rv vd) e i)
        | .error _ => [])
    let fits (addr : Nat → Word) (acc : Acc) : Prop := k.sbuf.length + 128 / e ≤ 96 ∧
      ∀ i, act i → ∃ y, k.xlate acc (addr i) (e / 8) = .ok y ∧ y.se = false
    let stores (i : Instr) (addr : Nat → Word) (acc : Acc) (one : Bool) : Prop :=
      fits addr acc → ∃ t es, exec i s = .next t ∧ t.mem = s.mem ∧ stored addr acc (es.flatMap (fun x : StEntry => x.cells)) ∧
        (one = true → es.length ≤ 1) ∧ (one = false → es.length ≤ 128 / e) ∧ (∀ x ∈ es, x.kind = .plain) ∧
        ({ k with sbuf := k.sbuf ++ es, pc := k.pc + 4, hold := none, heavy := (t.core c).heavy } : Core).Counted (t.core c)
    loads (.vld c vd ra m w z) cont accLoad false ∧
    loads (.vldff c vd ra m w z) cont accVl true ∧
    loads (.vlds c vd ra rb m w z) stride accVl false ∧
    loads (.vgather c vd ra vb kk m w z) index accVl false ∧
    loads (.vgatherff c vd ra vb kk m w z) index accVl true ∧
    stores (.vst c vd ra m w) cont accStore true ∧
    stores (.vsts c vd ra rb m w) stride accVs false ∧
    stores (.vscatter c vd ra vb kk m w) index accVs false

/-! ## Chip CSRs and resets (00_scope.md, 01_organization.md, 18_register_index.md) -/

/-- Rests on R4 to R8, R23, R24, R475: a doubleword write that its block accepts sets every RW field, clears the RW1C
bits written as 1 and leaves the rest; out of range or under the block's lock it changes nothing and is logged in the
block's REJECT log. CLEAR empties that log. An access to an address that names nothing answers ADDR_ERROR, all ones to
a read, and is recorded in the address error log. A read of a snapshot page's first word returns its sequence number.
The clauses on fields are about registers that show what they store and have no rule of their own. -/
def Obligations.RegisterCommands : Prop :=
  ∀ (s : State) (a : CsrReq),
    (∀ (b : Nat) (r : RegRow) (ix : List Nat), a.size = 8 → a.pa % 8 = 0 → s.csrAccepts a.pa true a.req = true →
      regAt a.pa = some (b, r, ix) → s.writeOf r.id a = s.plainWrite a → r.id ≠ .NMC_CFG → r.id ≠ .IOT_CTL →
      s.regVal b r ix a.pa = s.rdCsr a.pa →
      let bad := ∃ f ∈ r.flds, (f.ty = .RW ∨ f.ty = .RWL) ∧
        (bitsN a.value f.hi f.lo < f.mn ∨ f.mx < bitsN a.value f.hi f.lo)
      let locked := s.lockBit b = true ∧ ∃ f ∈ r.flds, f.ty = .RWL
      (¬ bad → ¬ locked → ∃ t, exec (.registerWrite a) s = .next t ∧ t.csrRsp = (0, 0) ∧
        { t with csr := s.csr, csrRsp := s.csrRsp } = s ∧
        ∀ f ∈ r.flds,
          (f.ty = .RW ∨ f.ty = .RWL → bitsN (t.rdCsr a.pa) f.hi f.lo = bitsN a.value f.hi f.lo) ∧
          (f.ty = .RW1C → bitsN (t.rdCsr a.pa) f.hi f.lo = bitsN (s.rdCsr a.pa &&& ~~~ a.value) f.hi f.lo) ∧
          (f.ty = .RO ∨ f.ty = .W1S → bitsN (t.rdCsr a.pa) f.hi f.lo = bitsN (s.rdCsr a.pa) f.hi f.lo)) ∧
      (bad ∨ locked → ∃ t, exec (.registerWrite a) s = .next t ∧ t.csrRsp = (0, 0) ∧
        { t with rej := s.rej, csrRsp := s.csrRsp } = s ∧ (t.rejOf b).total = ((s.rejOf b).total + 1) % 2 ^ 32 ∧
        ∃ e, (t.rejOf b).ents.getLast? = some e ∧ e.headD 0 = BitVec.ofNat 64 a.pa)) ∧
    (∀ b, blockNo a.pa = some b →
      s.csrAccepts (blockBase b + rejectOff b) true a.req = true → ∃ t, exec (.rejectClear a) s = .next t ∧
        { t with rej := s.rej, csrRsp := s.csrRsp } = s ∧ (t.rejOf b).ents = [] ∧ (t.rejOf b).total = (s.rejOf b).total) ∧
    (∀ w, region a.pa = .reserved → ∃ t, exec (.reservedAccess a w) s = .next t ∧
      t.csrRsp = (2, if w then 0 else 256 ^ a.size - 1) ∧ { t with csr := s.csr, csrRsp := s.csrRsp } = s ∧
      let n := s.fld (rasBase + 0x28) 3 0
      t.rdCsr (rasBase + 0x2000 + 32 * n) = BitVec.ofNat 64 (a.pa % 2 ^ 52) ∧
        t.fld (rasBase + 0x28) 3 0 = (n + 1) % 16) ∧
    (∀ b, b < 580 → a.size = 8 → a.pa = blockBase b + snapOff b → s.csrAccepts a.pa false a.req = true →
      exec (.shadowRead a) s = .next { s with csrRsp := (0, Map.get 0 s.snap.pages b % 2 ^ 32 +
        (if Map.get false s.snap.lates b then 2 ^ 32 else 0)) })

/-- Rests on R28 to R31, R411, R456, R457, R466, R477, Table 1.9: a cold reset leaves the state after reset but for
fuses, flash and what outlives power; a warm reset keeps memory, time and placement and goes back to stage 3; a core
reset stops its core until it restarts at the reset entry with its fetch RAM; a release starts a core there. Loss of
power good, of a rail and of power hold the package in reset. What a warm reset keeps beside Table 1.9, and the state
that loss of power leaves, are inferences: log entries 33, 34. -/
def Obligations.ResetsAndLands : Prop :=
  ∀ (s : State) (q : Requester) (value : Word) (c : CoreId) (tile : TileId) (p : Fin 2) (ir : Nat),
    let warm (i : Instr) : Prop := ∃ t, exec i s = .next t ∧ t.cores = [] ∧ t.l2 = [] ∧ t.dir = [] ∧ t.net = [] ∧
      (s.homes = [] → (∀ e ∈ s.near, e.2.merge = []) → t.mem = s.mem ∧ t.poison = s.poison) ∧ t.ctime = s.ctime ∧ t.layout = s.layout ∧ t.flash = s.flash ∧
      t.fuses = s.fuses ∧ t.dse.warm = true ∧ t.stage = 3
    let cold (i : Instr) : Prop := ∃ t, exec i s = .next t ∧
      { t with pending := [], free := 0, fuses := Fuses.reset, flash := [], near := [], ports := [], dse := Dse.reset } =
        State.reset ∧ t.pending = s.pending ∧ t.fuses = s.fuses ∧ t.flash = s.flash ∧ t.dse.cold = true
    let cut (i : Instr) (good tripped cat : Bool) : Prop := ∃ t, exec i s = .next t ∧ t.pins.held = true ∧
      t.pins.pwrGood = good ∧ t.pins.thermtrip = tripped ∧ t.pins.catErr = cat ∧ t.cores = [] ∧ t.mem = [] ∧
      t.ctime = s.ctime ∧ t.fuses = s.fuses ∧ t.flash = s.flash
    let k := s.core c
    cold (.coldReset true) ∧
    (s.pins.thermtrip = false → s.pins.power = true → s.pins.pwrGood = true → cold (.coldReset false)) ∧
    (s.pins.thermtrip = true → exec (.coldReset false) s = .next s) ∧
    (s.pins.held = false → s.stage = 9 → warm .warmRstN) ∧
    (s.pins.held = false → s.stage ≠ 9 → exec .warmRstN s = .next s) ∧
    (s.csrAccepts (dseBase + 8) true q = true → s.stage = 9 → warm (.dseWarm value q)) ∧
    (let a := tileBase tile + 0x10180 + 8 * p.val
     s.csrAccepts a true q = true → bitB (s.rdCsr a) 0 = false → s.dse.warm = false →
      ∀ n, s.carried (2 * tile.val + p.val) = some n → s.lcState n ≠ 3 →
      (s.core n).run ≠ .off → ∃ t, exec (.coreReset tile p q) s = .next t ∧ bitB (t.rdCsr a) 0 = true ∧
        { t.core n with sr := (s.core n).sr } = { s.core n with run := .draining, resv := none, hold := none } ∧
        ∀ j, (t.core n).srv j = if 0x100 ≤ j ∧ j < 0x113 then srReset j else (s.core n).srv j) ∧
    (k.run = .draining → s.quiet c = true → s.lcState c = 1 → ∃ t, exec (.coreRestart c) s = .next t ∧
      { t.core c with sr := Core.reset.sr } = { Core.reset with fram := k.fram, heldMsi := k.heldMsi, run := .running } ∧
      ∀ j, (t.core c).srv j = if 0x100 ≤ j ∧ j < 0x108 then k.srv j else Core.reset.srv j) ∧
    (s.csrAccepts (dseBase + 0x10) true q = true → bitB value 10 = false → bitsN value 51 12 = 0 →
      s.lcState (bitsN value 9 0) = 1 → (s.core (bitsN value 9 0)).run = .off →
      ∃ t, exec (.dseRelease value q) s = .next t ∧ (t.core (bitsN value 9 0)).run = .running ∧
        (t.core (bitsN value 9 0)).pc = 0xF00F000000400 ∧ t.fld (dseBase + 0x10) 53 52 = 0 ∧
        ∀ c', c' ≠ bitsN value 9 0 → t.core c' = s.core c') ∧
    cut .pwrGoodFall false false false ∧ cut .railMonitorTrip s.pins.pwrGood s.pins.thermtrip true ∧
    (∃ t, exec .lossOfPower s = .next t ∧ t.pins.power = false ∧ t.pins.held = true ∧ t.cores = [] ∧ t.mem = [] ∧
      t.fuses = s.fuses ∧ t.flash = s.flash) ∧
    (∃ t, exec (.jtagInstruction ir) s = .next t ∧ { t with pins := s.pins } = s ∧
      { t.pins with jtag := s.pins.jtag } = s.pins ∧
      (ir < 3 → t.pins.jtag = ir) ∧ (3 ≤ ir → s.dse.unlocked = false → t.pins.jtag = 0))

/-- Rests on R2, R15, R17, R80, R101, R408, R409, R411, R414 and Table 15.1: each stage runs after the one before it
and leaves its number in DSE_STATUS.STAGE. Stage 1 chooses the active instance, or halts; stage 2 chooses the
firmware, or enters RECOVERY; stage 3 tests checkers; stage 4 fixes profile and settings image; stage 5 trains
channels; stage 6 lays out memory; stage 7 locks the near channels; stage 8 assigns logical cores; stage 9 releases
core 0. Stages 4 and 8 are stated for a part with nothing retired, stage 5 for ports without devices. For STAGE and
the fuses see log entries 30, 35, 95, 100. -/
def Obligations.StartUp : Prop :=
  ∀ (s : State) (west east vpp : Bool) (selftest caps : List Nat) (faults : List FaultRep) (chans : List ChanEnv)
    (ports : List TrainEnv), s.pins.held = false → s.pins.power = true →
    (s.stage = 0 → (west || east) = true → ∃ t, exec (.stage1 west east) s = .next t ∧ t.stage = 1 ∧
      t.flag dseBase 6 = !west ∧ t.flag dseBase 7 = (west && east) ∧
      t.fld dseBase 9 8 = s.fuses.lifecycle % 4 ∧ t.flag dseBase 10 = s.fuses.assurance ∧
      t.dse.hbAt = s.ctime.toNat ∧ t.mem = s.mem) ∧
    (s.stage = 0 → (west || east) = false → ∃ t, exec (.stage1 west east) s = .next t ∧ t.stage = 15 ∧
      t.pins.catErr = true) ∧
    (∀ i, s.stage = 1 → s.fwChoose = some i → ∃ t, exec .stage2 s = .next t ∧ t.stage = 2 ∧
      t.dse.fwDigest = fwDigest (s.fwSlot i) ∧ t.dse.boots = s.dse.boots + 1 ∧ t.flag dseBase 13 = decide (i = 1) ∧
      t.fld dseBase 20 14 = at' (s.fwSlot i) 6 1 % 2 ^ 7 ∧ t.mem = s.mem) ∧
    (s.stage = 1 → s.fwChoose = none → ∃ t, exec .stage2 s = .next t ∧ t.stage = 14) ∧
    (s.stage = 2 → ∃ t, exec (.stage3 selftest faults) s = .next t ∧ t.stage = 3 ∧
      (∀ f ∈ faults, f ∈ t.reports) ∧ (∀ ch ∈ selftest, ch < 12 → t.fld (chBase ch) 23 20 = 3) ∧ t.mem = s.mem) ∧
    (∀ i, s.stage = 3 → s.setChoose = some i → s.dse.gone = [] →
      let p := recVal (imgRecs (s.setImg i)) 1 0
      (p = 2 → s.fuses.assurance = true) → ∃ t, exec .stage4 s = .next t ∧ t.stage = 4 ∧ t.profile = p ∧
        t.flag dseBase 12 = false ∧ t.flag dseBase 11 = decide (i = 1) ∧ t.dse.setImage = some i ∧ t.mem = s.mem) ∧
    (s.stage = 3 → s.setChoose = none → s.dse.gone = [] → ∃ t, exec .stage4 s = .next t ∧ t.stage = 4 ∧
      t.flag dseBase 12 = true ∧ t.dse.setImage = none) ∧
    (s.stage = 4 → s.dse.warm = false → (∀ p, p < 64 → (s.port p).present = false) →
      ∃ t, exec (.stage5 chans ports) s = .next t ∧ t.stage = 5 ∧
        ∀ ch e, ch < 12 → chans[ch]? = some e → s.fld (chBase ch) 23 20 < 3 → e.density < 2 →
          e.ranks = 1 ∨ e.ranks = 2 → (∀ r, r < e.ranks → r ∈ e.pass) →
          t.fld (chBase ch) 23 20 = 2 ∧ t.fld (chBase ch) 2 0 = e.ranks ∧
            t.fld (chBase ch) 19 4 = 8192 * (e.density + 1) * e.ranks ∧ Map.get false t.pins.drst ch = true) ∧
    (s.stage = 5 → s.dse.warm = false → s.profile ≠ 2 → ∃ t, exec (.stage6 caps) s = .next t ∧ t.stage = 6 ∧
      t.layout = s.layoutOf caps ∧ t.fld capFarA 27 0 = (s.layoutOf caps).far % 2 ^ 28 ∧
      t.fld capBaseA 27 0 = (s.layoutOf caps).base % 2 ^ 28 ∧ t.fld grantedA 27 0 = 0 ∧ t.mem = s.mem) ∧
    (s.stage = 5 → s.dse.warm = true → s.elastic = [] → s.homes = [] → ∃ t, exec (.stage6 caps) s = .next t ∧
      t.stage = 6 ∧ t.layout = s.layout ∧ t.fld grantedA 27 0 = 0 ∧ t.mem = s.mem) ∧
    (s.stage = 6 → ∃ t, exec .stage7 s = .next t ∧ (∀ ch, ch < 12 → t.flag (chBase ch) 63 = true) ∧
      (s.dse.setImage = none → t.stage = 7 ∧ t.mem = s.mem)) ∧
    (s.stage = 7 → s.dse.moved = [] → s.dse.retired = [] → ∃ t, exec .stage8 s = .next t ∧ t.stage = 8 ∧ t.mem = s.mem ∧
      ∀ n, n < 1024 →
        (∀ p, s.tableCore n = some p → t.phys n = p ∧ t.lcState n = 1) ∧
        (s.tableCore n = none → t.lcState n = 0)) ∧
    (s.stage = 8 → ∃ t, exec (.stage9 vpp) s = .next t ∧ t.stage = 9 ∧ t.dse.warm = false ∧
      t.fld (dseBase + 0x200) 1 0 = 0 ∧ t.mem = s.mem ∧
      (s.lcState 0 = 1 → (t.core 0).run = .running ∧ (t.core 0).pc = 0xF00F000000400))

/-! ## Memory tiers (02_memory_tiers.md) -/

/-- Rests on R9, R53 to R55, Tables 2.9 and 2.10: UNPIN, WEIGHT, PIN and QUERY change the PIN, PINT and WEIGHT fields
of their frame's remap entry, or none, and complete their slot with a status, DONE and ENTRY; MIGRATE, and a PIN that
the frame's place does not permit, queue a migration; a frame of another channel or an UNBACKED frame ends the command
with its status. A slot that is read is consumed; one that cannot be read stops consumption. A write of the ring's
tail, base and size within their rules takes effect. -/
def Obligations.SorrelCommands : Prop :=
  ∀ (s : State) (h : HomeId) (d : SorCmd) (value : Word) (q : Requester),
    let f := bitsN d.w1 26 0
    let en := s.entry f
    let dest := bitsN d.w0 9 8
    let x := s.home (f % 12)
    let written : Prop := d.slot % 32 = 0 ∧ s.dmaStatus (d.slot / 64) = 0 ∧ s.farLost (d.slot / 64 / 32768) = false ∧
      s.heldBy 1088 (d.slot / 64) = false
    let done (t : State) (st entry : Nat) : Prop := written → (∀ g, g ≠ f → t.entry g = s.entry g) ∧
      t.rdByte (d.slot + 16) = BitVec.ofNat 8 st ∧ (t.rdByte (d.slot + 23)).getLsbD 7 = true ∧ t.rdN (d.slot + 24) 8 = entry
    let ring := chBase h + 0x200000
    let size := 2 ^ s.fld (ring + 8) 3 0
    let tail := s.fld (ring + 0x10) 11 0
    let head := s.fld (ring + 0x18) 11 0
    let slot := bitsN (s.rdCsr ring) 51 12 * 4096 + 32 * head
    (s.hostCh (f % 12) = h → s.sorWaits f = false → eKind en ≠ 0 →
      (∃ t, exec (.unpin h d) s = .next t ∧ t.entry f = putW (putB en 3 false) 5 4 0 ∧ done t 0 0) ∧
      (∃ t, exec (.weight h d) s = .next t ∧ t.entry f = putW en 11 10 (bitsN d.w0 18 17) ∧ done t 0 0) ∧
      (dest < 3 → ∃ t, exec (.pin h d) s = .next t ∧ t.entry f = putW (putB en 3 true) 5 4 dest ∧
        (s.migOf f = none → pinPermits dest (eKind en) = true → done t 0 0) ∧
        (s.migOf f = none → pinPermits dest (eKind en) = false → t.mem = s.mem ∧ (t.home (f % 12)).acts = x.acts ++
          [{ frame := f, dest := if dest = 0 then 0 else 1, port := none, auto := false, cmd := some d.slot }]) ∧
        (s.migOf f ≠ none → t.mem = s.mem ∧ (t.home (f % 12)).waiters = x.waiters ++ [{ slot := d.slot, frame := f }])) ∧
      (dest < 3 → s.migOf f = none → (ePin en = true → pinPermits (ePinT en) (dest + 1) = true) → dest = 0 ∨ bitB d.w0 16 = true →
        ∃ t, exec (.migrate h d) s = .next t ∧ t = s.setHome (f % 12) { x with acts := x.acts ++
          [{ frame := f, dest := dest, port := none, auto := false, cmd := some d.slot }] })) ∧
    (s.hostCh (f % 12) = h → s.sorWaits f = false → ∃ t, exec (.query h d) s = .next t ∧ done t 0 en.toNat ∧
      (written → t.entry f = en)) ∧
    (dest < 3 → s.hostCh (f % 12) ≠ h → ∃ t, exec (.migrate h d) s = .next t ∧ done t 1 0 ∧ (written → t.entry f = en)) ∧
    (s.hostCh (f % 12) = h → s.sorWaits f = false → eKind en = 0 → ∃ t, exec (.weight h d) s = .next t ∧ done t 2 0 ∧
      (written → t.entry f = en)) ∧
    (head ≠ tail → (s.home h).slotStop = false → (s.dmaRead slot 32).1 = 0 → s.fld (ring + 8) 3 0 ≤ 12 →
      ∃ t, exec (.sorCmdSlotRead h) s = .next t ∧ t.fld (ring + 0x18) 11 0 = (head + 1) % size) ∧
    (head ≠ tail → (s.home h).slotStop = false → (s.dmaRead slot 32).1 ≠ 0 → ∃ t l, exec (.sorCmdSlotRead h) s = .next t ∧
      (t.home h).slotStop = true ∧ t.homeLog = s.homeLog ++ l ++ [[h.val, 3, slot, 0, s.ctime.toNat]] ∧
      t.fld (ring + 0x18) 11 0 = head ∧ t.mem = s.mem) ∧
    (s.csrAccepts (ring + 0x10) true q = true → badTail size tail head (bitsN value 11 0) = false →
      ∃ t, exec (.sorCmdTail h value q) s = .next t ∧ t.fld (ring + 0x10) 11 0 = bitsN value 11 0 ∧
        (tail ≠ bitsN value 11 0 → (t.home h).slotStop = false) ∧ t.mem = s.mem) ∧
    (s.csrAccepts ring true q = true → head = tail → bitsN value 51 48 = 0 →
      ∃ t, exec (.sorCmdBase h value q) s = .next t ∧ bitsN (t.rdCsr ring) 51 12 = bitsN value 51 12 ∧
        t.fld (ring + 0x10) 11 0 = 0 ∧ t.fld (ring + 0x18) 11 0 = 0 ∧ { t with csr := s.csr } = s) ∧
    (s.csrAccepts (ring + 8) true q = true → head = tail → 4 ≤ bitsN value 3 0 → bitsN value 3 0 ≤ 12 →
      ∃ t, exec (.sorCmdSize h value q) s = .next t ∧ t.fld (ring + 8) 3 0 = bitsN value 3 0 ∧
        t.fld (ring + 0x10) 11 0 = 0 ∧ t.fld (ring + 0x18) 11 0 = 0 ∧ { t with csr := s.csr } = s)

/-- Rests on R38, R47, R50, R56 to R59, Tables 2.6 and 2.11: an epoch boundary starts the scans that are due; a visit
decays and classifies its entry; a fill installs the entry that requests wait for; a migration begins with its
destination taken and MIG = 1, goes through copy passes, switches the entry to the new place with EPOCH toggled, or
goes back on an abort, and ends when the requests of the old epoch have drained. For what the spec leaves open see log
entries 40 to 42, 46. -/
def Obligations.SorrelMigrations : Prop :=
  ∀ (s : State) (h : HomeId) (f : FrameNo) (e : CopyEnv),
    let fr := f.toNat
    let en := s.entry fr
    let x := s.home (fr % 12)
    let ep := s.coord.epoch + 1
    (let period := if (s.home h).scanPos = none then s.fld (rasBase + 0x100008) 27 22 else (s.home h).scanLen
     s.epochDue = true → ∃ t, exec .epochBoundary s = .next t ∧ t.coord.epoch = ep ∧
      t.coord.lenUs = s.fld (rasBase + 0x100008) 16 0 ∧
      t.mem = s.mem ∧ (period ∣ ep → (t.home h).scanPos = some 0) ∧ (t.home h).started = 0 ∧
      (¬ period ∣ ep → (t.home h).scanPos = (s.home h).scanPos)) ∧
    (s.epochDue = false → exec .epochBoundary s = .next s) ∧
    (∀ i, (s.home h).scanPos = some i →
      let g := 12 * i + h.val
      let old := s.entry g
      let heat := eHeat old / 2 ^ min ((s.coord.epoch + 64 - eHtag old) % 64) 8
      ∃ t, exec (.scanVisit h) s = .next t ∧ (t.home h).scanPos = (if i + 1 < shareSize h then some (i + 1) else none) ∧
        (eKind old = 0 → t.entry g = old) ∧ (∀ k, k ≠ g → t.entry k = s.entry k) ∧ t.mem = s.mem ∧
        (eKind old ≠ 0 → eHeat (t.entry g) = heat ∧ eHtag (t.entry g) = s.coord.epoch % 64 ∧
          eClass (t.entry g) = s.classOf heat ∧ ePlace (t.entry g) = ePlace old)) ∧
    (∀ r, (s.home h).rwait = [r] → frameOf r.addr = fr → s.migOf fr = none → eKind en = 4 → r.op = .HRd →
      s.spillOf h r.line = none → s.farLost fr = false → fr % 12 = h.val →
      ∃ t, exec (.remapCacheFill h f true) s = .next t ∧ t.rhit fr = true ∧ (t.home h).rwait = [] ∧ t.mem = s.mem) ∧
    (∀ r, (s.home h).rwait = [r] → frameOf r.addr = fr →
      exec (.remapCacheFill h f false) s = .next (s.report 0x18 h fr 1 fr)) ∧
    (∀ a cf, s.nextAct h = some a → (s.home h).migs.length < 4 → a.frame % 12 = h.val →
      ((s.home h).grant = false → exec (.migrationStart h) s = .next (s.tollEnqueue (.mig h))) ∧
      ((s.home h).grant = true → a.dest = 0 → s.freeNear h = some cf → s.migOf a.frame = none →
        s.nearShut (s.nearBk h) = false → s.fencedAgt (routerOfCh (s.hostCh h)) 0 = false → (s.home h).later = [] →
        eKind (s.entry a.frame) = 2 → ePin (s.entry a.frame) = false → ∃ t m, exec (.migrationStart h) s = .next t ∧ t.migOf a.frame = some m ∧
          m.st = .copy ∧ m.src = ePlace (s.entry a.frame) ∧ m.dest = { kind := 1, port := 0, loc := cf } ∧
          m.pass = 0 ∧ t.entry a.frame = putB (s.entry a.frame) 6 true ∧ t.mem = s.mem)) ∧
    (∀ m, s.migOf fr = some m →
      (m.st = .copy → m.src.kind ≠ 1 → m.dest.kind = 1 → m.dirty = [] → e.bad = [] →
        s.fencedAgt (routerOfCh (s.hostCh (fr % 12))) 0 = false → ∃ t, exec (.copyPassEnd f e) s = .next t ∧
        t.migOf fr = some { m with st := .switch, dirty := [], todo := some [], pos := 0 } ∧ t.mem = s.mem) ∧
      (m.st = .switch → s.wrOut fr = false → m.src.kind = 2 → m.dest.kind = 2 → m.holdq = [] →
        ∃ t, exec (.switchComplete f) s = .next t ∧ t.entry fr = putB (eMove en m.dest) 7 (!eEpoch en) ∧
          (∀ g, g ≠ fr → t.entry g = s.entry g) ∧ t.mem = s.mem ∧
          ∃ n, t.migOf fr = some n ∧ n.st = .drain ∧ n.src = m.src ∧ n.dest = m.dest) ∧
      (m.st = .switch → m.aborts < 2 → m.dest.kind ≠ 3 → m.holdq = [] → ∃ t, exec (.switchAbort f) s = .next t ∧
        t.migOf fr = some { m with st := if 3 ≤ m.pass then .mirror else .recopy, pass := m.pass + 1,
                                   aborts := m.aborts + 1, dirty := [], todo := some m.dirty, pos := 0 } ∧ t.mem = s.mem) ∧
      (m.st = .drain → s.outEpoch fr (!eEpoch en) = false → m.src.kind = 2 → m.cmd = none → x.waiters = [] →
        x.later = [] → (∀ g, g < 12 → (s.home g).spill = []) → s.dse.gone = [] → ∃ t, exec (.drainEnd f) s = .next t ∧ t.migOf fr = none ∧
          t.entry fr = putB en 6 false ∧ t.far m.src.port m.src.loc = .free ∧ t.mem = s.mem))

/-- Rests on R9, R65 to R71, R75 to R77, Table 2.14: a breach posts one REVOKE record per run of frames; a record is
written at the ring's tail, which advances and toggles PHASE at the wrap, and a failed write stops posting; the ring's
registers take effect; a returned run is UNBACKED and reads as no data; a held write past its deadline lands in a
landing slot, and returns from it when far space is free; an accepted evacuation closes its port, or queues its
channel's frames. For what the spec leaves open see log entries 43 to 45. -/
def Obligations.SorrelCapacity : Prop :=
  ∀ (s : State) (h : HomeId) (st : BitVec 8) (value : Word) (q : Requester),
    let excess := s.calledFor - s.underRev
    let runs := runsOf (s.revChoice (min excess (s.elastic.length - s.underRev)))
    let deadline := s.ctime.toNat + s.fld elrCtlA 16 0 * 1000
    let record (r : Nat × Nat) : ElrRec := { type := 2, frame := r.1, count := r.2, time := deadline }
    let size := 2 ^ s.fld elrSizeA 4 0
    let tail := s.fld elrTailA 15 0
    let head := s.fld elrHeadA 15 0
    let phase := s.fld elrTailA 16 16
    let noneLost := s.fld elrLostA 59 32 = 0
    let p := bitsN value 5 0
    (excess ≠ 0 → s.coord.held.length + runs.length < s.elrRoom + 256 → ∃ t, exec .breach s = .next t ∧
      t.coord.held = s.coord.held ++ runs.map record ∧
      t.coord.revs = s.coord.revs ++ runs.map (fun r => (record r, [])) ∧ { t with coord := s.coord } = s) ∧
    (∀ r rest, s.coord.held = r :: rest → s.elrRoom ≠ 0 →
      let slot := s.fld elrBaseA 51 12 * 4096 + 32 * tail
      let time := if r.type = 2 then r.time else s.ctime.toNat
      let v := phase + r.type * 16 + r.frame * 2 ^ 64 + r.count * 2 ^ 128 + time * 2 ^ 192
      ((s.dmaWrite s.dseA slot v 32).1 = 0 → (dmaLines slot 32).any (s.heldBy 1088) = false → noneLost → s.fld elrSizeA 4 0 ≤ 16 → ∃ t, exec (.elrRecordWrite 0) s = .next t ∧
        t.coord.held = rest ∧ t.fld elrTailA 15 0 = (tail + 1) % size ∧
        t.fld elrTailA 16 16 = (if tail + 1 = size then 1 - phase else phase) ∧ t.rdN slot 32 = v % 2 ^ 256) ∧
      (st ≠ 0 → s.flag elrIrqA 19 = false → ∃ t, exec (.elrRecordWrite st) s = .next t ∧ t.coord.stopped = true ∧
        t.flag capStatA 5 = true ∧ t.coord.held = s.coord.held ∧ t.mem = s.mem)) ∧
    (s.csrAccepts elrHeadA true q = true → badHead size tail head (bitsN value 15 0) = false → noneLost →
      ∃ t, exec (.sorElrHead value q) s = .next t ∧ t.fld elrHeadA 15 0 = bitsN value 15 0 ∧ { t with csr := s.csr } = s) ∧
    (s.csrAccepts elrBaseA true q = true → head = tail → bitsN value 51 48 = 0 → noneLost →
      ∃ t, exec (.sorElrBase value q) s = .next t ∧ t.fld elrBaseA 51 12 = bitsN value 51 12 ∧ t.fld elrHeadA 15 0 = 0 ∧
        t.fld elrTailA 15 0 = 0 ∧ t.fld elrTailA 16 16 = 1 ∧ t.coord.stopped = false) ∧
    (s.csrAccepts elrSizeA true q = true → head = tail → 6 ≤ bitsN value 4 0 → bitsN value 4 0 ≤ 16 → noneLost →
      ∃ t, exec (.sorElrSize value q) s = .next t ∧ t.fld elrSizeA 4 0 = bitsN value 4 0 ∧ t.fld elrHeadA 15 0 = 0 ∧
        t.fld elrTailA 15 0 = 0 ∧ t.coord.stopped = false) ∧
    (let run (g : Nat) : Prop := bitsN value 26 0 ≤ g ∧ g ≤ bitsN value 26 0 + bitsN value 42 27
     s.csrAccepts (rasBase + 0x1000A0) true q = true → (∀ g, run g → eElastic (s.entry g) = true) → s.homes = [] →
      ∃ t, exec (.sorElrReturn value q) s = .next t ∧ (∀ g, run g → t.entry g = 0) ∧
        (∀ a, run (frameOf a) → t.rdByte a = 0) ∧ (∀ a, ¬ run (frameOf a) → t.rdByte a = s.rdByte a) ∧
        t.fld grantedA 27 0 = s.fld grantedA 27 0 - (bitsN value 42 27 + 1)) ∧
    (∀ i w j, (s.home h).spill[i]? = some w →
      let fr := frameOf w.pkt.addr
      let b := w.pkt.line / 64 % 512
      let lands (t : State) : Prop := t.dirEnt fr b = mkDirEnt 3 0 j ∧
        Map.get false t.slots (2 ^ 17 * h + j) = true ∧ (t.home h).spill.length + 1 = (s.home h).spill.length ∧ t.mem = s.mem
      eKind (s.entry fr) = 3 → s.freeSlot h = some j → w.more = [] → dKind (s.dirEnt fr b) ≠ 3 → s.convOf fr b = none →
      (w.deadline ≤ s.ctime.toNat → (s.rawTry h w.pkt true []).1 = false → ∃ t, exec (.land h i) s = .next t ∧ lands t) ∧
      (s.revLate = true → (s.home h).spill = [w] → (∀ g, g < 12 → g ≠ h.val → (s.home g).spill = []) →
        ∃ t, exec .revokeDeadline s = .next t ∧ lands t)) ∧
    (∀ k ks sec s1, s.grantRule = true → s.fld freeFarA 27 0 ≠ 0 → (s.home h).migs = [] →
      (∀ g, g < 12 → (s.home g).spill = []) →
      s.remap.filter (fun e => decide (e.1 % 12 = h.val ∧ eKind e.2 = 5)) = [] →
      (s.dirPages.filter (fun e => decide (e.1 / 512 % 12 = h.val ∧ dKind e.2 = 3 ∧ eKind (s.entry (e.1 / 512)) = 3))).map
        (fun e => e.1) = k :: ks →
      s.portUsable (ePort (s.entry (k / 512))) = true →
      s.allocSec h (ePort (s.entry (k / 512))) 8 false = some (sec, s1) → ∃ t, exec (.landedMoveBack h) s = .next t ∧
        t.dirEnt (k / 512) (k % 512) = mkDirEnt 2 8 sec ∧
        Map.get false t.slots (2 ^ 17 * h + dSector (s.dirEnt (k / 512) (k % 512))) = false ∧ t.mem = s.mem) ∧
    (s.csrAccepts evacA true q = true → s.flag evacA 8 = false →
      (let n := s.layout.portFrames p
       s.profile ≠ 2 → n ≠ 0 → p ∉ s.coord.closed → s.portUsed p ≤ s.fld freeFarA 27 0 - s.portFree p →
        4104 * s.fld grantedA 27 0 + 4096 * resOf (s.fld capFarA 27 0 - n) + 4096 * n ≤ s.fld savedA 47 0 →
        ∃ t, exec (.portEvacuation value q) s = .next t ∧ p ∈ t.coord.closed ∧ t.mem = s.mem ∧
          (t.coord.evac = some (false, p) ∨ t.flag evacA 17 = true ∧ t.coord.evac = none)) ∧
      (s.profile ≠ 2 → s.layout.portFrames p = 0 → ∃ t, exec (.portEvacuation value q) s = .next t ∧ t.fld evacA 16 9 = 6 ∧
        t.flag evacA 8 = false ∧ { t with csr := s.csr, coord := s.coord } = s) ∧
      (let near := s.framesWhere (fun g w => decide (eKind w = 1 ∧ s.hostCh (g % 12) = p))
       p < 12 → s.fld (chBase p) 23 20 = 2 → s.fld (chBase (p ^^^ 1)) 23 20 = 2 → s.profile ≠ 2 → near.length ≤ s.fld freeFarA 27 0 →
        4104 * s.fld grantedA 27 0 + 4096 * resOf (s.fld capFarA 27 0) + 4096 * (s.nearSpan p).length ≤ s.fld savedA 47 0 →
        ∃ t, exec (.channelEvacuation value q) s = .next t ∧ t.coord.evac = some (true, p) ∧ t.flag evacA 8 = true ∧
          t.mem = s.mem ∧ ∀ g ∈ near, ∃ a ∈ (t.home (g % 12)).acts, a.frame = g ∧ a.dest = 1 ∧ a.auto = false))

/-! ## Near memory (03_near_memory_integrity.md) -/

/-- Rests on R81, R82, R84, R85, R89, R92 to R95, R102, R104, R109, R401: refreshes are postponed and made up; a
temperature above 85 °C shows in PWR_THERM; an accepted region write takes effect, and one that changes the code of a
frame starts a conversion, which goes line by line; a clean read is answered with the line and its poison; a merge
entry whose window has elapsed is written back; the scrubber goes line by line and clears POISONED after a pass
without poison; a bucket leaks; row sparing starts by START and ends with its status; a resilvered channel's home
function moves back. What the DRAM returns is an operand: log entries 50, 51. -/
def Obligations.NearMemory : Prop :=
  ∀ (s : State) (ch : HomeId) (e : DramEnv) (value : Word) (q : Requester),
    let n := s.nch ch
    let b := chBase ch
    let mirrorOf := ch.val ^^^ 1
    let clean : DramErr := { cells := [], link := [] }
    let sound (cf ln : Nat) (x : DramEnv) : Prop := x.own = clean ∧ Map.get [] n.errs (nkey cf ln) = []
    let marked (cf ln : Nat) : Bool := Map.get false n.marks (nkey cf ln)
    (∀ rank : Fin 4,
      (∃ t, exec (.recentre ch rank) s = .next t ∧ { t with near := s.near } = s ∧
        Map.get 0 (t.nch ch).postponed rank = Map.get 0 n.postponed rank - 1) ∧
      (∀ burst, ∃ t, exec (.refresh ch rank burst) s = .next t ∧ { t with near := s.near } = s ∧
        Map.get 0 (t.nch ch).postponed rank =
          (if burst = true ∧ Map.get 0 n.postponed rank < s.fld (b + 0x108) 16 13 then Map.get 0 n.postponed rank + 1 else 0) ∧
        ∀ k, k ≠ rank.val → Map.get 0 (t.nch ch).postponed k = Map.get 0 n.postponed k)) ∧
    (∀ degC, ∃ t, exec (.dramThermalEvent ch degC) s = .next t ∧ (t.nch ch).degC = degC ∧ t.mem = s.mem ∧
      t.flag (pwrBase + 0x28) (38 + ch) = decide (85 < degC) ∧
      (85 < degC → s.flag (pwrBase + 0x28) (38 + ch) = false → t.flag (pwrBase + 0x28) 50 = true)) ∧
    (∀ r : Fin 16, s.csrAccepts (b + 0x1000 + 8 * r) true q = true → s.regionBad ch r (s.nregion ch r) value = false →
      let old := s.nregion ch r
      let was := bitB old 32 && bitB old 33
      let is := bitB value 32 && bitB value 33
      ∃ t, exec (.nmcRegionWrite ch r value q) s = .next t ∧ t.mem = s.mem ∧ bitsN (t.nregion ch r) 14 0 = bitsN value 14 0 ∧
        bitsN (t.nregion ch r) 30 16 = bitsN value 30 16 ∧ bitsN (t.nregion ch r) 34 32 = bitsN value 34 32 ∧
        (∀ i : Fin 16, i ≠ r → t.nregion ch i = s.nregion ch i) ∧
        (was = is → { t with csr := s.csr } = s ∧ t.rdCsr (b + 0x1080) = s.rdCsr (b + 0x1080)) ∧
        (was ≠ is → t.flag (b + 0x1080) 4 = true ∧ t.fld (b + 0x1080) 3 0 = r ∧
          t.fld (b + 0x1080) 19 5 = bitsN value 14 0 ∧ (t.nch ch).convLine = 0 ∧ (t.nch ch).convOld = was)) ∧
    (let cf := s.fld (b + 0x1080) 19 5
     let ln := n.convLine
     let last := bitsN (s.nregion ch (s.fld (b + 0x1080) 3 0)) 30 16
     s.flag (b + 0x1080) 4 = true → s.fld b 23 20 = 2 → sound cf ln e → s.mergeOf ch cf ln = none →
      ∃ t, exec (.conversionLine ch e) s = .next t ∧ t.mem = s.mem ∧ t.poison = s.poison ∧
        (t.nch ch).convLine = (ln + 1) % 32768 ∧
        (t.light ch cf ln = true → t.wstampOf ch cf ln = s.coord.epoch % 8192) ∧
        Map.get false (t.nch ch).marks (nkey cf ln) = marked cf ln ∧
        t.flag (b + 0x1080) 4 = decide (ln + 1 < 32768 ∨ cf < last) ∧
        t.fld (b + 0x1080) 19 5 = (if ln + 1 < 32768 ∨ last ≤ cf then cf else cf + 1)) ∧
    (∀ p cf ln, n.reads = [(p, cf, ln)] → p.op = .HRd → s.proxied p.dst = false →
      s.flag (routerBase p.dst.router + 0x50000) 1 = false → sound cf ln e →
      ∃ t x, exec (.nearReadDone ch cf ln e) s = .next t ∧ (t.nch ch).reads = [] ∧ t.net = s.net ++ [x] ∧ x.op = .Data ∧
        x.src = p.dst ∧ x.dst = p.src ∧ x.txid = p.txid ∧ x.status = 0 ∧ x.data = s.rdLine p.line ∧
        x.poison = (marked cf ln || s.mergePoison ch cf ln) ∧
        (marked cf ln = false → { t with near := s.near, net := s.net } = s)) ∧
    (∀ (i : Fin 32) m, n.merge[i.val]? = some m → m.time + s.fld (b + 0x2000) 6 0 ≤ s.ctime.toNat →
      sound m.cf m.line e → marked m.cf m.line = false → m.pmask = 0 → ∃ t, exec (.mergeForce ch i e) s = .next t ∧ (t.nch ch).merge = takeOut m n.merge ∧
        { t with near := s.near, csr := s.csr } = s ∧
        (s.light ch m.cf m.line = true → t.wstampOf ch m.cf m.line = s.coord.epoch % 8192)) ∧
    (let cf := s.fld (b + 0x3000) 24 10
     let frames := s.fld b 19 4
     let here := marked cf n.scrubLine
     s.flag (b + 0x3000) 8 = true → frames ≠ 0 → s.fld b 23 20 = 2 → sound cf n.scrubLine e → ∃ t, exec (.scrubRead ch e) s = .next t ∧
      t.mem = s.mem ∧ t.poison = s.poison ∧
      (n.scrubLine + 1 < 32768 → (t.nch ch).scrubLine = n.scrubLine + 1 ∧ (t.nch ch).scrubPoison = (n.scrubPoison || here) ∧
        (here = false → { t with near := s.near } = s)) ∧
      (32768 ≤ n.scrubLine + 1 → (t.nch ch).scrubLine = 0 ∧ (t.nch ch).scrubPoison = false ∧
        t.fld (b + 0x3000) 24 10 = (if cf + 1 < frames then (cf + 1) % 2 ^ 15 else 0) ∧
        t.fld (b + 0x3000) 63 32 = (if cf + 1 < frames then s.fld (b + 0x3000) 63 32
          else (s.fld (b + 0x3000) 63 32 + 1) % 2 ^ 32) ∧
        (n.scrubPoison = false → here = false → ∀ f, s.sysOf ch cf = some f →
          ePoisoned (t.entry f) = false))) ∧
    (∀ k : Fin 21, let len := s.fld (bktA ch k) 47 32 * 1000
      len ≠ 0 → (Map.get 0 n.leakAt k / len + 1) * len ≤ s.ctime.toNat → ∃ t, exec (.bucketLeak ch k) s = .next t ∧ t.fld (bktA ch k) 15 0 = s.fld (bktA ch k) 15 0 - 1 ∧
      t.fld (bktA ch k) 63 16 = s.fld (bktA ch k) 63 16 ∧ { t with csr := s.csr, near := s.near } = s ∧
      ∀ a, a ≠ bktA ch k → t.rdCsr a = s.rdCsr a) ∧
    (s.csrAccepts (b + 0x6000) true q = true → s.flag (b + 0x6000) 24 = false →
      (q.dse = true ∨ 3 ≤ q.lvl → ∃ t, exec (.nmcSpareStart ch value q) s = .next t ∧ t.flag (b + 0x6000) 24 = true ∧
        t.fld (b + 0x6000) 23 0 = bitsN value 23 0 ∧ { t with csr := s.csr } = s) ∧
      (q.dse = false → q.lvl < 3 → ∃ t, exec (.nmcSpareStart ch value q) s = .next t ∧ t.csr = s.csr ∧ t.mem = s.mem)) ∧
    (let a := b + 0x6000
     let rank := s.fld a 1 0
     let bg := s.fld a 3 2
     let key (d : Nat) : Nat := (20 * s.physRank ch rank + d) * 4 + bg
     s.flag a 24 = true → s.ras.running = none → ∀ d, s.rowDevice ch rank bg (s.fld a 5 4) (s.fld a 23 6) = some d →
      (∀ lines : List (Fin 128 × DramEnv), (∀ x ∈ lines, sound (s.frameOfRow ch rank (s.fld a 23 6)) (rowLine bg (s.fld a 5 4) (s.fld a 23 6) x.1) x.2) → Map.get 0 n.repairs (key d) < 2 →
        (∃ t, exec (.rowSpareDone ch true lines) s = .next t ∧ t.fld a 27 25 = 0 ∧
          t.flag a 24 = false ∧ Map.get 0 (t.nch ch).repairs (key d) = Map.get 0 n.repairs (key d) + 1 ∧ t.mem = s.mem) ∧
        (∃ t, exec (.rowSpareDone ch false lines) s = .next t ∧ t.fld a 27 25 = 2 ∧
          t.flag a 24 = false ∧ (t.nch ch).repairs = n.repairs ∧ t.mem = s.mem)) ∧
      (2 ≤ Map.get 0 n.repairs (key d) → ∀ ok lines, ∃ t, exec (.rowSpareDone ch ok lines) s = .next t ∧ t.fld a 27 25 = 1 ∧
        t.flag a 24 = false ∧ (t.nch ch).repairs = n.repairs ∧
        (s.frameOfRow ch rank (s.fld a 23 6) ∈ s.nearSpan ch → s.frameOfRow ch rank (s.fld a 23 6) ∈ (t.nch ch).withheld))) ∧
    (s.fld (b + 0x7000) 1 0 = 3 → ∃ t, exec (.resilverDone ch) s = .next t ∧ t.fld (b + 0x7000) 1 0 = 1 ∧
      t.fld (chBase mirrorOf + 0x7000) 1 0 = 1 ∧ t.hostCh mirrorOf = mirrorOf ∧ t.fld (chBase mirrorOf) 23 20 = 2 ∧
      t.mem = s.mem ∧ (s.layout.homeCh.getD mirrorOf 12 ≠ ch → { t with csr := s.csr, near := s.near } = s))

/-! ## Caches (04_caches_and_ordering.md) -/

/-- Rests on R119, R128 to R134, R212, R274, Table 4.5: a prefetch that a tracked stride or stream asks for requests a
shared copy and leaves side-effect regions alone; LOCK locks the line of its address in its slice, or says why not;
UNLOCK and UNLOCK_ALL undo it; a disable starts a drain, which ends when nothing affected is left: the L2's flag
clears, the slice is disabled with no line, copy or lock, or its ways hold no line; a store is performed once its
lines are in M, a FENCE.W ends, a line zero clears poison, a status other than OK is latched, and a CFLUSH or CCLEAN
takes effect, or sends its request where the line has modified data. -/
def Obligations.CacheCommands : Prop :=
  ∀ (s : State) (c : CoreId) (tile : TileId) (value : Word) (q : Requester),
    let k := s.core c
    let p := s.phys c
    let t := tile.val
    let lockA := tileBase t + 0x40010
    let result (x : State) : Nat := x.fld (tileBase t + 0x40018) 3 1
    let line := bitsN value 47 6
    let d := s.dline line
    let inSet := (s.dir.filter (fun e => e.2.lock && decide (s.sliceOf e.1 = t) && decide (setOfLine e.1 = setOfLine line))).length
    let l3 := tileBase t + 0x40000
    (∀ pa : BitVec 52, let l := pa.toNat / 64
      let y := s.l2line p l
      (inSysMem pa.toNat = true → s.prefetches p l = true → y.st = .I → y.miss = none → y.evb = none → s.misses p < 96 →
        ∃ x, exec (.prefetch c pa) s = .next x ∧ (x.l2line p l).miss = some .RdS ∧ x.mem = s.mem) ∧
      (inSysMem pa.toNat = false ∨ s.prefetches p l = false → exec (.prefetch c pa) s = .next s)) ∧
    (s.csrAccepts lockA true q = true → s.flag (tileBase t + 0x40018) 0 = false →
      (bitsN value 51 48 = 0 → s.sliceOf line = t →
        (d.lock = false → inSet < s.fld (tileBase t + 0x40008) 5 2 → d.way ≠ .none → d.evb = none → (∀ o, d.st ≠ .X o) →
          ∃ x, exec (.lock tile value q) s = .next x ∧ x.dline line = { d with lock := true } ∧
            result x = (if s.poisoned line then 4 else 0) ∧ { x with csr := s.csr, dir := s.dir, dtags := s.dtags } = s) ∧
        (d.lock = false → s.fld (tileBase t + 0x40008) 5 2 ≤ inSet → d.evb = none → ∃ x, exec (.lock tile value q) s = .next x ∧
          result x = 1 ∧ { x with csr := s.csr } = s) ∧
        (d.lock = false → inSet < s.fld (tileBase t + 0x40008) 5 2 → d.way = .none → d.evb = none → d.st = .U →
          s.homeStatus (line / 2 ^ 15) = 1 → ∃ x, exec (.lock tile value q) s = .next x ∧ result x = 3 ∧
            x.dir = s.dir ∧ x.l2 = s.l2 ∧ x.mem = s.mem) ∧
        (d.lock = true → ∃ x, exec (.unlock tile value q) s = .next x ∧ x.dline line = { d with lock := false } ∧
          result x = 0 ∧ { x with csr := s.csr, dir := s.dir, dtags := s.dtags } = s) ∧
        (d.lock = false → ∃ x, exec (.unlock tile value q) s = .next x ∧ result x = 2 ∧ { x with csr := s.csr } = s)) ∧
      (∃ x, exec (.unlockAll tile value q) s = .next x ∧ result x = 0 ∧ { x with csr := s.csr, dir := s.dir, dtags := s.dtags } = s ∧
        ∀ l, x.dline l = if s.sliceOf l = t then { s.dline l with lock := false } else s.dline l)) ∧
    (∀ (pos : Fin 2) (i : Instr), i = .l2Disable tile pos value q ∨ i = .l2WayDisable tile pos value q →
      let a := tileBase t + 0x30000 + 8 * pos
      let old := s.rdCsr a
      s.csrAccepts a true q = true → popcount (bitsN value 15 0) ≤ 12 → 1 ≤ bitsN value 23 20 →
      (bitB old 16 = true → bitB old 17 = true → bitB value 16 = true) →
      ∃ x, exec i s = .next x ∧ { x with csr := s.csr } = s ∧ bitsN (x.rdCsr a) 16 0 = bitsN value 16 0 ∧
        bitB (x.rdCsr a) 17 = (bitB old 17 || decide (risen old value 16 0 ≠ 0))) ∧
    (∀ i : Instr, i = .l3Disable tile value q ∨ i = .l3WayDisable tile value q →
      let old := s.rdCsr l3
      s.csrAccepts l3 true q = true → popcount (bitsN value 15 0) ≤ 12 →
      (bitB old 16 = true → s.flag (l3 + 8) 0 = true → bitB value 16 = true) →
      (bitB old 16 = false → bitB value 16 = true → s.redirs.length ≠ 16) →
      (∀ e ∈ s.dir, e.2.lock = true → s.sliceOf e.1 = t → (risen old value 15 0).testBit e.2.wn = false) →
      ∃ x, exec i s = .next x ∧ { x with csr := s.csr } = s ∧ bitsN (x.rdCsr l3) 16 0 = bitsN value 16 0 ∧
        x.flag (l3 + 8) 0 = (s.flag (l3 + 8) 0 || decide (risen old value 16 0 ≠ 0)) ∧
        (risen old value 16 0 = 0 → x.fld (l3 + 8) 5 2 = maxLock (16 - popcount (bitsN value 15 0)))) ∧
    (∀ which : Fin 3, ∃ x, exec (.cacheDrainDone tile which) s = .next x ∧ x.mem = s.mem ∧
      (which.val < 2 → let a := tileBase t + 0x30000 + 8 * which.val
        let mine (e : Nat × L2Line) : Prop := e.1 / 2 ^ 42 = 2 * t + which.val
        (s.flag a 17 = false → x = s) ∧
        (s.flag a 17 = true → (∀ e ∈ s.l2, mine e → s.flag a 16 = true ∨ s.flag a e.2.wn = true → e.2.st = .I) →
          (∀ e ∈ s.l2, mine e → ∀ b, e.2.evb = some b → b.1 ≠ .M) → x = s.putFlag a 17 false)) ∧
      (which.val = 2 →
        (s.flag (l3 + 8) 0 = false → x = s) ∧
        (s.flag (l3 + 8) 0 = true → s.flag l3 16 = true → s.flag (l3 + 8) 1 = false →
          (∀ e ∈ s.dir, s.sliceOf e.1 = t → e.2.busy = none ∧ e.2.evb = none ∧ e.2.way ≠ .dirty ∧ e.2.st = .U) →
          x.flag (l3 + 8) 0 = false ∧ x.flag (l3 + 8) 1 = true ∧
            ∀ l, s.sliceOf l = t → (x.dline l).way = .none ∧ (x.dline l).lock = false ∧ (x.dline l).st = .U) ∧
        (s.flag (l3 + 8) 0 = true → s.flag l3 16 = false →
          (∀ e ∈ s.dir, s.sliceOf e.1 = t → e.2.evb = none ∧ (e.2.way = .none ∨ s.flag l3 e.2.wn = false)) →
          x.flag (l3 + 8) 0 = false ∧ x.fld (l3 + 8) 5 2 = maxLock (16 - popcount (s.fld l3 15 0)) ∧ x.dir = s.dir))) ∧
    (∀ (i : Nat) (e : StEntry), k.sbuf[i]? = some e → mayPerform k.sbuf i e = true → s.olderReady p k.sbuf i = false →
      let s0 := s.setCore c { k with sbuf := k.sbuf.eraseIdx i }
      let owned := ∀ l ∈ linesOfCells e.cells, (s.l2line p l).st = .M
      let used (x : State) : Prop := { x with mem := s.mem, poison := s.poison, l2 := s.l2, plru := s.plru, cores := s.cores } = s ∧
        (∃ rv h, x.core c = { k with sbuf := k.sbuf.eraseIdx i, resv := rv, hold := h } ∧
          (rv = k.resv ∧ h = k.hold ∨ rv = none ∧ h = none)) ∧ (∀ j, j ≠ c.val → x.core j = s.core j) ∧
        ∀ o l, (x.l2line o l).st = (s.l2line o l).st
      (e.kind = .fence → exec (.storePerform c i) s = .next s0) ∧
      (e.kind = .plain ∨ e.kind = .rel ∨ e.kind = .sideEffect ∧ inSysMem e.pa = true → owned →
        ∃ x, exec (.storePerform c i) s = .next x ∧ used x ∧ x.poison = s.poison ∧
          (∀ a, (∀ y ∈ e.cells, y.1 ≠ a) → x.rdByte a = s.rdByte a) ∧
          ((e.cells.map (fun y => y.1)).Nodup → ∀ y ∈ e.cells, x.rdByte y.1 = y.2)) ∧
      (e.kind = .zero → (s.l2line p (e.pa / 64)).st = .M → ∃ x, exec (.storePerform c i) s = .next x ∧ used x ∧
        Map.get false x.poison (e.pa / 64) = false ∧ x.mem = (s.wrCells e.cells).mem) ∧
      (e.kind = .plain ∨ e.kind = .rel → ∀ l, linesOfCells e.cells = [l] →
        s.l2line p l = L2Line.empty → (s.dline l).busy = none → (s.dline l).evb = none → s.heldElsewhere p l = false →
        s.readStatus p l ≠ 0 → ∃ x, exec (.storePerform c i) s = .next x ∧ x.mem = s.mem ∧
          x.core c = { k with sbuf := k.sbuf.eraseIdx i }.latchErr e.pa (s.readStatus p l)) ∧
      (e.kind = .flush → let l := e.pa / 64
        let d := s.dline l
        (d.way ≠ .dirty → s.copyDirty l = false → d.busy = none → d.evb = none → s.heldElsewhere 1088 l = false →
          s.fenced (sliceAgt (s.sliceOf l)) = false →
          ∃ x, exec (.storePerform c i) s = .next x ∧ x.mem = s.mem ∧ (x.core c).sbuf = k.sbuf.eraseIdx i ∧
            x.dline l = { d with st := .U, way := .none, wn := 0, lock := false } ∧
            ∀ o ∈ d.st.copies, o < 1088 → (x.l2line o l).st = .I) ∧
        (d.way = .dirty ∨ s.copyDirty l = true → (s.l2line p l).miss = none → s.misses p < 96 →
          ∃ x, exec (.storePerform c i) s = .next x ∧ x.mem = s.mem ∧ (x.core c).sbuf = k.sbuf ∧
            (x.l2line p l).miss = some .Flush)) ∧
      (e.kind = .clean → let l := e.pa / 64
        let d := s.dline l
        (∀ o, d.st = .X o → (s.l2line o l).st ≠ .I → d.way ≠ .dirty → s.copyDirty l = false → d.busy = none → d.evb = none →
          s.heldElsewhere 1088 l = false → s.fenced (sliceAgt (s.sliceOf l)) = false →
          ∃ x, exec (.storePerform c i) s = .next x ∧ x.mem = s.mem ∧ (x.core c).sbuf = k.sbuf.eraseIdx i ∧
            x.dline l = { d with st := .S [o] } ∧ (x.l2line o l).st = .S) ∧
        (d.way = .dirty ∨ s.copyDirty l = true → (s.l2line p l).miss = none → s.misses p < 96 →
          ∃ x, exec (.storePerform c i) s = .next x ∧ x.mem = s.mem ∧ (x.core c).sbuf = k.sbuf ∧
            (x.l2line p l).miss = some .Clean)))
/-! ## The directory protocol by packets (04_caches_and_ordering.md, 05_mesh.md) -/

/-- Agent a takes what arrives and sends at once: it is neither fenced nor a proxy sink, and its router is not ARMED
(R164, R167). -/
def Sys2Proof.Machine.State.Open (s : State) (a : Agt) : Prop :=
  s.proxied a = false ∧ s.fenced a = false ∧ s.flag (routerBase a.router + 0x50000) 1 = false

/-- Packet q has left the mesh, and one packet with a property has entered it. -/
def Sys2Proof.Machine.State.Answers (s t : State) (q : Pkt) (P : Pkt → Prop) : Prop :=
  ∃ x, t.net = (s.take q).net ++ [x] ∧ P x

/-- Rests on R120 to R123, R125, R126, R128, R151, Table 4.3: what a slice does with each request of level 0 for a
line that it serves and that no earlier packet of its way precedes. A line with a transaction in progress holds the
request. Else, with data in the slice: a read gets the data and its grant; an owner's copy is snooped; sharers are
invalidated before M is granted; device writes, atomics, Flush and Clean act on the line and complete. Without data
the home agent is asked. Evictions are accepted or stale as the directory says. A write whose bytes stand in memory
already (Pkt.dirty) is the model's form of a device access: log entry 22. -/
def Obligations.SliceRequests : Prop :=
  ∀ (s : State) (p : Pkt),
    let line := p.addr / 64
    let tile := s.sliceOf line
    let a := sliceAgt tile
    let d := s.dline line
    let r := agtPhys p.src
    let reads : List (Instr × Op) := [(.rds p, .RdS), (.rdx p, .RdX), (.upg p, .Upg), (.rdnc p, .RdNC)]
    let writes : List (Instr × Op × Op) := [(.wrf p, .WrF, .HWrF), (.wrp p, .WrP, .HWrP), (.fatom p, .FAtom, .HAtom)]
    let others : List (Instr × Op) := [(.rdz p, .RdZ), (.wrp p, .WrP), (.fatom p, .FAtom), (.flush p, .Flush), (.clean p, .Clean)]
    let puts : List (Instr × Op) := [(.puts p, .PutS), (.pute p, .PutE), (.putm p, .PutM)]
    let back (o : Op) (x : Pkt) : Prop := x.op = o ∧ x.src = a ∧ x.dst = p.src ∧ x.txid = p.txid ∧ x.status = 0
    let first (o : Op) : Prop := s.behind { p with op := o } = false
    let does (i : Instr) (o : Op) (d' : DirLine) (P : Pkt → Prop) : Prop := first o → ∃ t, exec i s = .next t ∧
      t.dline line = d' ∧ s.Answers t { p with op := o } P ∧
      (let u := s.take { p with op := o }
       { t with net := u.net, dir := u.dir, dtags := u.dtags, csr := u.csr, mem := u.mem, poison := u.poison,
                outst := u.outst, reqs := u.reqs, reqAt := u.reqAt, busyAt := u.busyAt } = u) ∧
      (∀ l, l ≠ line → t.dline l = s.dline l)
    let kept (i : Instr) : Prop := ∀ t, exec i s = .next t → t.mem = s.mem ∧ t.poison = s.poison
    p.dst = a → tile < 544 → s.trackers tile < 256 → s.hasRoom line = true → s.Open a →
      (d.busy.isSome = true → ∀ e ∈ reads ++ others ++ [(.wrf p, .WrF)] ++ puts, first e.2 → ∃ t, exec e.1 s = .next t ∧
        t.dline line = { d with held := d.held ++ [{ p with op := e.2 }] } ∧
        t.net = (s.take { p with op := e.2 }).net ∧ t.mem = s.mem) ∧
      (d.busy = none → d.held = [] → d.evb = none →
        (d.way ≠ .none → (∀ o, d.st ≠ .X o) →
          let grant := if p.ifetch = true ∨ d.st ≠ .U then 1 else 2
          let data (g : Nat) (x : Pkt) : Prop := back .Data x ∧ x.grant = g ∧ x.data = s.rdLine line ∧
            x.poison = s.poisoned line
          kept (.rds p) ∧ kept (.rdnc p) ∧
          does (.rds p) .RdS { d with st := if grant = 2 then .X r else d.st.add r } (data grant) ∧
          does (.rdnc p) .RdNC d (data 0) ∧
          (d.st = .U → kept (.rdx p) ∧ does (.rdx p) .RdX { d with st := .X r } (data 3) ∧
            does (.upg p) .Upg { d with st := .X r } (data 3)) ∧
          (d.way = .clean → kept (.clean p) ∧ does (.clean p) .Clean d (back .Cmp)) ∧
          (d.st = .U → d.way = .clean → kept (.flush p) ∧
            does (.flush p) .Flush { d with way := .none, wn := 0, lock := false } (back .Cmp)) ∧
          (d.st = .U → does (.wrf p) .WrF { d with way := .dirty } (back .Cmp) ∧
            (first .WrF → p.dirty = false →
              ∃ t, exec (.wrf p) s = .next t ∧ t.rdLine line = p.data ∧ Map.get false t.poison line = p.poison) ∧
            (p.dirty = true → kept (.wrf p))) ∧
          (d.st = .U → does (.wrp p) .WrP { d with way := .dirty } (back .Cmp) ∧
            (first .WrP → p.dirty = false →
              ∃ t, exec (.wrp p) s = .next t ∧ t.poison = s.poison ∧ ∀ i, i < 64 → t.rdByte (64 * line + i) =
                if p.mask.testBit i then BitVec.ofNat 8 (p.data.toNat / 256 ^ i) else s.rdByte (64 * line + i)) ∧
            (p.dirty = true → kept (.wrp p))) ∧
          (d.st = .U → let (opd, cmp, off, size, op) := p.aOp
            let old := s.rdN (64 * line + off) size
            does (.fatom p) .FAtom { d with way := .dirty } (fun x => back .Data x ∧ x.data = BitVec.ofNat 512 old ∧
              x.poison = s.poisoned line) ∧
            (first .FAtom → ∃ t, exec (.fatom p) s = .next t ∧
              t.rdN (64 * line + off) size = if s.poisoned line then old else atomOp op size old opd cmp))) ∧
        (d.st = .U → (Map.get [] s.dtags (s.dirSet line)).length < 32 → kept (.rdz p) ∧ does (.rdz p) .RdZ { d with st := .X r } (fun x => back .Grant x ∧ x.grant = 3)) ∧
        (∀ o, d.st = .X o → o ≠ r →
          (∀ e ∈ reads ++ others, kept e.1 ∧ does e.1 e.2 { d with busy := some ({ p with op := e.2 }, .snoop) }
            (fun x => x.op = (snpOf e.2).1 ∧ x.dst = physAgt o ∧ x.txid = p.txid ∧ x.addr = 64 * line ∧
              x.src = if (snpOf e.2).2 then p.src else a)) ∧
          kept (.wrf p) ∧ does (.wrf p) .WrF { d with busy := some ({ p with op := .WrF }, .acks 1) }
            (fun x => x.op = .Inv ∧ x.dst = physAgt o ∧ x.src = a)) ∧
        (∀ l, d.st = .S l → r ∈ l → let rest := l.filter (fun o => decide (o ≠ r))
          (rest = [] → kept (.upg p) ∧ does (.upg p) .Upg { d with st := .X r } (fun x => back .Grant x ∧ x.grant = 3)) ∧
          (rest ≠ [] → ∀ e ∈ [(Instr.rdx p, Op.RdX), (.upg p, .Upg), (.rdz p, .RdZ)], first e.2 → ∃ t, exec e.1 s = .next t ∧
            t.dline line = { d with busy := some ({ p with op := e.2 }, .acks rest.length) } ∧ t.mem = s.mem ∧
            ∀ o ∈ rest, ∃ x ∈ t.net, x.op = .Inv ∧ x.dst = physAgt o ∧ x.src = a ∧ x.addr = 64 * line)) ∧
        (d.way = .none → d.st = .U → (s.freeTx a).isSome = true →
          (∀ e ∈ reads, kept e.1 ∧ does e.1 e.2 { d with busy := some ({ p with op := e.2 }, .home) }
            (fun x => x.op = .HRd ∧ x.src = a ∧ x.dst = s.homeAgt (64 * line) ∧ x.addr = 64 * line)) ∧
          (d.lock = false → ∀ e ∈ writes, kept e.1 ∧ does e.1 e.2.1 { d with busy := some ({ p with op := e.2.1 }, .home) }
            (fun x => x.op = e.2.2 ∧ x.src = a ∧ x.dst = s.homeAgt (64 * line) ∧ x.data = p.data ∧ x.mask = p.mask))) ∧
        (∀ l, d.st = .S l → first .PutS → ∃ t x y, exec (.puts p) s = .next t ∧ t.net = (s.take { p with op := .PutS }).net ++ [x, y] ∧
          back .WbGo x ∧ back .WbAck y ∧ t.dline line = { d with st := d.st.drop r } ∧ t.mem = s.mem) ∧
        (d.st = .X r → first .PutE → ∃ t x y, exec (.pute p) s = .next t ∧ t.net = (s.take { p with op := .PutE }).net ++ [x, y] ∧
          back .WbGo x ∧ back .WbAck y ∧ t.dline line = { d with st := .U } ∧ t.mem = s.mem) ∧
        (d.st = .X r → kept (.putm p) ∧
          does (.putm p) .PutM { d with busy := some ({ p with op := .PutM }, .wbdata) } (back .WbGo)) ∧
        (d.st = .U → ∀ e ∈ puts, kept e.1 ∧ does e.1 e.2 d (back .WbStale)) ∧
        (∀ o, d.st = .X o → o ≠ r → ∀ e ∈ [(Instr.pute p, Op.PutE), (.putm p, .PutM)],
          kept e.1 ∧ does e.1 e.2 d (back .WbStale)))

/-- Rests on R77, R125, R130, R141, R151, Table 4.4: an L2 or a slice moves a line to its eviction buffer and sends
its Put; a CLEAN line of a slice is dropped, and a directory-only tag takes its copies with it; a home agent accepts a
Put with WbGo, or forwards it under an old home map; WbGo brings the data of a dirty line, or PutCancel when the entry
is stale; the data enters the home and WbAck frees the entry, as WbStale does; PutCancel frees what was reserved. -/
def Obligations.Evictions : Prop :=
  ∀ (s : State) (c : CoreId) (tile : TileId) (ln : LineNo) (p : Pkt),
    let l := ln.toNat
    let x := s.l2line (s.phys c) l
    let d := s.dline l
    let line := p.addr / 64
    let o := agtPhys p.dst
    let y := s.l2line o line
    let e := s.dline line
    let h := homeOf p.addr
    let resp (q : Op) : Prop := clsNo (opCls q) = 4 → Map.get false s.stale (txKey p.dst p.txid) = false
    let reply (op : Op) (z : Pkt) : Prop := z.op = op ∧ z.src = p.dst ∧ z.dst = p.src ∧ z.txid = p.txid ∧ z.addr = p.addr
    let freed (t : State) : Prop := Map.get false t.outst (txKey p.dst p.txid) = false
    let first (q : Op) : Prop := s.behind { p with op := q } = false
    let fix (z : L2Line) : L2Line := { z with l1 := if z.st = .I then none else z.l1 }
    let noWait : Prop := ∀ w ∈ s.txwait, w.src ≠ p.dst
    let puts : Nat := (s.dir.filter (fun f => f.2.evb.isSome && decide (s.sliceOf f.1 = tile))).length
    let tags : Prop := (Map.get [] s.dtags (s.dirSet l)).length < 32
    let sent : Prop := s.Open (sliceAgt tile) ∧ (s.freeTx (sliceAgt tile)).isSome = true
    (x.st ≠ .I → x.evb = none → (s.l2.filter (fun f => decide (f.1 / 2 ^ 42 = s.phys c) && f.2.evb.isSome)).length < 32 →
      s.Open (physAgt (s.phys c)) → (s.freeTx (physAgt (s.phys c))).isSome = true → ∃ t z, exec (.l2Eviction c ln) s = .next t ∧ t.net = s.net ++ [z] ∧
        z.op = (match x.st with | .M => Op.PutM | .E => .PutE | _ => .PutS) ∧ z.dst = s.homeSlice l ∧ z.addr = 64 * l ∧
        t.l2line (s.phys c) l = { x with st := .I, wn := 0, l1 := none, evb := some (x.st, false, false) } ∧ t.mem = s.mem ∧
        ((s.core (s.runsOn (s.phys c))).resv = some l → (t.core (s.runsOn (s.phys c))).resv = none)) ∧
    (s.sliceOf l = tile → d.lock = false → d.busy = none → d.evb = none →
      (d.way = .clean → tags → exec (.sliceEviction tile ln) s = .next (s.setDline l { d with way := .none, wn := 0 })) ∧
      (d.way = .dirty → puts < 16 → tags → sent → ∃ t z, exec (.sliceEviction tile ln) s = .next t ∧ t.net = s.net ++ [z] ∧
        z.op = .HPut ∧ z.dst = s.homeAgt (64 * l) ∧ t.dline l = { d with way := .none, wn := 0, evb := some false } ∧ t.mem = s.mem) ∧
      (d.way = .none → s.copyDirty l = false → ∃ t, exec (.sliceEviction tile ln) s = .next t ∧
        t.dline l = { d with st := .U } ∧ t.mem = s.mem ∧ t.net = s.net ∧
        ∀ k ∈ d.st.copies, k < 1088 → (t.l2line k l).st = .I) ∧
      (d.way = .none → s.copyDirty l = true → puts < 16 → sent → ∃ t z, exec (.sliceEviction tile ln) s = .next t ∧
        t.net = s.net ++ [z] ∧ z.op = .HPut ∧ t.dline l = { d with st := .U, wn := 0, evb := some false } ∧ t.mem = s.mem ∧
        ∀ k ∈ d.st.copies, k < 1088 → (t.l2line k l).st = .I)) ∧
    (s.sliceOf l = tile → d.lock = true → exec (.sliceEviction tile ln) s = .next s) ∧
    (s.Open p.dst →
      (first .HPut → p.dst ≠ s.homeAgt p.addr → ∃ t, exec (.hput p) s = .next t ∧ t.mem = s.mem ∧
        s.Answers t { p with op := .HPut } (fun z => z.op = .HPut ∧ z.src = p.src ∧ z.dst = s.homeAgt p.addr ∧ z.txid = p.txid)) ∧
      (first .HPut → p.dst = s.homeAgt p.addr → s.homeFull h = false → (s.home h).fenced = false → ∃ t, exec (.hput p) s = .next t ∧
        s.Answers t { p with op := .HPut } (reply .WbGo) ∧ (let u := s.take { p with op := .HPut }; { t with net := u.net } = u)) ∧
      (first .HPut → p.dst = s.homeAgt p.addr → s.homeFull h = false → (s.home h).fenced = true → ∃ t, exec (.hput p) s = .next t ∧
        s.Answers t { p with op := .HPut } (fun z => z.op = .WbStale ∧ z.dst = p.src ∧ z.status = 3) ∧
        (let u := s.take { p with op := .HPut }; { t with net := u.net } = u)) ∧
      (first .WbGo → resp .WbGo → isL2 p.dst = true → (∀ st, y.evb = some (st, false, false) → ∃ t, exec (.wbgo p) s = .next t ∧
        t.l2line o line = fix { y with evb := some (st, true, false) } ∧
        (let u := s.take { p with op := .WbGo }; { t with net := u.net, l2 := u.l2 } = u) ∧
        (st = .M → s.Answers t { p with op := .WbGo } (fun z => reply .WbData z ∧ z.data = s.rdLine line ∧
          z.poison = s.poisoned line ∧ z.dirty = true)) ∧
        (st ≠ .M → t.net = (s.take { p with op := .WbGo }).net))) ∧
      (first .WbGo → resp .WbGo → noWait → isL2 p.dst = true → (∀ st, y.evb = some (st, false, true) → ∃ t, exec (.wbgo p) s = .next t ∧
        t.l2line o line = fix { y with evb := none } ∧ s.Answers t { p with op := .WbGo } (reply .PutCancel))) ∧
      (first .WbGo → resp .WbGo → isL2 p.dst = false → e.evb = some false → ∃ t, exec (.wbgo p) s = .next t ∧
        t.dline line = { e with evb := some true } ∧ s.Answers t { p with op := .WbGo } (fun z =>
          reply .WbData z ∧ z.data = s.rdLine line ∧ z.poison = s.poisoned line) ∧ t.mem = s.mem) ∧
      (∀ i : Instr × Op, i ∈ [(Instr.wbstale p, Op.WbStale), (.wback p, .WbAck)] → first i.2 → resp i.2 → noWait →
        (isL2 p.dst = true → ∃ t, exec i.1 s = .next t ∧ t.l2line o line = fix { y with evb := none } ∧ freed t ∧
          t.net = (s.take { p with op := i.2 }).net ∧ t.mem = s.mem) ∧
        (isL2 p.dst = false → e.held = [] → ∃ t, exec i.1 s = .next t ∧ t.dline line = { e with evb := none } ∧ freed t ∧
          t.net = (s.take { p with op := i.2 }).net ∧ t.mem = s.mem)) ∧
      (isSlice p.dst = true → e.held = [] → ∀ r, e.busy = some (r, .wbdata) →
        (first .WbData → e.way ≠ .none → ∃ t, exec (.wbdata p) s = .next t ∧
          t.dline line = { e with busy := none, st := .U, way := .dirty } ∧ t.mem = s.mem ∧
          s.Answers t { p with op := .WbData } (fun z => z.op = .WbAck ∧ z.src = p.dst ∧ z.dst = r.src ∧ z.txid = r.txid)) ∧
        (first .WbData → e.way = .none → ∃ t, exec (.wbdata p) s = .next t ∧ t.mem = s.mem ∧ (t.dline line).busy = none ∧
          (t.dline line).st = .U ∧ ((t.dline line).way = .dirty ∨ (t.dline line).evb = some false)) ∧
        (first .PutCancel → ∃ t, exec (.putcancel p) s = .next t ∧ t.dline line = { e with busy := none } ∧ t.mem = s.mem ∧
          t.net = (s.take { p with op := .PutCancel }).net)) ∧
      (first .WbData → isSlice p.dst = false → s.rhit (frameOf p.addr) = false → ∃ t, exec (.wbdata p) s = .next t ∧
        (t.home h).rwait = (s.home h).rwait ++ [{ p with op := .HPut }] ∧ t.mem = s.mem ∧
        t.net = (s.take { p with op := .WbData }).net))
/-- Rests on R121 to R124, R126, R128, R142, R151, R183, Tables 4.3 and 4.4: a snoop waits behind a grant in flight
and a held line; else an owner gives its data to the requester and tells the slice, one without a copy says so, and an
invalidation is always acknowledged. At the slice the last answer lets the request go on: the directory moves as its
row says. Data and grants install a line as the directory still allows; a status is kept for the access that needs the
line, and a far atomic's answer goes to its core; an error from the home agent goes to the requester with no grant and
changes nothing else. -/
def Obligations.SnoopsAndAnswers : Prop :=
  ∀ (s : State) (p : Pkt),
    let line := p.addr / 64
    let o := agtPhys p.dst
    let x := s.l2line o line
    let d := s.dline line
    let a := s.homeSlice line
    let fresh := Map.get false s.stale (txKey p.dst p.txid) = false
    let first (q : Op) : Prop := s.behind { p with op := q } = false
    let noWait : Prop := ∀ w ∈ s.txwait, w.src ≠ p.dst
    let tags : Prop := (Map.get [] s.dtags (s.dirSet line)).length < 32
    let snoops : List (Instr × Op × Nat) := [(.snps p, .SnpS, 1), (.snpx p, .SnpX, 3)]
    let toSlice (op : Op) (z : Pkt) : Prop := z.op = op ∧ z.src = p.dst ∧ z.dst = a ∧ z.addr / 64 = line
    let given (rq : Pkt) (g : Nat) (z : Pkt) : Prop := z.op = .Data ∧ z.dst = rq.src ∧ z.txid = rq.txid ∧ z.status = 0 ∧
      z.grant = g ∧ z.data = s.rdLine line
    let asked := (Map.get none s.reqs (txKey p.dst p.txid)).map (fun r => r.op)
    s.Open p.dst →
      (s.snpWaits o line = true → ∀ i ∈ [Instr.snps p, .snpx p, .inv p], exec i s = .next s) ∧
      (s.snpWaits o line = false →
        (∀ i ∈ snoops, first i.2.1 → x.st ≠ .I → x.evb = none →
          ∃ t, exec i.1 s = .next t ∧ (t.l2line o line).st = (if i.2.2 = 1 then .S else .I) ∧ t.mem = s.mem ∧
            (i.2.2 = 3 → (s.core (s.runsOn o)).resv = some line → (t.core (s.runsOn o)).resv = none) ∧
            (p.src = a → s.Answers t { p with op := i.2.1 } (toSlice .SnpData)) ∧
            (p.src ≠ a → ∃ u v, t.net = (s.take { p with op := i.2.1 }).net ++ [u, v] ∧ u.op = .Data ∧ u.dst = p.src ∧
              u.txid = p.txid ∧ u.grant = i.2.2 ∧ u.data = s.rdLine line ∧ u.poison = s.poisoned line ∧
              toSlice .SnpData v ∧ v.dirty = decide (x.st = .M) ∧ v.grant = (if i.2.2 = 1 then 1 else 0))) ∧
        (∀ i ∈ snoops, first i.2.1 → x.st = .I → x.evb = none → ∃ t, exec i.1 s = .next t ∧ t.mem = s.mem ∧
          s.Answers t { p with op := i.2.1 } (toSlice .SnpRsp)) ∧
        (first .Inv → ∃ t, exec (.inv p) s = .next t ∧ (t.l2line o line).st = .I ∧ t.mem = s.mem ∧
          s.Answers t { p with op := .Inv } (toSlice .InvAck))) ∧
      (d.held = [] →
        (∀ r, d.busy = some (r, .snoop) →
          let rp := agtPhys r.src
          let ow := agtPhys p.src
          (first .SnpData → r.op = .RdS → d.way ≠ .none ∨ p.dirty = false → ∃ t, exec (.snpdata p) s = .next t ∧ t.mem = s.mem ∧
            t.net = (s.take { p with op := .SnpData }).net ∧
            t.dline line = { d with busy := none, way := if p.dirty then .dirty else d.way,
                                    st := if p.grant = 1 then .S [ow, rp] else .S [rp] }) ∧
          (first .SnpData → r.op = .RdS → d.way = .none → p.dirty = true → ∃ t, exec (.snpdata p) s = .next t ∧ t.mem = s.mem ∧
            (t.dline line).busy = none ∧ ((t.dline line).way = .dirty ∨ (t.dline line).evb = some false)) ∧
          (first .SnpData → r.op = .RdX ∨ r.op = .Upg → ∃ t, exec (.snpdata p) s = .next t ∧ t.mem = s.mem ∧
            t.net = (s.take { p with op := .SnpData }).net ∧ t.dline line = { d with busy := none, st := .X rp }) ∧
          (first .SnpRsp → r.op = .RdS → d.evb = none → s.Open a →
            (d.way ≠ .none → ∃ t, exec (.snprsp p) s = .next t ∧ t.mem = s.mem ∧
              t.dline line = { d with busy := none, st := if r.ifetch then .S [rp] else .X rp } ∧
              s.Answers t { p with op := .SnpRsp } (given r (if r.ifetch then 1 else 2))) ∧
            (d.way = .none → ∃ t, exec (.snprsp p) s = .next t ∧ t.mem = s.mem ∧ t.poisoned line = true))) ∧
        (∀ r n, d.busy = some (r, .acks n) → first .InvAck →
          (1 < n → ∃ t, exec (.invack p) s = .next t ∧ t.dline line = { d with busy := some (r, .acks (n - 1)) } ∧
            t.mem = s.mem ∧ t.net = (s.take { p with op := .InvAck }).net) ∧
          (n ≤ 1 → s.Open a → r.op = .RdZ → tags → ∃ t, exec (.invack p) s = .next t ∧ t.mem = s.mem ∧
            t.dline line = { d with busy := none, st := .X (agtPhys r.src) } ∧
            s.Answers t { p with op := .InvAck } (fun z => z.op = .Grant ∧ z.dst = r.src ∧ z.grant = 3)) ∧
          (n ≤ 1 → s.Open a → r.op = .WrF → r.dirty = false → d.way ≠ .none → ∃ t, exec (.invack p) s = .next t ∧
            t.rdLine line = r.data ∧ t.dline line = { d with busy := none, st := .U, way := .dirty } ∧
            s.Answers t { p with op := .InvAck } (fun z => z.op = .Cmp ∧ z.dst = r.src ∧ z.txid = r.txid)))) ∧
      (fresh → noWait → isL2 p.dst = true → ∀ i ∈ [(Instr.data p, Op.Data), (.grant p, .Grant)], first i.2 →
        (asked ≠ some .FAtom → asked ≠ some .Flush → asked ≠ some .Clean →
          (s.l2Want p ≠ .I → x.st ≠ .I ∨ ((s.l2Ways o).any (fun w => !(s.l2Mates o line).any (fun e => decide (e.2.wn = w)))) = true →
            ∃ t, exec i.1 s = .next t ∧ t.mem = s.mem ∧ (t.l2line o line).st = s.l2Want p ∧ (t.l2line o line).miss = none ∧
              Map.get false t.outst (txKey p.dst p.txid) = false) ∧
          (p.status = 0 → 1 ≤ p.grant → p.grant ≤ 3 → x.st ≠ .M → (∃ r ph, d.busy = some (r, ph) ∧ r.src = physAgt o) →
            s.l2Want p = if p.grant = 3 then .M else if p.grant = 2 then .E else .S) ∧
          (p.status ≠ 0 → x.pf = false → ∃ t, exec i.1 s = .next t ∧ t.mem = s.mem ∧ (t.l2line o line).err = p.status ∧
            (t.l2line o line).st = x.st ∧ (t.l2line o line).miss = none)) ∧
        (asked = some .FAtom → p.grant = 0 → ∀ k, (s.core (s.runsOn o)).far = some k → ∃ t, exec i.1 s = .next t ∧ t.mem = s.mem ∧
          (t.core (s.runsOn o)).far = some { k with ans := some (p.status, p.poison, p.data.toNat % 256 ^ k.size) })) ∧
      (fresh → noWait → isSlice p.dst = true → p.dst = a → d.held = [] → ∀ r, d.busy = some (r, .home) →
        (first .Data → r.op = .RdS → p.status = 0 → d.st = .U → d.way = .none → tags →
          ∀ w, (s.l3Ways (s.sliceOf line)).find? (fun i => !(s.setMates line).any (fun e => decide (e.2.wn = i))) = some w →
          ∃ t, exec (.data p) s = .next t ∧ t.mem = s.mem ∧
            t.dline line = { d with busy := none, way := .clean, wn := w,
                                    st := if r.ifetch then .S [agtPhys r.src] else .X (agtPhys r.src) } ∧
            s.Answers t { p with op := .Data } (fun z => given r (if r.ifetch then 1 else 2) z ∧ z.poison = s.poisoned line)) ∧
        (first .Data → p.status ≠ 0 → r.op = .RdS ∨ r.op = .RdX ∨ r.op = .Upg ∨ r.op = .RdNC → ∃ t, exec (.data p) s = .next t ∧
          t.mem = s.mem ∧ t.dline line = { d with busy := none } ∧ s.Answers t { p with op := .Data } (fun z =>
            z.op = .Data ∧ z.dst = r.src ∧ z.txid = r.txid ∧ z.status = p.status ∧ z.grant = 0)) ∧
        (first .Cmp → r.op = .WrF ∨ r.op = .WrP ∨ ((r.op = .Flush ∨ r.op = .Clean) ∧ p.status ≠ 0) → ∃ t, exec (.cmp p) s = .next t ∧
          t.mem = s.mem ∧ t.dline line = { d with busy := none } ∧ s.Answers t { p with op := .Cmp } (fun z =>
            z.op = .Cmp ∧ z.dst = r.src ∧ z.txid = r.txid ∧ z.status = p.status)) ∧
        (first .Cmp → p.status = 0 → r.op = .Flush ∨ (r.op = .Clean ∧ d.way ≠ .none) → ∃ t, exec (.cmp p) s = .next t ∧ t.mem = s.mem ∧
          t.dline line = (if r.op = .Flush then { d with busy := none, st := .U, way := .none, wn := 0, lock := false }
            else { d with busy := none, way := .clean }) ∧
          s.Answers t { p with op := .Cmp } (fun z => z.op = .Cmp ∧ z.dst = r.src ∧ z.txid = r.txid ∧ z.status = 0)))

/-- Rests on R23, R36, R58, R77, R91, R126, R146, R220, R314, R317, R322, R443, Tables 5.3 and 5.4: a request of level
1 is forwarded under an old home map, ended by a fenced home function, held for its remap entry, ended with UNBACKED,
or served from the frame's place. A side-effect access answers with its register's value or status; an interrupt write
pends its vector; a request to a CXL memory port takes a link tag, or ends with PORT_ERROR where no link works; a
configuration access answers at its function. -/
def Obligations.HomeAndTargetPackets : Prop :=
  ∀ (s : State) (p : Pkt) (q : Requester),
    let h := homeOf p.addr
    let f := frameOf p.addr
    let line := p.addr / 64
    let en := s.entry f
    let homes : List (Instr × Op) := [(.hrd p, .HRd), (.hwrf p, .HWrF), (.hwrp p, .HWrP), (.hatom p, .HAtom)]
    let ports : List (Instr × Op) := [(.prd p, .PRd), (.pwrf p, .PWrF), (.pwrp p, .PWrP), (.patom p, .PAtom)]
    let reply (o : Op) (z : Pkt) : Prop := z.op = o ∧ z.src = p.dst ∧ z.dst = p.src ∧ z.txid = p.txid
    let pa := seAddr p
    let size := p.seOp.2.1
    let port := agtPort p.dst
    let first (o : Op) : Prop := s.behind { p with op := o } = false
    let only (t : State) (o : Op) : Prop := let u := s.take { p with op := o }; { t with net := u.net } = u
    let ch := s.hostCh h
    let cf := eLoc en + (if s.nearBk h = ch then 0 else s.layout.nearHi.getD (s.nearBk h) 0 - s.layout.nearLo.getD (s.nearBk h) 0)
    s.Open p.dst →
      (p.dst ≠ s.homeAgt p.addr → ∀ e ∈ homes, first e.2 → ∃ t, exec e.1 s = .next t ∧ only t e.2 ∧
        s.Answers t { p with op := e.2 } (fun z => z.op = e.2 ∧ z.src = p.src ∧ z.dst = s.homeAgt p.addr ∧
          z.txid = p.txid ∧ z.addr = p.addr ∧ z.data = p.data)) ∧
      (p.dst = s.homeAgt p.addr → s.homeFull h = true → ∀ e ∈ homes, exec e.1 s = .next s) ∧
      (p.dst = s.homeAgt p.addr → s.homeFull h = false →
        ((s.home h).fenced = true → ∀ e ∈ homes, first e.2 → ∃ t, exec e.1 s = .next t ∧ only t e.2 ∧
          s.Answers t { p with op := e.2 } (fun z => reply (answerOp e.2) z ∧ z.status = 3)) ∧
        ((s.home h).fenced = false → s.rhit f = false → ∀ e ∈ homes, first e.2 → ∃ t, exec e.1 s = .next t ∧ t.mem = s.mem ∧
          t.net = (s.take { p with op := e.2 }).net ∧ (t.home h).rwait = (s.home h).rwait ++ [{ p with op := e.2 }]) ∧
        ((s.home h).fenced = false → s.rhit f = true → (∀ w ∈ (s.home h).rwait, frameOf w.addr ≠ f) →
          (∀ m, s.migOf f = some m → m.st = .switch → ∀ e ∈ homes, first e.2 → ∃ t, exec e.1 s = .next t ∧ t.mem = s.mem ∧
            t.net = (s.take { p with op := e.2 }).net ∧ ∃ n, t.migOf f = some n ∧ n.holdq = m.holdq ++ [{ p with op := e.2 }]) ∧
          (s.migOf f = none → s.spillOf h line = none → s.farLost f = false →
            (eKind en = 0 → ∀ e ∈ homes, first e.2 → ∃ t, exec e.1 s = .next t ∧ t.mem = s.mem ∧
              s.Answers t { p with op := e.2 } (fun z => reply (answerOp e.2) z ∧ z.status = 1)) ∧
            (eKind en = 4 → first .HRd → ∃ t, exec (.hrd p) s = .next t ∧ t.mem = s.mem ∧ s.Answers t { p with op := .HRd } (fun z =>
              reply .Data z ∧ z.status = 0 ∧ z.data = s.rdLine line ∧ z.poison = s.poisoned line)) ∧
            (eKind en = 1 →
              (first .HRd → ∃ t, exec (.hrd p) s = .next t ∧ t.mem = s.mem ∧ t.net = (s.take { p with op := .HRd }).net ∧
                ∃ z, (t.nch ch).reads = (s.nch ch).reads ++ [z] ∧ z.1.op = .HRd ∧
                  z.1.src = p.src ∧ z.1.txid = p.txid ∧ z.1.addr = p.addr ∧ z.2.2 = line % 32768) ∧
              (first .HWrF → p.dirty = false → ∃ t, exec (.hwrf p) s = .next t ∧ t.rdLine line = p.data ∧
                (p.poison = false → t.poisoned line = false) ∧
                s.Answers t { p with op := .HWrF } (fun z => reply .Cmp z ∧ z.status = 0)) ∧
              (first .HWrP → p.dirty = false → (s.nch ch).merge = [] → s.fld (chBase ch + 0x2000) 6 0 ≠ 0 →
                ∃ t, exec (.hwrp p) s = .next t ∧ s.Answers t { p with op := .HWrP } (fun z => reply .Cmp z ∧ z.status = 0) ∧
                ∀ i, i < 64 → t.rdByte (64 * line + i) =
                  if p.mask.testBit i then BitVec.ofNat 8 (p.data.toNat / 256 ^ i) else s.rdByte (64 * line + i)) ∧
              (let (opd, cmp, off, size, op) := p.aOp
               let old := s.rdN (64 * line + off) size
               first .HAtom → s.mergeOf ch cf (line % 32768) = none → s.poisoned line = false → ∃ t, exec (.hatom p) s = .next t ∧
                t.rdN (64 * line + off) size = atomOp op size old opd cmp ∧
                s.Answers t { p with op := .HAtom } (fun z => reply .Data z ∧ z.data = BitVec.ofNat 512 old)))))) ∧
      (p.op = .SeRd → s.behind p = false → (∃ o, region pa = .ras o ∨ region pa = .pwr o ∨ region pa = .key o ∨ region pa = .dse o) →
        let r := (s.take p).csrRead pa size q
        ∃ t, exec (.serd p q) s = .next t ∧ t.mem = s.mem ∧ s.Answers t p (fun z => reply .Data z ∧ z.status = r.1 ∧
          (r.1 = 0 → z.data = BitVec.ofNat 512 (r.2.1 * 2 ^ (8 * (p.seOp.1 % 16)))) ∧ (r.1 ≠ 0 → z.data = BitVec.allOnes 512))) ∧
      (p.op = .SeWr → s.behind p = false → (∃ o, region pa = .ras o ∨ region pa = .pwr o ∨ region pa = .key o ∨ region pa = .dse o) →
        let r := (s.take p).regWrite { pa := pa, size := size, value := BitVec.ofNat 64 (seVal p), req := q }
        r.2.Open p.dst → ∃ t z, exec (.sewr p q) s = .next t ∧ t.net = r.2.net ++ [z] ∧ reply .Cmp z ∧ z.status = r.1 ∧
          { t with net := r.2.net } = r.2) ∧
      (p.op = .MsiWr → s.behind p = false → ∀ w, region pa = .intWin w →
        let c := w / 2 ^ 12 % 2 ^ 10
        let v := seVal p
        size = 4 → w % 4096 = 0 → w / 2 ^ 22 = 0 → v < 512 → s.lcState c = 1 → (s.core c).run ≠ .wfi →
        ∃ t, exec (.msiwr p) s = .next t ∧ bitB ((t.core c).srv (0x100 + v / 64)) (v % 64) = true ∧
          (∀ k, k ≠ c → t.core k = s.core k) ∧ s.Answers t p (fun z => reply .Cmp z ∧ z.status = 0)) ∧
      (∀ e ∈ ports, p.op = e.2 → s.behind p = false → s.portMode port = 1 →
        (s.portLink port = 0 ∨ s.portLink port = 4 ∨ s.portLink port = 5 → ∃ t, exec e.1 s = .next t ∧
          only t p.op ∧ s.Answers t p (fun z => reply (answerOp e.2) z ∧ z.status = 5 ∧ z.detail = 1)) ∧
        (s.mustWait port p false = true → 1 ≤ s.portLink port → s.portLink port ≤ 3 → ∃ t, exec e.1 s = .next t ∧
          (t.port port).wait = (s.port port).wait ++ [(p, false)] ∧ t.net = (s.take p).net ∧ t.mem = s.mem) ∧
        (s.mustWait port p false = false → ∃ t r, exec e.1 s = .next t ∧ (t.port port).out = (s.port port).out ++ [r] ∧
          r.pkt = p ∧ (∀ x ∈ (s.port port).out, x.tag ≠ r.tag) ∧ r.tag ∉ (s.port port).quar ∧
          t.net = (s.take p).net ∧ t.mem = s.mem)) ∧
      (∀ seg off, region pa = .ecam seg off → s.behind p = false → cfgOk q off size = true →
        (p.op = .SeRd → s.cfgTarget seg off = .absent → ∃ t, exec (.configRequest p q) s = .next t ∧
          only t p.op ∧ s.Answers t p (fun z => reply .Data z ∧ z.status = 0 ∧
            z.data = BitVec.ofNat 512 ((256 ^ size - 1) * 2 ^ (8 * (p.seOp.1 % 16))))) ∧
        (p.op = .SeRd → size = 4 → ∀ d reg, s.cfgTarget seg off = .engine d reg → ∃ t, exec (.configRequest p q) s = .next t ∧
          only t p.op ∧ s.Answers t p (fun z => reply .Data z ∧ z.status = 0 ∧
            z.data = BitVec.ofNat 512 ((s.cfgDword (64 + d) (reg / 4 * 4)).toNat * 2 ^ (8 * (p.seOp.1 % 16))))) ∧
        (p.op = .SeWr → s.cfgTarget seg off = .absent → ∃ t, exec (.configRequest p q) s = .next t ∧
          only t p.op ∧ s.Answers t p (fun z => reply .Cmp z ∧ z.status = 0)))

/-! ## The mesh (05_mesh.md) -/

/-- Rests on R117, R145, R148, R151, R152, R154, R156, R162, R164, R165, R167, R168, Tables 5.9 and 5.11 (and R221,
R250, R442, R448): a router whose buffers are empty takes a packet in, counts flit errors, and grants its output by
the entry of its epoch and leg: to the next router's buffer, to the agent, or it answers for an unreachable
destination; a blocked output holds the packet unless the new tables lead on; a table word is written and
acknowledged; ARM sends marks when the tables are ready, COMMIT needs the counts at 0, RELEASE frees what is held; a
faulty router blocks its links, one whose agents are fenced leaves at COMMIT; fences and proxy sinks go on and off in
their order; the rewrites take effect; a broadcast is acknowledged agent by agent, and each router combines the counts
of its agents and children and sends one BACK to its parent; a request that is swept or times out ends with its TXID
stale. For what the spec leaves open see log entries 31, 32, 61, 62, 64, 125, 127. -/
def Obligations.MeshCommands : Prop :=
  ∀ (s : State) (r : RouterId) (p : Pkt) (e : FlitEnv) (a : Fin 8) (id : Nat),
    let d := p.dst.router
    let (out, leg) := s.routeOf r p.epoch p.leg d
    let e' := !s.flag (meshCtl r) 0
    let (out2, leg2) := s.routeOf r e' leg d
    let plain := (clsNo (opCls p.op) ≠ 5 ∨ s.anyOos = false) ∧ p.side.getLsbD 0 = false ∧ s.flag (meshCtl r) 2 = false ∧
      s.bufs = [] ∧ s.mayEnter p = true ∧ ∀ n, p.op ≠ .unlisted n
    let taken (t : State) : Prop := t.net = takeOut p s.net ∧
      { t with net := s.net, bufs := s.bufs, arrived := s.arrived, csr := s.csr, rrs := s.rrs } = s
    let ue (t : State) : Prop := t.fld (meshErr r) 31 16 = satN 16 (s.fld (meshErr r) 31 16 + 1)
    let dropped (t : State) : Prop := t.net = takeOut p s.net ∧ t.bufs = [] ∧ t.arrived = s.arrived ∧ t.mem = s.mem
    let gone (t : State) : Prop := t.net = (s.take p).net ∧ t.arrived = (s.take p).arrived ∧ t.mem = s.mem
    let kids (b : Bcast) := bcKids s.oosList b.root r
    let ready (b : Bcast) : Prop := (∀ x ∈ bcAgents r, bcNo x ∈ b.acked) ∧ ∀ x ∈ kids b, ∃ y ∈ b.backs, y.1 = x
    let combined (t : State) (b b' : Bcast) (net : List Pkt) : Prop := t.bcasts = [b'] ∧ b'.id = b.id ∧ b'.root = b.root ∧
      (¬ ready b' → b'.sent = b.sent ∧ t.net = net) ∧
      (ready b' → b'.sent = b.sent ++ [r.val] ∧ b'.done = decide (r.val = b.root) ∧ ∃ z, t.net = net ++ [z] ∧ z.op = .BACK ∧
        z.addr = (bcAgents r).length + (b'.backs.map (fun y => if (kids b).contains y.1 then y.2 else 0)).sum ∧
        (r.val ≠ b.root → z.dst = { router := bcParent s.oosList b.root 52 r, agent := 7 }) ∧
        (r.val = b.root → ∀ o, b.origin = some o → z.dst = physAgt (s.phys o)))
    let ag : Agt := { router := r, agent := a }
    let own (k : Nat) : Prop := k / 4096 = 8 * r.val + a.val
    (s.bufs = [] → s.mayEnter p = true →
      (s.flag (meshCtl r) 2 = true → ∃ t, exec (.packetAtRouter r p e) s = .next t ∧ dropped t) ∧
      (s.flag (meshCtl r) 2 = false → ∀ n, p.op = .unlisted n → ∃ t, exec (.packetAtRouter r p e) s = .next t ∧ ue t ∧ dropped t)) ∧
    (plain →
      (s.blocked r out = false →
        (∀ n, neighbour r out = some n →
          let goes (t : State) (q : Pkt) : Prop := taken t ∧ t.arrived = s.arrived ∧
            t.bufs = [{ router := n, input := opposite out, pkt := { q with leg := leg }, age := 0 }]
          (∃ t, exec (.packetAtRouter r p .clean) s = .next t ∧ goes t p) ∧
          (∃ t, exec (.packetAtRouter r p .corrected) s = .next t ∧ goes t p ∧
            t.fld (meshErr r) 15 0 = satN 16 (s.fld (meshErr r) 15 0 + 1)) ∧
          (∃ t, exec (.packetAtRouter r p .dataError) s = .next t ∧ goes t { p with poison := true } ∧ ue t)) ∧
        (out = 0 → d = r → ∃ t, exec (.packetAtRouter r p .clean) s = .next t ∧ taken t ∧ t.bufs = [] ∧
          t.arrived = s.arrived ++ [s.arrive { p with leg := leg }]) ∧
        (out = 5 → opIsReq p.op = true → opIsMark p.op = false → s.Open { router := r, agent := 7 } →
          ∃ t z, exec (.packetAtRouter r p .clean) s = .next t ∧ t.bufs = [] ∧ t.net = takeOut p s.net ++ [z] ∧ t.mem = s.mem ∧
            z.op = answerOp p.op ∧ z.dst = p.src ∧ z.txid = p.txid ∧ z.status = 3) ∧
        (out = 5 → clsNo (opCls p.op) = 4 → opIsMark p.op = false → ∃ t, exec (.packetAtRouter r p .clean) s = .next t ∧ ue t ∧ dropped t)) ∧
      (s.blocked r out = true → s.chg r d = true → s.blocked r out2 = false → ∀ n, neighbour r out2 = some n →
        ∃ t, exec (.packetAtRouter r p .clean) s = .next t ∧ taken t ∧
          t.bufs = [{ router := n, input := opposite out2, pkt := { p with leg := leg2, epoch := e' }, age := 0 }]) ∧
      (s.blocked r out = true → s.chg r d = false → ∃ t, exec (.packetAtRouter r p .clean) s = .next t ∧ taken t ∧
        t.bufs = [{ router := r, input := entryOf r p, pkt := p, age := 0 }]) ∧
      (∃ t, exec (.packetAtRouter r p .headerError) s = .next t ∧ ue t ∧ dropped t)) ∧
    (p.op = .RWRITE → p.dst.router = r → ∀ w : Fin 9, p.addr = routerBase r + 0x51800 + 8 * w →
      ∃ t, exec (.rwrite p) s = .next t ∧ t.rdCsr p.addr = BitVec.ofNat 64 p.data.toNat ∧
        (let u := s.take p; { t with csr := u.csr, net := u.net } = u) ∧ s.Answers t p (fun z => z.op = .RWACK ∧ z.dst = p.src ∧ z.txid = p.txid)) ∧
    (p.op = .RWRITE → ∀ (l : Bool) (w : Fin 36), p.addr = meshRt r (if s.flag (meshCtl r) 0 then 0 else 1) (if l then 1 else 0) w →
      s.bufs = [] → let v := BitVec.ofNat 64 p.data.toNat
      (∀ j, j < 16 → bitsN v (4 * j + 2) (4 * j) ≤ 5 ∧ (l = true → bitB v (4 * j + 3) = false)) →
      ∃ t, exec (.rwrite p) s = .next t ∧ t.rdCsr p.addr = v ∧ s.Answers t p (fun z => z.op = .RWACK)) ∧
    (p.op = .RWACK → (∀ w ∈ s.txwait, w.src ≠ p.dst) → ∃ t, exec (.rwack p) s = .next t ∧
      Map.get false t.outst (txKey p.dst p.txid) = false ∧ gone t) ∧
    (∀ c, p.op = .Mark c → s.markBehind p = false → ∃ t, exec (.mark p) s = .next t ∧
      (let u := s.take p; { t with net := u.net } = u) ∧
      s.Answers t p (fun z => z.op = .MARK_ACK ∧ z.src = p.dst ∧ z.dst = p.src ∧ z.txid = p.txid)) ∧
    (p.op = .MARK_ACK → let port := 2 * p.dst.router + portOfAgt p.dst
      let n := Map.get 0 s.marks (8 * port + p.addr)
      ∃ t, exec (.markAck p) s = .next t ∧ Map.get 0 t.marks (8 * port + p.addr) = n - 1 ∧ t.mem = s.mem ∧
        (1 < n → t.held = s.held ∧ t.net = (s.take p).net) ∧
        (n = 1 → ∀ x ∈ s.held, x.1 = port → clsNo (opCls x.2.op) = p.addr → x ∉ t.held ∧
          { x.2 with epoch := !s.flag (meshCtl (x.1 / 2)) 0 } ∈ t.net)) ∧
    (p.op = .BACK → p.dst.agent ≠ 7 → ∀ b, s.bcasts.find? (fun b => decide (b.id = p.data.toNat) && b.done) = some b →
      ∃ t, exec (.back p) s = .next t ∧ (∀ x ∈ t.bcasts, x.id ≠ p.data.toNat) ∧ gone t ∧
        ∀ c, b.origin = some c → p.data.toNat ∉ (t.core c).bcasts) ∧
    (p.op = .BACK → p.dst = { router := r, agent := 7 } → s.flag (meshCtl r) 2 = false → ∀ b : Bcast, s.bcasts = [b] →
      b.id = p.data.toNat → b.sent.contains r.val = false → (∀ x ∈ b.backs, x.1 ≠ p.src.router) →
      ∃ t b', exec (.back p) s = .next t ∧ b'.backs = b.backs ++ [(p.src.router, p.addr)] ∧
        b'.acked = b.acked ∧ t.mem = s.mem ∧ combined t b b' (s.take p).net) ∧
    (s.flag (meshCtl 0) 1 = true ∨ s.tablesReady = false → exec .arm s = .next s) ∧
    (s.flag (meshCtl 0) 1 = false → s.tablesReady = true → ∃ t, exec .arm s = .next t ∧ t.mem = s.mem ∧
      ∀ x, x < 576 → t.flag (meshCtl x) 1 = true ∧ ∀ port ∈ portsOf x, ∀ c : Fin 5,
        Map.get 0 t.marks ((2 * x + port) * 8 + c) = (s.changed x).length) ∧
    (s.flag (meshCtl 0) 1 = true → s.oldCount = 0 → s.leaving = [] → ∃ t, exec .commit s = .next t ∧ { t with csr := s.csr } = s ∧
      ∀ x, x < 576 → t.flag (meshCtl x) 1 = false ∧ t.flag (meshCtl x) 0 = !s.flag (meshCtl x) 0) ∧
    (s.flag (meshCtl 0) 1 = true → s.oldCount = 0 → ∃ t, exec .commit s = .next t ∧ t.leaving = [] ∧
      ∀ x ∈ s.leaving, t.flag (meshCtl x) 2 = true) ∧
    (s.flag (meshCtl 0) 1 = false ∨ s.oldCount ≠ 0 → exec .commit s = .next s) ∧
    (∃ t, exec .release s = .next t ∧ t.held = [] ∧ t.net.length = s.net.length + s.held.length ∧ t.mem = s.mem ∧
      t.marks = [] ∧ ∀ x, x < 576 → t.flag (meshErr x) 32 = true) ∧
    (s.bcasts = [] → ∃ t z, exec (.countQuery id) s = .next t ∧ t.net = s.net ++ [z] ∧ z.op = .BACK ∧ z.dst = s.dseA ∧
      z.addr = s.oldCount ∧ { t with net := s.net } = s) ∧
    (s.flag (meshCtl r) 2 = false → (∃ x ∈ agentsOf r, s.fenced x = false) →
      ∃ t, exec (.routerOutOfService r) s = .next t ∧ t.flag (meshCtl r) 2 = true ∧
        (∀ i n, neighbour r i = some n → t.flag (meshCtl n) (2 + opposite i) = true) ∧ t.net = s.net ∧
        t.bufs = s.bufs.filter (fun b => decide (b.router ≠ r.val)) ∧ t.mem = s.mem) ∧
    (s.flag (meshCtl r) 2 = false → (∀ x ∈ agentsOf r, s.fenced x = true) →
      ∃ t, exec (.routerOutOfService r) s = .next t ∧ r.val ∈ t.leaving ∧ { t with leaving := s.leaving } = s) ∧
    (∃ t, exec (.meshFence r a) s = .next t ∧ t.fenced ag = true ∧ { t with csr := s.csr } = s) ∧
    (s.fenced ag = true → s.proxied ag = false → ∃ t, exec (.meshProxySet r a) s = .next t ∧ t.proxied ag = true ∧
      t.mem = s.mem ∧ (∀ k, own k → Map.get false t.outst k = false) ∧
      ∀ x ∈ s.outst, own x.1 → Map.get false t.stale x.1 = true) ∧
    (s.fenced ag = false → s.proxied ag = false → ∃ t, exec (.meshProxySet r a) s = .next t ∧ t.proxied ag = false ∧ t.csr = s.csr) ∧
    (∃ t, exec (.meshProxyClear r a) s = .next t ∧ t.proxied ag = false ∧ { t with csr := s.csr } = s) ∧
    (s.proxied ag = false → ∃ t, exec (.meshFenceClear r a) s = .next t ∧ t.fenced ag = false ∧ { t with csr := s.csr } = s) ∧
    (s.fenced ag = true → s.proxied ag = true → ∃ t, exec (.meshFenceClear r a) s = .next t ∧ t.csr = s.csr) ∧
    (∀ (i : Fin 16) (x y : TileId) (v : Bool), ∃ t, exec (.l3RedirRewrite i x y v) s = .next t ∧ { t with csr := s.csr } = s ∧
      let w := t.rdCsr (tileBase 0 + 0x40200 + 8 * i)
      bitsN w 9 0 = x ∧ bitsN w 19 10 = y ∧ bitB w 20 = v) ∧
    (∀ h ch : HomeId, s.coord.evac = none → s.evacNotReady h ch = false → s.homeReturns h ch = false →
      ∃ t, exec (.homemapRewrite h ch) s = .next t ∧ t.hostCh h = ch ∧ { t with csr := s.csr } = s ∧ ∀ g, g ≠ h.val → t.hostCh g = s.hostCh g) ∧
    (∀ (n : CoreId) (phys : Fin 1088) (st : Fin 4), s.lcState n ≠ 2 → ∃ t, exec (.lcmapRewrite n phys st) s = .next t ∧
      t.phys n = phys ∧ t.lcState n = st ∧ { t with csr := s.csr } = s ∧ ∀ k, k ≠ n.val → t.phys k = s.phys k) ∧
    (∀ (n : CoreId) (phys : Fin 1088), s.lcState n = 2 → ∃ t, exec (.lcmapRewrite n phys 1) s = .next t ∧
      t.phys n = phys ∧ t.lcState n = 1 ∧ (t.core n).heldMsi = []) ∧
    (∀ (b : Bcast) (c : Fin 1088), s.bcasts = [b] → b.done = false → c.val ∉ b.acked → r.val = routerOfTile (c / 2) →
      s.flag (meshCtl r) 2 = false → s.proxied (physAgt c) = false → s.coreOfPhys c < 1024 → b.sent.contains r.val = false →
      ∃ t b', exec (.tlbInvalidationBcast b.id (.core c)) s = .next t ∧ b'.acked = b.acked ++ [c.val] ∧
        b'.backs = b.backs ∧ t.mem = s.mem ∧ (let n := s.coreOfPhys c
         let k := (s.core n).bcRemove b.op
         { t.core n with sbuf := k.sbuf, far := k.far } = k ∧ (t.core n).sbuf = k.sbuf.map (fun x => x.markFor (s.core n) k b.id) ∧
         (t.core n).far = k.far.map (fun x => x.markFor (s.core n).vf (s.core n) k b.id)) ∧
        combined t b b' s.net) ∧
    (∀ q : Pkt, s.reqs = [(txKey q.src q.txid, some q)] → s.dir = [] → isL2 q.src = true → q.op = .RdS → (∀ w ∈ s.txwait, w.src ≠ q.src) →
      let l := q.addr / 64
      let x := s.l2line (agtPhys q.src) l
      x.st = .I →
      let ends (t : State) : Prop := t.l2line (agtPhys q.src) l =
          { x with miss := none, pf := false, err := if x.pf then x.err else 4, l1 := none } ∧ t.mem = s.mem ∧
        Map.get false t.outst (txKey q.src q.txid) = false ∧ Map.get false t.stale (txKey q.src q.txid) = true
      let since := Map.get 0 s.reqAt (txKey q.src q.txid)
      (s.swept q.src.router q.dst.router = true → since < s.sweepAt → ∃ t, exec .sweep s = .next t ∧ ends t) ∧
      (s.swept q.src.router q.dst.router = false ∨ s.sweepAt ≤ since → exec .sweep s = .next s) ∧
      (s.ctime.toNat < since + s.fld (rasBase + 8) 17 10 * 1000000 → exec (.requestTimeout q) s = .next s) ∧
      (since + s.fld (rasBase + 8) 17 10 * 1000000 ≤ s.ctime.toNat → ∃ t f, exec (.requestTimeout q) s = .next t ∧ ends t ∧ t.reports = s.reports ++ [f] ∧ f.sev = 3 ∧
        (f.unit, f.index) = State.timeoutUnit q.dst))

/-! ## I/O translation and ports (08_translation.md, 11_ports_and_endpoints.md) -/

/-- Rests on R254 to R259, R308 to R312, R314 to R321, R331, R334 to R338, R398, R461, R462, Tables 8.8, 11.4 and
11.12: a device request is performed, refused with Unsupported Request, or waits for its walk, which fills the I/O TLB
or leaves a fault record; a link trains, goes down, recovers and is disabled by DPC; a response, a completion or a
timeout ends its request and frees or quarantines its tag; slot power, presence and the hot-plug frame change a port;
a peer window takes effect. For what the spec leaves open see log entries 27, 28, 72, 73, 77 to 82. -/
def Obligations.TranslationAndPorts : Prop :=
  ∀ (s : State) (r : Inbound) (p : PortId) (e : TrainEnv) (value : Word) (q : Requester),
    let rp := r.port.val
    let d := rp / 32
    let va := r.addr.toNat
    let open' := s.portMode rp = 2 ∧ (s.portLink rp = 2 ∨ s.portLink rp = 3) ∧ r.ep = false ∧
      s.flag (meshCtl (routerOfStop d 14)) 2 = false
    let untagged (s : State) : Prop := s.flag (routerBase (portAgt r.port).router + 0x70100) 0 = false
    let taken := r.pfx = false ∧ r.atf = 0 ∧ (∀ op x c, r.kind ≠ .atomic op x c true) ∧ (s.cfgw rp 0x04).getLsbD 2 = true
    let completed (t : State) (st v : Nat) : Prop :=
      (t.port rp).sent = (s.port rp).sent ++ [[2, r.rid.toNat, r.tag.toNat, st, v]]
    let x := s.port p
    let link := prtBase p + 8
    let answered (t : State) (rq : Pkt) (st : Nat) : Prop := ∃ z, t.net = s.net ++ [z] ∧ z.dst = rq.src ∧ z.txid = rq.txid ∧
      z.op = answerOp rq.op ∧ z.status = st
    (s.portMode rp ≠ 2 ∨ s.portLink rp ≠ 2 ∧ s.portLink rp ≠ 3 → exec (.inboundRequest r) s = .next s) ∧
    (open' → (s.iot d).waits = [] → ¬ taken → (r.kind = .read ∨ ∃ op c y w, r.kind = .atomic op c y w) →
      ∃ t, exec (.inboundRequest r) s = .next t ∧ completed t 1 0) ∧
    (open' → untagged s → (s.iot d).waits = [] → taken → s.flag (iotBase d) 0 = false → inSysMem va = true →
      (∀ v, r.kind = .read → s.dmaRead va r.len = (0, v) → ∃ t, exec (.inboundRequest r) s = .next t ∧ completed t 0 v ∧
        t.mem = s.mem) ∧
      (r.kind = .write → 0 < r.len → r.bytes.length = r.len → va % 64 + r.len ≤ 64 → s.dmaStatus (va / 64) = 0 →
        s.heldBy 1088 (va / 64) = false →
        ∃ t, exec (.inboundRequest r) s = .next t ∧ t.mem = (s.wrCells (inCells va r.bytes)).mem ∧
          (let d := s.dline (va / 64)
           d.way ≠ .none → d.busy = none → d.held = [] → d.evb = none → d.st = .U → (s.freeTx (portAgt r.port)).isSome = true →
            t.net = s.net))) ∧
    (∀ c cx, open' → taken → s.flag (iotBase d) 0 = true → s.flag (iotBase d + 0x100 + 8 * (rp % 32 / 4)) 0 = true → (s.iot d).ctx.find? (fun c => decide (c.1 = rp % 32 / 4 ∧ c.2.1 = r.rid.toNat)) =
        some c → ctxOf c.2.2 = some cx → cx.pass = false → (s.iot d).tlb = [] → (∀ o, region va ≠ .intWin o) →
      ((s.iot d).waits = [] → ∃ t, exec (.inboundRequest r) s = .next t ∧ (t.iot d).waits = [r] ∧ (t.iot d).tlb = [] ∧
        t.mem = s.mem) ∧
      (∀ die : IoDie, die.val = d → (s.iot d).waits = [r] →
        (∀ b, (s.engEv d 7 256 4).ioXlate d cx va r.acc = .error b → ∃ t, exec (.ioWalkDone die 0) s = .next t ∧
          (t.iot d).waits = [] ∧ t.fld (iotBase d + 0x300) 3 0 = (s.fld (iotBase d + 0x300) 3 0 + 1) % 16) ∧
        (∀ pa u v, (s.engEv d 7 256 4).ioXlate d cx va r.acc = .ok (pa, u) → untagged u → inSysMem pa = true → r.kind = .read →
          u.dmaRead pa r.len = (0, v) → ∃ t, exec (.ioWalkDone die 0) s = .next t ∧ (t.iot d).waits = [] ∧ completed t 0 v ∧
            (t.iot d).tlb = (u.iot d).tlb ∧ t.mem = u.mem))) ∧
    (∀ die : IoDie, s.csrAccepts (iotBase die + 0x200) true q = true → bitB value 20 = true →
      ∃ t, exec (.iotCtxinv die value q) s = .next t ∧ (t.iot die).tlb = (s.iot die).tlb ∧
        ∀ c, c ∈ (t.iot die).ctx ↔ c ∈ (s.iot die).ctx ∧ bitB value 19 = false ∧
          ¬ (c.1 = bitsN value 18 16 ∧ c.2.1 = bitsN value 15 0)) ∧
    (s.portLink p = 1 →
      (s.trainOk p e = true → x.adding = false → ∃ t, exec (.linkTrained p e) s = .next t ∧ t.portLink p = 2 ∧
        t.fld link 6 4 = e.speed ∧ t.fld link 10 7 = (s.lanesLeft p e).width) ∧
      (s.trainOk p e = true → x.adding = true → s.portMode p = 1 → ∃ t, exec (.linkTrained p e) s = .next t ∧
        (t.port p).adding = false ∧ t.layout.portFrames p = capFrames e.capacity) ∧
      (s.trainOk p e = false → ∃ t, exec (.linkTrained p e) s = .next t ∧ t.portLink p = 5 ∧ (t.port p).out = [])) ∧
    (1 ≤ s.portLink p → s.portLink p ≤ 3 → s.portMode p ≠ 2 ∨ s.flag (prtBase p) 7 = true →
      ∃ t, exec (.linkDown p) s = .next t ∧ t.portLink p = 0 ∧ (t.port p).out = [] ∧ (t.port p).wait = []) ∧
    (s.portLink p = 2 ∨ s.portLink p = 3 → p.val ∉ (s.toll (8 + p.val / 32)).slots → ∃ t, exec (.linkRecovery p) s = .next t ∧
      t.portLink p = 2 ∧ t.fld link 6 4 = s.fld link 6 4 ∧ t.fld link 36 21 = satN 16 (s.fld link 36 21 + 1)) ∧
    (∀ tag : BitVec 12, ∀ rq, s.portMode p = 1 → tag.toNat ∉ x.quar → x.pick tag.toNat = some rq → x.wait = [] →
      rq.pkt.op = .PRd → s.Open rq.pkt.dst →
      (∃ t z, exec (.cxlResponse p tag ⟨false, []⟩) s = .next t ∧ (t.port p).out = (x.drop tag.toNat).out ∧
        t.net = s.net ++ [z] ∧ z.op = .Data ∧ z.dst = rq.pkt.src ∧ z.status = 0 ∧ z.data = s.rdLine rq.pkt.line ∧
        z.poison = (decide (rq.pkt.detail = 0 ∨ rq.pkt.detail = 5) && s.poisoned rq.pkt.line)) ∧
      (∃ t, exec (.memTimeout p tag) s = .next t ∧ answered t rq.pkt 4 ∧ tag.toNat ∈ (t.port p).quar ∧
        (t.port p).out = (x.drop tag.toNat).out ∧ t.mem = s.mem)) ∧
    (∀ tag rq, s.portMode p = 2 → tag ∉ x.quar → x.pick tag = some rq → x.wait = [] → rq.carry = none →
      rq.pkt.op = .SeRd → s.Open rq.pkt.dst →
      (∃ t, exec (.completionReceived p tag ⟨.sc, false⟩) s = .next t ∧ answered t rq.pkt 0 ∧
        (t.port p).out = (x.drop tag).out) ∧
      (∃ t, exec (.completionReceived p tag ⟨.ur, false⟩) s = .next t ∧ answered t rq.pkt 5 ∧
        (t.port p).out = (x.drop tag).out) ∧
      (∃ t, exec (.cplTimeout p tag) s = .next t ∧ answered t rq.pkt 4 ∧ tag ∈ (t.port p).quar) ∧
      (rq.cfg = true → ∃ t, exec (.rrsExhausted p tag) s = .next t ∧ answered t rq.pkt 5 ∧
        (t.port p).out = (x.drop tag).out)) ∧
    (∀ tag, s.portMode p = 2 → tag ∉ x.quar → x.pick tag = none → ∃ t, exec (.completionReceived p tag ⟨.sc, false⟩) s = .next t ∧
      t.fld (prtBase p + 0xF8) 3 0 = (s.fld (prtBase p + 0xF8) 3 0 + 1) % 16 ∧ t.net = s.net) ∧
    (s.portMode p = 2 → s.portLink p ≠ 4 → (s.cfgw p 0x1C4).toNat / 2 ^ 16 % 4 = 1 →
      (∃ t, exec (.dpcTrigger p true) s = .next t ∧ t.portLink p = 4 ∧ (t.cfgw p 0x1C8).getLsbD 0 = true ∧ (t.port p).out = []) ∧
      exec (.dpcTrigger p false) s = .next s) ∧
    (s.portLink p = 4 → ∃ t, exec (.dpcClear p) s = .next t ∧ t.portLink p = 1 ∧ (t.cfgw p 0x1C8).getLsbD 0 = false ∧
      { t with csr := s.csr, cfg := s.cfg } = s) ∧
    (s.portMode p ≠ 0 → x.power = false → ∃ t, exec (.slotPowerOn p) s = .next t ∧
      t.port p = { x with power := true, perst := true, powerAt := s.ctime.toNat } ∧ { t with ports := s.ports, cfg := s.cfg } = s) ∧
    (x.power = true → x.perst = true →
      (x.powerAt + 100000000 ≤ s.ctime.toNat → ∃ t, exec (.perstDeassert p) s = .next t ∧ t.port p = { x with perst := false } ∧
        t.portLink p = 1) ∧
      (s.ctime.toNat < x.powerAt + 100000000 → exec (.perstDeassert p) s = .next s)) ∧
    (x.power = true →
      (s.portMode p ≠ 1 ∨ s.counted p = false → ∃ t, exec (.slotPowerOff p) s = .next t ∧ (t.port p).power = false ∧
        (t.port p).perst = true ∧ (s.portLink p ≠ 5 → t.portLink p = 0)) ∧
      (s.portMode p = 1 → s.counted p = true → exec (.slotPowerOff p) s = .next s)) ∧
    (s.portMode p = 1 → ∀ here, x.present ≠ here → ∃ t, exec (.presenceChange p here) s = .next t ∧ (t.port p).present = here ∧
      (here = false → x.power = true → 1 ≤ s.portLink p → s.portLink p ≤ 3 → t.portLink p = 0)) ∧
    (∀ die : IoDie, ∃ t, exec (.hotplugFrame die []) s = .next t ∧
      ∀ j, j < 32 → (t.port (32 * die.val + j)).btn = 0 ∧ (t.port (32 * die.val + j)).flt = 0) ∧
    (let k := 8 + p.val / 32
     (s.toll k).slotQ.head? = some p.val → (s.toll k).slots.length < 8 → ∃ t, exec (.transitionSlotGrant p) s = .next t ∧
      t.toll k = { s.toll k with slotQ := (s.toll k).slotQ.tail, slots := (s.toll k).slots ++ [p.val] } ∧
      { t with tolls := s.tolls } = s) ∧
    (∀ w : Fin 8, let a := portBase p + 0x20000 + 0x200 * (p.val % 4) + 0x20 * w.val
      let m := s.winOf a value
      s.csrAccepts a true q = true → bitB value 1 = false →
      (bitB value 0 = true → s.winBad p w m = false → ∃ t, exec (.peerWindowWrite p w value q) s = .next t ∧
        Map.get none (t.port p).wins w = some m ∧ t.mem = s.mem) ∧
      (bitB value 0 = false → ∃ t, exec (.peerWindowWrite p w value q) s = .next t ∧
        Map.get none (t.port p).wins w = none ∧ t.mem = s.mem))

/-! ## Data engines (11_ports_and_endpoints.md, 12_data_engine.md) -/

/-- Rests on R340, R344, R346 to R349, R351, R352, R364 to R366, R368, Tables 12.1, 12.4 and 12.5: a doorbell moves a
ring's index; the slot at the head is consumed when its PHASE matches; a free unit takes the job of the instance with
the highest budget; the operations do their bytes and end with a status; a job whose share is 0 is suspended; the end
of a job sets LAST and holds its record, which a ring with room takes; a round, at each multiple of 64,000 of ctime,
gives every instance its next share; an idle unit returns its grant. For what the spec leaves open see log entries 83
to 86. -/
def Obligations.EngineJobs : Prop :=
  ∀ (s : State) (d : IoDie) (n : InstId) (u : UnitId) (value : Word) (q : Requester),
    let b := dbA d n
    let st := s.instSt d n
    let x := s.inst d n
    let un := (s.eng d).unit u
    let c := unitClass u
    let size := 2 ^ bitsN (x.arg 3) 4 0
    let nextRound := ((s.eng d).roundAt / 64000 + 1) * 64000
    let head := s.fld (b + 0x18) 20 5
    let ends (t : State) (j : Job) (status src dst check detail : Nat) : Prop := ∃ j', ((t.eng d).unit u).job = some j' ∧
      j'.inst = j.inst ∧ j'.desc = j.desc ∧ j'.slot = j.slot ∧
      j'.res = some { status := status, srcUsed := src, dstUsed := dst, check := check, detail := detail }
    (s.csrAccepts b true q = true → st ≠ 0 → st ≠ 5 →
      (badTail size (s.rdCsr b).toNat head (bitsN value 15 0) = false →
        (st ≠ 2 → st ≠ 3 → ∃ t, exec (.dbSqTail d n value q) s = .next t ∧ t.fld b 15 0 = bitsN value 15 0 ∧
          { t with csr := s.csr, engs := s.engs } = s) ∧
        (st = 2 → ∃ t, exec (.dbSqTail d n value q) s = .next t ∧ t.rdCsr b = s.rdCsr b ∧ { t with csr := s.csr } = s)) ∧
      (badTail size (s.rdCsr b).toNat head (bitsN value 15 0) = true → ∃ t, exec (.dbSqTail d n value q) s = .next t ∧
        { t with rej := s.rej } = s)) ∧
    (s.csrAccepts (b + 8) true q = true → st = 1 → x.held = [] →
      badHead (2 ^ bitsN (x.arg 4) 4 0) (s.fld (b + 0x18) 37 22) (s.rdCsr (b + 8)).toNat (bitsN value 15 0) = false →
      ∃ t, exec (.dbCqHead d n value q) s = .next t ∧ t.fld (b + 8) 15 0 = bitsN value 15 0 ∧
        { t with csr := s.csr, engs := s.engs } = s) ∧
    (∀ (v : State) (bs : List Byte) (err : Option (Nat × Nat)), s.engOn d = true → st = 1 → x.stop = false →
      head ≠ s.fld b 15 0 → s.inFlight d n < bitsN (x.arg 6) 21 19 → bitsN (x.arg 3) 4 0 ≤ 16 →
      s.engRead d n [{ stg := false, addr := s.slotVa d n, len := 64 }] 0 64 = (bs, err, v) →
      ∀ i ∈ [Instr.descriptorRead d n, .descriptorRetry d n], (i = .descriptorRead d n ↔ x.mis = false) →
      let desc := (List.range 8).map (fun k => BitVec.ofNat 64 (numOf ((bs.drop (8 * k)).take 8)))
      (err = none → bitB (desc.headD 0) 0 = s.flag (b + 0x18) 21 → ∃ t, exec i s = .next t ∧
        (t.inst d n).ready = (v.inst d n).ready ++
          [{ inst := n, slot := head, desc := desc, pos := 0, check := 0, passed := 0, res := none }] ∧
        (t.inst d n).mis = false ∧ t.fld (b + 0x18) 20 5 = (head + 1) % size ∧
        t.flag (b + 0x18) 21 = (if head + 1 = size then !s.flag (b + 0x18) 21 else s.flag (b + 0x18) 21) ∧ t.mem = v.mem) ∧
      (err = none → bitB (desc.headD 0) 0 ≠ s.flag (b + 0x18) 21 → ∃ t, exec i s = .next t ∧
        (t.inst d n).ready = (v.inst d n).ready ∧ (t.inst d n).mis = true ∧ t.csr = v.csr ∧ t.mem = v.mem) ∧
      (∀ e, err = some e → (v.cfgw (64 + d) 0x48).getLsbD 31 = false → ∃ t, exec i s = .next t ∧
        (t.inst d n).stop = true ∧ t.fld (b + 0x18) 46 39 = e.1 % 256 ∧ t.mem = v.mem)) ∧
    (∀ (m : Nat) (j : Job), un.job = none → un.retired = false → s.testing 0x28 (32 * d + u) = false → s.engOn d = true →
      s.pickInst d c = some m → s.nextJob d m c = some (j, false) → s.fenced { router := routerOfStop d 14, agent := 0 } = false →
      (j.bad = none → ∃ t, exec (.dispatch d u) s = .next t ∧ ((t.eng d).unit u).job = some j ∧
        (t.inst d m).ready = (s.inst d m).ready.tail ∧ t.mem = s.mem ∧
        ((∀ y ∈ (s.toll (8 + d)).queue ++ (s.toll (8 + d)).held, y.1 ≠ .unit d u) → un.grant = false →
          (t.toll (8 + d)).queue = (s.toll (8 + d)).queue ++ [(.unit d u, s.ctime.toNat)])) ∧
      (∀ w, j.bad = some w → ∃ t, exec (.dispatch d u) s = .next t ∧ ends t j 4 0 0 0 w ∧ t.mem = s.mem)) ∧
    (s.pickInst d c = none → exec (.dispatch d u) s = .next s) ∧
    (∀ j, un.job = some j → j.res = none →
      (s.fld (shareA d j.inst) 7 0 = 0 → ∃ t, exec (.blockBoundary d u) s = .next t ∧ ((t.eng d).unit u).job = none ∧
        (t.inst d j.inst).susp = (s.inst d j.inst).susp ++ [j] ∧ { t with csr := s.csr, engs := s.engs } = s) ∧
      (s.fld (shareA d j.inst) 7 0 ≠ 0 → 0 < (s.inst d j.inst).budget j.cls → exec (.blockBoundary d u) s = .next s)) ∧
    (∀ j src dst v, s.operands d j = (.ok (src, dst), v) →
      (∀ k w, s.running d u 1 = some j →
        let len := min 65536 (extLen dst - j.pos)
        let bs := (List.range len).map (fun i => (bytesOf (j.w 1).toNat 8).getD ((j.pos + i) % 8) 0)
        v.engWrite d j.inst dst j.pos bs = (k, none, w) →
        (j.pos + k = extLen dst → ∃ t, exec (.fill d u) s = .next t ∧ t.mem = w.mem ∧
          ends t j 0 0 (extLen dst) (crc32c j.check (bs.take k)) 0) ∧
        (j.pos + k ≠ extLen dst → ∃ t, exec (.fill d u) s = .next t ∧ t.mem = w.mem ∧
          ((t.eng d).unit u).job = some { j with pos := j.pos + k, check := crc32c j.check (bs.take k) })) ∧
      (∀ e e' bs v1, src = [e] → dst = [e'] → e'.len = e.len → 0 < e.len → e.addr % 64 + e.len ≤ 64 → e'.addr % 64 + e.len ≤ 64 →
        j.pos = 0 → j.check = 0 → j.passed = 0 → bs.length = e.len →
        (s.running d u 0 = some j →
          (∀ v2, v.engRd d j.inst e = (.ok (bs, false), v1) → v1.engWr d j.inst e' bs false = (none, v2) →
            ∃ t, exec (.copy d u) s = .next t ∧ t.mem = v2.mem ∧ ends t j 0 e.len e.len (crc32c 0 bs) 0) ∧
          (v.engRd d j.inst e = (.ok (bs, true), v1) → bitB (j.w 0) 26 = false →
            ∃ t, exec (.copy d u) s = .next t ∧ t.mem = v1.mem ∧ ends t j 9 0 0 0 0)) ∧
        (∀ bs' v2, s.running d u 2 = some j → v.engRd d j.inst e = (.ok (bs, false), v1) →
          v1.engRd d j.inst e' = (.ok (bs', false), v2) → bs'.length = e.len →
          (bs = bs' → ∃ t, exec (.compare d u) s = .next t ∧ t.mem = v2.mem ∧ ends t j 0 e.len 0 (crc32c 0 bs) 0) ∧
          (bs ≠ bs' → ∃ t k, exec (.compare d u) s = .next t ∧ t.mem = v2.mem ∧ k < e.len ∧ bs.take k = bs'.take k ∧
            bs[k]? ≠ bs'[k]? ∧ ends t j 3 k 0 (crc32c 0 (bs.take k)) k))) ∧
      (∀ bs v1 v2, j.fmt = 4 → j.ctx = 0 → bitB (j.w 0) 17 = false → v.engRead d j.inst src 0 (extLen src) = (bs, none, v1) →
        let r := chiveRun j bs (extLen dst) 0
        v1.bump.engWrite d j.inst dst 0 r.out = (r.out.length, none, v2) →
        (s.running d u 3 = some j → bitB (j.w 0) 18 = true → ∃ t, exec (.compress d u) s = .next t ∧ t.mem = v2.mem ∧
          ends t j r.status r.used r.out.length r.check r.detail) ∧
        (s.running d u 4 = some j → ∃ t, exec (.decompress d u) s = .next t ∧ t.mem = v2.mem ∧
          ends t j r.status r.used r.out.length r.check r.detail))) ∧
    (∀ j e v op i, (op, i) ∈ [(0, Instr.copy d u), (1, .fill d u), (2, .compare d u), (3, .compress d u), (4, .decompress d u)] →
      (s.running d u op = some j → s.operands d j = (.error e, v) → ∃ t, exec i s = .next t ∧ t.mem = v.mem ∧
        ends t j e.1 j.srcDone j.dstDone j.check e.2) ∧
      (s.running d u op = none → exec i s = .next s)) ∧
    (∀ j r, un.job = some j → j.res = some r → s.engOn d = false → s.instSt d j.inst ≠ 2 → r.status < 256 →
      ∃ t, exec (.jobEnd d u) s = .next t ∧ (t.eng d).unit u = { un with job := none, slow := false, idleAt := s.ctime.toNat } ∧
        (t.inst d j.inst).held = (s.inst d j.inst).held ++ [jobRec j r s.ctime] ∧
        (j.inst = n → t.fld (b + 0x18) 46 39 = r.status) ∧ { t with csr := s.csr, engs := s.engs } = s) ∧
    (∀ j, un.job = some j → j.res = none → exec (.jobEnd d u) s = .next s) ∧
    (∀ rec pa v w, let tail := s.fld (b + 0x18) 37 22
      let va := bitsN (x.arg 4) 63 12 * 2 ^ 12 + 32 * tail
      s.engOn d = true → (tail + 1) % 2 ^ bitsN (x.arg 4) 4 0 ≠ s.fld (b + 8) 15 0 → bitsN (x.arg 4) 4 0 ≤ 16 →
      rec.getD 4 0 = 0 → s.instXlate d n va 2 = .ok (pa, v) → inSysMem pa = true →
      v.dmaWrite (engAgt d) pa (wordsLine [putB (rec.getD 0 0) 0 (s.flag (b + 0x18) 38), rec.getD 1 0, rec.getD 2 0, rec.getD 3 0]) 32 = (0, w) →
      ∃ t, s.putRec d n rec = (true, t) ∧ t.mem = w.mem ∧ t.fld (b + 0x18) 37 22 = (tail + 1) % 2 ^ bitsN (x.arg 4) 4 0) ∧
    (s.ctime.toNat < nextRound → exec (.roundStart d) s = .next s) ∧
    (nextRound ≤ s.ctime.toNat → ∃ t, exec (.roundStart d) s = .next t ∧ { t with csr := s.csr, engs := s.engs } = s ∧
      (t.eng d).roundAt = nextRound ∧
      t.rdCsr (engBase d + 0x800008) = s.rdCsr (engBase d + 0x800008) + 1 ∧
      (st ≠ 0 → t.fld (shareA d n) 7 0 = s.fld (shareA d n) 15 8 ∧ t.fld (shareA d n) 15 8 = s.fld (shareA d n) 15 8) ∧
      (st ≠ 0 → s.fld (shareA d n) 15 8 = 0 → ∀ k, k < 4 → (t.inst d n).budget k = min (x.budget k) 0)) ∧
    (un.job = none → un.grant = true →
      (un.idleAt + 10000 ≤ s.ctime.toNat → ∃ t, exec (.unitIdle d u) s = .next t ∧ (t.eng d).unit u = { un with grant := false } ∧
        (∀ y ∈ (t.toll (8 + d)).held, y.1 ≠ .unit d u) ∧ t.mem = s.mem) ∧
      (s.ctime.toNat < un.idleAt + 10000 → exec (.unitIdle d u) s = .next s))

/-- Rests on R328 to R330, R367, R369 to R371, Tables 11.10, 12.7 to 12.10: a mailbox command that runs ends with its
result and GO = 0, and with BAD_STATE, BAD_ARG or NO_STAGING changes nothing else: CREATE makes an instance ACTIVE
with its arguments and its granules, DESTROY makes it UNUSED, SET_SHARE sets the next share, RESET drains or squashes,
FREEZE suspends the jobs, SAVE writes the image, RESTORE takes it, QUERY reads the arguments. A function that may not
issue requests ends its jobs with BUS_MASTER_OFF; a function reset ends every instance and is done when no transfer is
outstanding. The layout of the image is the model's choice: log entry 87. -/
def Obligations.MailboxAndFunctionReset : Prop :=
  ∀ (s : State) (d : IoDie) (n : InstId),
    let b := dbA d n
    let mb := mbxA d
    let fn := 64 + d.val
    let st := s.instSt d n
    let x := s.inst d n
    let a0 := (s.mbxArg d 0).toNat
    let flr := (s.cfgw fn 0x68).getLsbD 21
    let quiet := s.flag (mb + 0x50) 11 = false
    let runs (op : Nat) : Prop := s.flag mb 16 = true ∧ s.fld mb 7 0 = op ∧ s.fld mb 15 8 = n ∧ flr = false
    let ends (t : State) (res : Nat) : Prop := t.fld (mb + 0x48) 2 0 = res ∧ t.flag mb 16 = false
    let onlyCsr (t : State) : Prop := { t with csr := s.csr } = s
    let noJobs := ∀ v j, v < 18 → ((s.eng d).unit v).job = some j → j.inst ≠ n
    (quiet →
      (∀ op i, (op, i) ∈ [(1, Instr.create d n), (3, .setShare d n), (5, .freeze d n), (6, .unfreeze d n), (7, .save d n),
          (8, .restore d n)] → runs op →
        ¬ (((op = 1 ∨ op = 8) ∧ st = 0) ∨ (op = 3 ∧ (st = 1 ∨ st = 4)) ∨ (op = 5 ∧ st = 1) ∨ ((op = 6 ∨ op = 7) ∧ st = 4)) →
        ∃ t, exec i s = .next t ∧ ends t 2 ∧ onlyCsr t) ∧
      (let a := (List.range 7).map (fun i => s.mbxArg d i)
       let g := bitsN (s.mbxArg d 6) 30 22
       let m := bitsN (s.mbxArg d 6) 40 31
       runs 1 → st = 0 →
        (argsOk a = false → ∃ t, exec (.create d n) s = .next t ∧ ends t 3 ∧ onlyCsr t) ∧
        (argsOk a = true → s.stgFree d (n + 1) g m = false → ∃ t, exec (.create d n) s = .next t ∧ ends t 4 ∧ onlyCsr t) ∧
        (argsOk a = true → s.stgFree d (n + 1) g m = true → ∃ t, exec (.create d n) s = .next t ∧ ends t 0 ∧
          t.instSt d n = 1 ∧ (t.inst d n).args = a.map (fun w => w.toNat) ∧ (t.inst d n).ready = [] ∧
          t.fld (shareA d n) 15 8 = bitsN (s.mbxArg d 6) 18 11 ∧ t.fld (shareA d n) 7 0 = 0 ∧
          t.rdCsr b = 0 ∧ t.rdCsr (b + 8) = 0 ∧ (∀ i, g ≤ i → i < g + m → t.stgOwner d i = n + 1) ∧
          { t with csr := s.csr, engs := s.engs } = s)) ∧
      (runs 2 → st = 0 ∨ st = 4 ∨ st = 5 ∨ noJobs ∧ x.susp = [] → ∃ t, exec (.destroy d n) s = .next t ∧ ends t 0 ∧
        t.instSt d n = 0 ∧ t.inst d n = Inst.reset ∧ (∀ g, g < 512 → t.stgOwner d g ≠ n + 1) ∧
        t.fld (b + 0x18) 46 39 = s.fld (b + 0x18) 46 39 ∧ { t with csr := s.csr, engs := s.engs } = s) ∧
      (runs 3 → st = 1 ∨ st = 4 →
        (a0 ≤ 255 → ∃ t, exec (.setShare d n) s = .next t ∧ ends t 0 ∧ onlyCsr t ∧ t.fld (shareA d n) 15 8 = a0 ∧
          t.fld (shareA d n) 7 0 = s.fld (shareA d n) 7 0) ∧
        (255 < a0 → ∃ t, exec (.setShare d n) s = .next t ∧ ends t 3 ∧ onlyCsr t)) ∧
      (runs 4 → a0 = 0 → st = 1 ∨ st = 2 →
        (s.inFlight d n = 0 → x.held = [] → ∃ t, exec (.resetDrain d n) s = .next t ∧ ends t 0 ∧ t.instSt d n = 1 ∧
          { t with csr := s.csr, engs := s.engs } = s) ∧
        (0 < s.inFlight d n ∨ x.held ≠ [] → ∃ t, exec (.resetDrain d n) s = .next t ∧ t.flag mb 16 = true ∧ t.instSt d n = 2 ∧
          onlyCsr t)) ∧
      (runs 4 → a0 = 1 → st = 1 → noJobs → x.susp = [] → ∃ t, exec (.resetSquash d n) s = .next t ∧ ends t 0 ∧ t.instSt d n = 1 ∧
        (t.inst d n).ready = [] ∧ (t.inst d n).held = [] ∧ t.fld (b + 0x18) 46 39 = s.fld (b + 0x18) 46 39 ∧
        { t with csr := s.csr, engs := s.engs } = s) ∧
      (runs 5 → st = 1 → x.held = [] → (∀ v j, v < 18 → ((s.eng d).unit v).job = some j → j.inst = n → j.res = none) →
        ∃ t, exec (.freeze d n) s = .next t ∧ ends t 0 ∧ t.instSt d n = 4 ∧ { t with csr := s.csr, engs := s.engs } = s ∧
          (∀ j ∈ x.susp, j ∈ (t.inst d n).susp) ∧
          (∀ v j, v < 18 → ((s.eng d).unit v).job = some j → j.inst = n →
            ((t.eng d).unit v).job = none ∧ j ∈ (t.inst d n).susp)) ∧
      (runs 6 → st = 4 → x.held = [] → ∃ t, exec (.unfreeze d n) s = .next t ∧ ends t 0 ∧ t.instSt d n = 1 ∧
        t.inst d n = x ∧ { t with csr := s.csr, engs := s.engs } = s) ∧
      (runs 9 → ∃ t, exec (.mbxQuery d n) s = .next t ∧ ends t 0 ∧ onlyCsr t ∧ ∀ i, i < 7 → t.mbxArg d i = x.arg i)) ∧
    (s.image d n).length = 4096 ∧
    (runs 7 → st = 4 → a0 % 4096 = 0 → s.engOn d = true →
      (∀ v, inSysMem a0 = true → s.dmaWrite (engAgt d) a0 (numOf (s.image d n)) 4096 = (0, v) →
        exec (.save d n) s = .next (v.mbxEnd d 0)) ∧
      (inSysMem a0 = false → exec (.save d n) s = .next (s.mbxEnd d 6))) ∧
    (∀ v, runs 8 → st = 0 → a0 % 4096 = 0 → s.engOn d = true → inSysMem a0 = true → s.dmaRead a0 4096 = (0, v) →
      let bs := bytesOf v 4096
      let w (i : Nat) := v / 2 ^ (64 * i) % 2 ^ 64
      let a : List Word := [s.mbxArg d 1, s.mbxArg d 2, s.mbxArg d 3, BitVec.ofNat 64 (w 4), BitVec.ofNat 64 (w 5),
        BitVec.ofNat 64 (w 6), BitVec.ofNat 64 (w 7)]
      (numOf (bs.drop 4092) ≠ crc32c 0 (bs.take 4092) → exec (.restore d n) s = .next ((s.dmaSeen (engAgt d) a0 4096).mbxEnd d 5)) ∧
      (numOf (bs.drop 4092) = crc32c 0 (bs.take 4092) → w 0 % 2 ^ 16 = 0x101 → argsOk a = true →
        s.stgFree d (n + 1) (bitsN (a.getD 6 0) 30 22) (bitsN (a.getD 6 0) 40 31) = true → quiet →
        ∃ t, exec (.restore d n) s = .next t ∧ ends t 0 ∧ t.instSt d n = 4 ∧ (t.inst d n).args = a.map (fun y => y.toNat) ∧
          t.fld b 15 0 = w 8 / 2 ^ 16 % 2 ^ 16 ∧ t.fld (b + 0x18) 20 5 = w 8 % 2 ^ 16 ∧ t.fld (shareA d n) 15 8 = w 10 % 2 ^ 8 ∧
          t.mem = s.mem)) ∧
    (flr = false →
      (∃ t, exec (.busMasterEnableClear d) s = .next t ∧ (t.cfgw fn 0x04).getLsbD 2 = false ∧ t.mem = s.mem ∧
        ∀ u j, u < 18 → s.engOn d = true → st ≠ 0 → st ≠ 5 → ((s.eng d).unit u).job = some j → j.inst = n → j.res = none →
          ((t.eng d).unit u).job = none ∧
          jobRec j { status := 0x0C, srcUsed := j.pos, dstUsed := j.pos, check := j.check, detail := 0 } s.ctime ∈
            (t.inst d n).held) ∧
      ((∀ m, m < 256 → s.instSt d m ≠ 1 ∧ s.instSt d m ≠ 2) →
        (∀ v, v < 2048 → s.flag (engBase d + 0x908000 + 8 * (v / 64)) (v % 64) = false) →
        ∃ t, exec (.busMasterEnableSet d) s = .next t ∧ (t.cfgw fn 0x04).getLsbD 2 = true ∧ { t with cfg := s.cfg } = s) ∧
      (∃ t, exec (.initiateFunctionLevelReset d) s = .next t ∧ (t.cfgw fn 0x68).getLsbD 21 = true ∧ t.mem = s.mem ∧
        t.flag mb 16 = false ∧ (∀ g, g < 512 → t.stgOwner d g = 0 ∨ 256 < t.stgOwner d g) ∧
        (t.eng d).resetAt = s.ctime.toNat ∧
        (st ≠ 0 → t.instSt d n = 5 ∧ (t.inst d n).ready = [] ∧ (t.inst d n).susp = [] ∧ (t.inst d n).held = []) ∧
        (st = 0 → t.instSt d n = 0)) ∧
      ((s.cfgw fn 0x44).toNat % 4 = 0 → ∃ t, exec (.d3hotEntry d) s = .next t ∧ (t.cfgw fn 0x44).toNat % 4 = 3 ∧ t.mem = s.mem ∧
        t.engOn d = false) ∧
      ((s.cfgw fn 0x44).toNat % 4 = 3 → exec (.d3hotToD0 d) s = exec (.initiateFunctionLevelReset d) s)) ∧
    (flr = true → ∀ i ∈ [Instr.busMasterEnableClear d, .busMasterEnableSet d, .initiateFunctionLevelReset d, .d3hotEntry d,
      .d3hotToD0 d], exec i s = .next s) ∧
    (flr = true → (s.eng d).resetAt + 900000 ≤ s.ctime.toNat → ∃ t, exec (.functionResetSquash d) s = .next t ∧ t.mem = s.mem ∧
      ∀ k, k / 4096 = 8 * routerOfStop d 14 → Map.get false t.outst k = false) ∧
    (flr = true → agtCount s.outst (engAgt d) = 0 →
      ((s.eng d).devCtl = none → ∃ t, exec (.functionResetDone d) s = .next t ∧ (t.cfgw fn 0x68).getLsbD 21 = false ∧
        { t with cfg := s.cfg } = s) ∧
      (∀ v, (s.eng d).devCtl = some v → ∃ t, exec (.functionResetDone d) s = .next t ∧ (t.eng d).devCtl = none ∧
        (t.cfgw fn 0x68).toNat % 2 ^ 15 = v.toNat % 2 ^ 15 ∧ (t.cfgw fn 0x68).getLsbD 21 = false ∧
        { t with cfg := s.cfg, engs := s.engs } = s)) ∧
    (flr = false ∨ 0 < agtCount s.outst (engAgt d) → exec (.functionResetDone d) s = .next s)

/-! ## Power, clocks and snapshots (14_power_and_clocks.md, 13_performance_monitoring.md) -/

/-- Rests on R167, R305, R386, R387, R389 to R393, R395, R396, R399, R400, R402, R403, R458, R459, Tables 13.11,
13.12, 14.1 to 14.4: KEY_CTL arms and cancels a snapshot, an island holds the arming, the tick copies the pages of the
islands that hold it, and the end advances SEQ; time advances the count and the excursion bucket; a Toll request joins
its queue, is granted while the pool covers it, and its grant returns or is withdrawn; a tile changes its state on
request; estimates, lent credit and temperatures follow; a die becomes HOT and leaves it, a thermal trip holds the
package in reset; a domain goes down fenced and drained, and comes up. What the spec leaves open there is the model's
choice: log entries 90, 92, 93, 94. -/
def Obligations.PowerAndSnapshots : Prop :=
  ∀ (s : State) (value : Word) (q : Requester) (k : Fin 10) (tile : TileId) (c : CoreId) (e : ChanEnv) (ok : Bool),
    let tilesOnly (t : State) : Prop := { t with csr := s.csr, dvfs := s.dvfs, dvfsAt := s.dvfsAt, dvfsNext := s.dvfsNext } = s
    let onlyCsr (t : State) : Prop := { t with csr := s.csr } = s
    let refused (t : State) : Prop := { t with rej := s.rej } = s
    let tick := s.rdCsr (keyBase + 8)
    let per := bitsN value 35 4
    let perNow := s.fld keyCtl 35 4
    let tol := s.toll k
    let now := s.ctime.toNat
    let gone (t : State) (w : TollWho) : Prop := ∀ y ∈ (t.toll k).queue ++ (t.toll k).held, y.1 ≠ w
    let a := dvfsA tile
    let req := bitsN value 2 0
    let est (t : State) : Prop := t.fld (pwrBase + 0x08) 13 0 =
      satN 14 ((List.range 10).map (fun i => t.fld (dieStatA i) 13 0)).sum
    (∀ act i, (act, i) ∈ [(0, Instr.keySnap value q), (1, .keyFreeze value q), (2, .keyThaw value q)] →
      s.csrAccepts keyCtl true q = true →
      (per = 0 ∨ 100 ≤ per ∧ act = 0 → s.flag keyCtl 2 = false → now + 20000 ≤ tick.toNat →
        (act = 1 → s.flag keyStat 32 = false) → (act = 2 → s.flag keyStat 32 = true) →
        ∃ t, exec i s = .next t ∧ t.flag keyCtl 2 = true ∧ t.fld keyCtl 1 0 = act ∧ t.fld keyCtl 35 4 = per ∧ onlyCsr t) ∧
      (s.flag keyCtl 2 = true ∨ tick.toNat < now + 20000 ∨ (0 < per ∧ per < 100) →
        ∃ t, exec i s = .next t ∧ refused t)) ∧
    (s.csrAccepts keyCtl true q = true → bitsN value 1 0 ≤ 2 → per = 0 ∨ 100 ≤ per → s.flag keyCtl 2 = true → s.snap.due = [] → now < tick.toNat →
      ∃ t, exec (.keyCancel value q) s = .next t ∧ t.flag keyCtl 2 = false ∧ t.snap.armed = [] ∧
        { t with csr := s.csr, snap := s.snap } = s) ∧
    (∀ b, s.snap.due = [] →
      (s.flag keyCtl 2 = true → ∃ t, exec (.keyArmBcast b) s = .next t ∧ { t with snap := s.snap } = s ∧
        { t.snap with armed := s.snap.armed } = s.snap ∧ ∀ i ∈ KeyAgent.blocks b, Map.get false t.snap.armed i = true) ∧
      (s.flag keyCtl 2 = false → exec (.keyArmBcast b) s = .next s)) ∧
    (s.flag keyCtl 2 = true → tick.toNat ≤ now → tick ∉ s.snap.due → ∃ t, exec .keystoneTick s = .next t ∧
      t.snap.due = s.snap.due ++ [tick] ∧ t.snap.armed = [] ∧ { t with csr := s.csr, snap := s.snap, free := s.free } = s ∧
      (s.fld keyCtl 1 0 = 1 → t.flag keyStat 32 = true) ∧ (s.fld keyCtl 1 0 = 2 → t.flag keyStat 32 = false) ∧
      (perNow ≠ 0 → t.rdCsr (keyBase + 8) = tick + BitVec.ofNat 64 (perNow * 1000)) ∧
      ∀ b, b < 580 → Map.get false s.snap.armed b = true → s.keyMiss b = false →
        Map.get 0 t.snap.pages b = (s.fld keyStat 31 0 + s.snap.due.length + 1) % 2 ^ 32 ∧
        Map.get false t.snap.lates b = false) ∧
    (s.flag keyCtl 2 = false ∨ now < tick.toNat ∨ tick ∈ s.snap.due → exec .keystoneTick s = .next s) ∧
    (∀ first rest, s.snap.due = first :: rest → let seq := (s.fld keyStat 31 0 + 1) % 2 ^ 32
      let missed := ((List.range 580).filter (fun b => decide (Map.get 0 s.snap.pages b < seq))).length
      (∀ late, late = true ∨ missed = 0 → s.flag (keyBase + 0x20) 19 = false → ∃ t, exec (.keystoneDone late) s = .next t ∧
        t.snap = { s.snap with due := rest } ∧ t.fld keyStat 31 0 = seq ∧ t.fld keyStat 48 33 = missed ∧
        t.rdCsr (keyBase + 0x18) = first ∧ (perNow = 0 → t.flag keyCtl 2 = false) ∧ { t with csr := s.csr, snap := s.snap } = s) ∧
      (missed ≠ 0 → exec (.keystoneDone false) s = .next s)) ∧
    (∀ ticks, let b := if s.flag (pwrBase + 0x08) 14 then s.bucket - 4 * ticks else min 40000000 (s.bucket + ticks)
      ∃ t, exec (.timeDistribution ticks) s = .next t ∧ t.ctime = s.ctime + BitVec.ofNat 64 ticks ∧ t.bucket = b ∧
        { t with ctime := s.ctime, bucket := s.bucket, csr := s.csr } = s) ∧
    (∀ w, exec (.tollRequest w) s = exec (.tollRequest (s.tollAs w)) s) ∧
    (∀ w, s.tollCtl w = k → s.tollAs w = w →
      ((∀ p, w ≠ .speed p) → (∀ y ∈ tol.queue ++ tol.held, y.1 ≠ w) →
        (∀ p, w = .vector p → s.dieHot k = false ∧ s.fenced (physAgt p) = false) →
        (∀ d u, w = .unit d u → s.fenced { router := routerOfStop d 14, agent := 0 } = false) →
        (∀ h, w = .mig h → s.fenced { router := routerOfCh (s.hostCh h), agent := 0 } = false) →
        ∃ t, exec (.tollRequest w) s = .next t ∧ t.toll k = { tol with queue := tol.queue ++ [(w, now)] } ∧
          { t with csr := s.csr, tolls := s.tolls } = s) ∧
      ((∀ p, w ≠ .speed p) → (∃ y ∈ tol.queue ++ tol.held, y.1 = w) → exec (.tollRequest w) s = .next s) ∧
      (∀ p, w = .vector p → (∀ y ∈ tol.queue ++ tol.held, y.1 ≠ w) → s.dieHot k = true → ∃ t, exec (.tollRequest w) s = .next t ∧
        t.fld (tileBase (p / 2) + 0x100C0 + 8 * (p % 2)) 1 0 = 0 ∧ onlyCsr t) ∧
      (∀ since rest, tol.queue = (w, since) :: rest →
        (s.heldOf k + s.tollCost w ≤ s.poolNow k → ∃ t, exec (.tollGrant k) s = .next t ∧
          t.toll k = { tol with queue := rest, held := tol.held ++ [(w, now)] } ∧
          (∀ d u, w = .unit d u → ((t.eng d).unit u).grant = true) ∧
          (∀ p, w = .vector p → t.fld (tileBase (p / 2) + 0x100C0 + 8 * (p % 2)) 1 0 = 2) ∧ t.mem = s.mem) ∧
        (s.poolNow k < s.heldOf k + s.tollCost w → exec (.tollGrant k) s = .next s)) ∧
      (∀ i since, tol.held[i]? = some (w, since) →
        (∃ t, exec (.tollReturn k i) s = .next t ∧ gone t w ∧ t.mem = s.mem ∧
          (∀ d u, w = .unit d u → ((t.eng d).unit u).grant = false) ∧
          (∀ p, w = .vector p → t.fld (tileBase (p / 2) + 0x100C0 + 8 * (p % 2)) 1 0 = 0)) ∧
        (tol.queue ≠ [] → 1000 * s.fld (dieCfgA k) 27 24 ≤ now - since →
          (∀ p, w = .vector p → ∃ t, exec (.leaseExpire k i) s = .next t ∧ gone t w ∧ t.mem = s.mem ∧
            t.fld (tileBase (p / 2) + 0x100C0 + 8 * (p % 2)) 1 0 = 0) ∧
          (∀ d u, w = .unit d u → s.fenced { router := routerOfStop d 14, agent := 0 } = false →
            ∃ t, exec (.leaseExpire k i) s = .next t ∧ ((t.eng d).unit u).grant = false ∧ t.mem = s.mem ∧
              (∀ y ∈ (t.toll k).held, y.1 ≠ w) ∧ (w, now) ∈ (t.toll k).queue)) ∧
        (tol.queue = [] ∨ now - since < 1000 * s.fld (dieCfgA k) 27 24 → exec (.leaseExpire k i) s = .next s))) ∧
    (tol.queue = [] → exec (.tollGrant k) s = .next s) ∧
    (s.csrAccepts a true q = true → s.fld a 5 3 ≤ req → s.dieHot (dieOfTile tile) = false → Map.get 0 s.thermFloor tile = 0 →
      Map.get 0 s.dvfs tile = 0 → Map.get 0 s.dvfsNext tile = 0 → ∃ t, exec (.dvfsRequest tile value q) s = .next t ∧ t.fld a 2 0 = req ∧
        t.curOf tile = s.curOf tile ∧ tilesOnly t ∧
        (s.curOf tile ≤ req → t.targetOf tile = req) ∧
        (req < s.curOf tile → s.tileUse (dieOfTile tile) - s.charge tile + s.chargeAt tile req ≤ s.tileRoom (dieOfTile tile) →
          t.targetOf tile = req ∧ t.flag a 9 = true)) ∧
    (s.csrAccepts a true q = true → req < s.fld a 5 3 → ∃ t, exec (.dvfsRequest tile value q) s = .next t ∧ refused t) ∧
    (∀ st, st < 8 → Map.get 0 s.dvfs tile = st + 1 → let ends := Map.get 0 s.dvfsAt tile + changeNs (s.curOf tile) st
      (ends ≤ now → ∃ t, exec (.dvfsChangeDone tile) s = .next t ∧ t.curOf tile = st ∧ tilesOnly t) ∧
      (now < ends → exec (.dvfsChangeDone tile) s = .next s)) ∧
    (Map.get 0 s.dvfs tile = 0 → exec (.dvfsChangeDone tile) s = .next s) ∧
    (∀ e, ∃ t, exec (.powerEstimate k e) s = .next t ∧ t.fld (dieStatA k) 13 0 = satN 14 e ∧ est t ∧
      { t with csr := s.csr, loans := s.loans, dvfs := s.dvfs, dvfsAt := s.dvfsAt, dvfsNext := s.dvfsNext } = s) ∧
    (∀ corr : List Nat, ∃ t, exec (.pmbusRead corr) s = .next t ∧ est t ∧ onlyCsr t ∧
      (∀ e, corr[k.val]? = some e → t.fld (dieStatA k) 13 0 = satN 14 e) ∧
      (corr[k.val]? = none → t.fld (dieStatA k) 13 0 = s.fld (dieStatA k) 13 0)) ∧
    (s.bucket = 0 → ∃ t, exec .excursionBucketEmpty s = .next t ∧ t.loans = [] ∧ t.flag (pwrBase + 0x08) 14 = false ∧
      t.mem = s.mem) ∧
    (s.bucket ≠ 0 → exec .excursionBucketEmpty s = .next s) ∧
    (∀ (i : Fin 576) raw, let tf := (7 * Map.get 0 s.temps i + raw * 65536) / 8
      let die := ctlOfSensor i
      (raw < 105 → ∃ t, exec (.sensorSample i raw) s = .next t ∧ Map.get 0 t.temps i = tf ∧ t.mem = s.mem ∧
        (i.val < 544 → t.fld (dvfsA i) 18 11 = satN 8 (tf / 65536)) ∧
        (s.fld (pwrBase + 0x20) 15 8 ≤ raw → t.dieHot die = true) ∧
        (raw < s.fld (pwrBase + 0x20) 15 8 → t.dieHot die = s.dieHot die)) ∧
      (105 ≤ raw → ∃ t, exec (.sensorSample i raw) s = .next t ∧ t.pins.thermtrip = true ∧ t.pins.held = true ∧
        t.cores = [] ∧ t.mem = [])) ∧
    (s.dieHot k = true → Map.get 0 s.hotAt k + 1000000 ≤ now + 1 → ∃ t, exec (.hotExit k) s = .next t ∧ t.dieHot k = false ∧ tilesOnly t) ∧
    (s.dieHot k = false ∨ now + 1 < Map.get 0 s.hotAt k + 1000000 → exec (.hotExit k) s = .next s) ∧
    (let kind := bitsN value 2 0
     let i := bitsN value 13 3
     s.csrAccepts domA true q = true → kind < 5 → i < domCount kind → s.flag domA 15 = false →
      (s.isDown kind i = false → (∃ t, exec (.domainDown value q) s = .next t ∧
          t.isDown kind i = s.domReady kind i ∧ t.flag domA 15 = !s.domReady kind i ∧
          (s.domReady kind i = true → t.fld domA 17 16 = 0) ∧
          (2 ≤ kind → t.mem = s.mem ∧ ∀ g ∈ domAgents kind i, t.fenced g = true)) ∧
        (∃ t, exec (.domainUp value q e ok) s = .next t ∧ t.fld domA 17 16 = 1 ∧ onlyCsr t)) ∧
      (s.isDown kind i = true → (∃ t, exec (.domainDown value q) s = .next t ∧ t.fld domA 17 16 = 1 ∧ onlyCsr t) ∧
        (∃ t, exec (.domainUp value q e ok) s = .next t ∧ t.isDown kind i = false ∧ t.fld domA 17 16 = 0 ∧ t.mem = s.mem ∧
          (∀ g ∈ domAgents kind i, t.fenced g = false ∧ t.proxied g = false) ∧
          (kind = 0 → ∀ n, s.carried i = some n → t.core n = Core.reset) ∧
          (kind = 2 → s.profile ≠ 2 → s.fld (chBase i) 23 20 = 4 → ok = true → e.density = 0 → e.ranks = 1 → e.pass = [0] →
            t.fld (chBase i) 23 20 = 2 ∧ t.fld (chBase i) 19 4 = 8192)))) ∧
    (s.flag domA 15 = true → let kind := s.fld domA 2 0
      let i := s.fld domA 13 3
      (s.domReady kind i = true → ∃ t, exec .domainDrainTimeout s = .next t ∧ t.isDown kind i = true ∧ t.fld domA 17 16 = 0 ∧
        t.flag domA 15 = false) ∧
      (s.domReady kind i = false → ∃ t, exec .domainDrainTimeout s = .next t ∧ t.fld domA 17 16 = 2 ∧ t.flag domA 15 = false ∧
        onlyCsr t)) ∧
    (s.flag domA 15 = false → exec .domainDrainTimeout s = .next s) ∧
    (let w := vecWho (s.phys c)
     (s.fld (s.vpwrAddr c) 1 0 = 2 → s.tollCtl w = k → ∃ t, exec (.vpwrHoldExpire c) s = .next t ∧
        t.fld (s.vpwrAddr c) 1 0 = 0 ∧ gone t (s.tollAs w) ∧ { t with csr := s.csr, tolls := s.tolls } = s) ∧
     (s.fld (s.vpwrAddr c) 1 0 ≠ 2 → exec (.vpwrHoldExpire c) s = .next s)) ∧
    (∀ p : Fin 2, let ad := tileBase tile + 0x100C0 + 8 * p
      s.csrAccepts ad true q = true → 1 ≤ bitsN value 9 3 → bitsN value 9 3 ≤ 64 → 256 ≤ bitsN value 25 10 → s.profile ≠ 2 →
      ∃ t, exec (.tileVpwrWrite tile p value q) s = .next t ∧ t.flag ad 2 = bitB value 2 ∧ t.fld ad 9 3 = bitsN value 9 3 ∧
        { t with csr := s.csr, tolls := s.tolls } = s ∧ (bitB value 2 = true → t.fld ad 1 0 = s.fld ad 1 0) ∧
        (bitB value 2 = false → t.fld ad 1 0 = if s.fld ad 1 0 = 2 then 0 else s.fld ad 1 0))

/-! ## The service engine (15_service_engine_and_trust.md) -/

/-- Rests on R399, R406, R407, R410, R413, R417, R420 to R426, R428, R429, R457, Tables 15.3, 15.5 to 15.8, 15.11,
17.4: a command at the head of the queue that fails a check ends with that check's status and spends a signed
command's nonce; one that passes acts and ends with 0: keys, images, ports and cores change, quotes, certificates,
ledger and readback are answered, the lifecycle advances, debug opens, the package resets warm. Nonces, the SMBus
codes, the UART stream, the ledger, the flash lands, the heartbeat, the takeover and the watchdog follow. Statements
of an action take the state v in which the nonce is spent and the CMD record is written. Layouts that the spec does
not give are the model's choice: log entries 29, 98. -/
def Obligations.ServiceEngineCommands : Prop :=
  ∀ (s : State) (m : DseMsg) (e : TrainEnv),
    let via := m.via.val
    let b := s.cmdBytes via
    let op := cmdOp b
    let p := cmdPay b
    let v := (s.spend via b).cmdRecord via b
    let ready (n : Nat) : Prop := s.dse.cmdQ = [via] ∧ op = n ∧ s.cmdCheck via b = 0 ∧ s.flag cmdA 23 = false
    let ended (t : State) (st : Nat) : Prop := t.dse.cmdQ = [] ∧ (via = 0 → t.fld cmdA 22 15 = st ∧ t.flag cmdA 0 = false) ∧
      (via ≠ 0 → t.dse.smStatus = st)
    let responds (t : State) (r : List Byte) : Prop :=
      (via = 0 → ∀ i, i < 512 → t.rdCsr (dseBase + 0x2000 + 8 * i) = BitVec.ofNat 64 (at' r (8 * i) 8)) ∧
      (via ≠ 0 → t.dse.smOut = r)
    let all : List (Nat × Instr) := [(1, .enrollKey m), (2, .revokeKey m), (3, .fwUpdate m), (4, .settingsUpdate m),
      (5, .warmReset m), (6, .portAdd m e), (7, .portRemove m), (8, .spareCore m), (9, .quote m), (0x0A, .readback m),
      (0x0B, .ledgerRead m), (0x0C, .certRead m), (0x0D, .setLifecycle m), (0x0E, .debugUnlock m)]
    let port := at' p 0 1
    let core := at' p 0 2
    let img := (s.imageOf b 0x200000).2
    let sImg := (s.imageOf b 0x40000).2
    let fwTo := fwA (1 - v.fld dseBase 13 13)
    let setTo := setA (if v.setSeq 0 ≤ v.setSeq 1 then 0 else 1)
    (∀ i ∈ all, s.dse.cmdQ.head? ≠ some via ∨ op ≠ i.1 → exec i.2 s = .next s) ∧
    (∀ i ∈ all, s.dse.cmdQ = [via] → op = i.1 → s.cmdCheck via b ≠ 0 → s.cmdCheck via b < 256 → s.flag cmdA 23 = false →
      ∃ t, exec i.2 s = .next t ∧ ended t (s.cmdCheck via b) ∧ { t with csr := s.csr, dse := s.dse, ledgQ := s.ledgQ } = s ∧
        (cmdRole b ≠ 0xFF → Map.get none t.dse.nonces (nonceOf via) = none ∧
          (s.ledgQ.length < 256 → ∃ r, t.ledgQ = s.ledgQ ++ [r] ∧ r.headD 0 = 0x11)) ∧
        (cmdRole b = 0xFF → t.ledgQ = s.ledgQ)) ∧
    (∀ i ∈ [(1, Instr.enrollKey m, 1, p.drop 8), (2, .revokeKey m, 2, v.ksKey (at' p 0 1) (at' p 1 1))], ready i.1 →
      (s.fuses.ksver < 128 → m.vpp = true → ∃ t, exec i.2.1 s = .next t ∧ ended t 0 ∧
        t.fuses = { s.fuses with ksver := s.fuses.ksver + 1 } ∧
        t.flash = (v.ksChange (at' p 0 1) (at' p 1 1) i.2.2.1 i.2.2.2).flash ∧ t.mem = s.mem ∧
        (cmdRole b ≠ 0xFF → Map.get none t.dse.nonces (nonceOf via) = none)) ∧
      (128 ≤ s.fuses.ksver ∨ m.vpp = false → ∃ t, exec i.2.1 s = .next t ∧ ended t 7 ∧ t.flash = s.flash ∧ t.fuses = s.fuses)) ∧
    (ready 3 → s.imageOf b 0x200000 = (0, img) → v.imageOf b 0x200000 = (0, img) →
      (s.fwWhole img = false → ∃ t, exec (.fwUpdate m) s = .next t ∧ ended t 8 ∧ t.flash = s.flash) ∧
      (s.fwWhole img = true → s.stage ≠ 14 → v.stage ≠ 14 → ∃ t, exec (.fwUpdate m) s = .next t ∧ ended t 0 ∧
        t.flash = ((v.flErase fwTo 0x200000).flPut fwTo (img.take (256 + at' img 0x0C 4))).flash ∧ t.mem = s.mem) ∧
      (s.fwWhole img = true → s.stage = 14 → v.stage = 14 → ∃ t, exec (.fwUpdate m) s = .next t ∧
        t.flash = ((v.flErase (fwA 0) 0x200000).flPut (fwA 0) (img.take (256 + at' img 0x0C 4))).flash ∧
        t.cores = [] ∧ t.mem = [] ∧ t.dse.cold = true)) ∧
    (ready 4 → s.imageOf b 0x40000 = (0, sImg) → v.imageOf b 0x40000 = (0, sImg) →
      let good := 128 + at' sImg 0x0C 4 ≤ sImg.length ∧ s.setFail sImg = none
      (¬ good → ∃ t, exec (.settingsUpdate m) s = .next t ∧ ended t 8 ∧ t.flash = s.flash) ∧
      (good → ∃ t, exec (.settingsUpdate m) s = .next t ∧ ended t 0 ∧ t.mem = s.mem ∧
        t.flash = ((v.flErase setTo 0x40000).flPut setTo (sImg.take (128 + at' sImg 0x0C 4))).flash)) ∧
    (ready 5 → (v.stage = 9 → ∃ t, exec (.warmReset m) s = .next t ∧ t.cores = [] ∧ t.mem = s.mem ∧ t.stage = 3 ∧
        t.dse.warm = true ∧ t.dse.cmdQ = []) ∧
      (v.stage ≠ 9 → ∃ t, exec (.warmReset m) s = .next t ∧ ended t 0 ∧ t.mem = s.mem ∧ t.cores = s.cores)) ∧
    (ready 6 → s.profile ≠ 2 → port < 64 →
      (s.portMode port ≠ 1 ∨ (s.port port).present = false ∨ s.counted port = true → ∃ t, exec (.portAdd m e) s = .next t ∧
        ended t 7 ∧ t.ports = s.ports ∧ t.layout = s.layout) ∧
      (s.portMode port = 1 → (s.port port).present = true → s.portLink port = 0 ∨ s.portLink port = 5 →
        s.counted port = false → s.trainOk port e = true → (s.port port).wait = [] → cmdRole b = 0xFF →
        ∃ t, exec (.portAdd m e) s = .next t ∧ ended t 0 ∧ t.portLink port = 2 ∧ (t.port port).perst = false ∧
          t.layout.portFrames port = capFrames e.capacity ∧
          t.fld capFarA 27 0 = (s.fld capFarA 27 0 + capFrames e.capacity) % 2 ^ 28)) ∧
    (ready 7 → s.profile ≠ 2 → port < 64 →
      (s.portMode port = 1 → s.counted port = false → ∃ t, exec (.portRemove m) s = .next t ∧ ended t 0 ∧
        (t.port port).power = false) ∧
      (s.portMode port ≠ 1 ∨ s.counted port = true → ∃ t, exec (.portRemove m) s = .next t ∧ ended t 7 ∧ t.ports = s.ports)) ∧
    (ready 8 → core < 1024 →
      (s.lcState core ≠ 1 → s.lcState core ≠ 2 → ∃ t, exec (.spareCore m) s = .next t ∧ ended t 7 ∧ t.cores = s.cores) ∧
      (s.lcState core = 1 → s.quiet core = false → ∃ t, exec (.spareCore m) s = .next t ∧ t.lcState core = 2 ∧ t.mem = s.mem ∧ t.dse = s.dse ∧
        ((s.core core).run = .running → (t.core core).run = .stopped)) ∧
      (s.lcState core = 1 → s.quiet core = true → s.spareFor (dieOfTile (s.phys core / 2)) = none → cmdRole b = 0xFF →
        ∃ t, exec (.spareCore m) s = .next t ∧ ended t 0 ∧ t.lcState core = 3 ∧ (t.core core).run = .offline)) ∧
    (ready 9 → (v.quoteOf p).length = 512 ∧ ∃ t, exec (.quote m) s = .next t ∧ ended t 0 ∧ responds t (v.quoteOf p) ∧
      t.mem = s.mem) ∧
    (ready 0x0A → (at' p 0 8 = 0 → ∃ t, exec (.readback m) s = .next t ∧ ended t 0 ∧ responds t (v.readbackOf b) ∧ t.mem = s.mem) ∧
      (∀ w x, let a := at' p 0 8
        a ≠ 0 → s.dmaWrite s.dseA a (numOf (s.readbackOf b)) (s.readbackOf b).length = (0, w) →
        v.dmaWrite v.dseA a (numOf (v.readbackOf b)) (v.readbackOf b).length = (0, x) →
        ∃ t, exec (.readback m) s = .next t ∧ t.mem = x.mem)) ∧
    (ready 0x0B → ∃ t, exec (.ledgerRead m) s = .next t ∧ ended t 0 ∧ t.mem = s.mem ∧
      responds t (((((spanN (at' p 0 8) (at' p 8 8)).map v.ledRec).takeWhile Option.isSome)).flatMap (fun r => r.getD []))) ∧
    (ready 0x0C → ∃ t, exec (.certRead m) s = .next t ∧ ended t 0 ∧ t.mem = s.mem ∧ responds t (v.idCert ++ v.dse.aliasCert)) ∧
    (ready 0x0D → let tgt := at' p 0 1
      (s.fuses.lifecycle < tgt → tgt ≤ 2 → m.vpp = true → ∃ t, exec (.setLifecycle m) s = .next t ∧ ended t 0 ∧
        t.fuses = { s.fuses with lifecycle := tgt } ∧ t.fld dseBase 9 8 = tgt ∧
        (tgt = 2 → ∀ a, ksA 0 ≤ a → a < ksA 0 + 0x20000 → Map.get 0xFF t.flash a = 0xFF)) ∧
      (tgt ≤ s.fuses.lifecycle ∨ m.vpp = false → ∃ t, exec (.setLifecycle m) s = .next t ∧ ended t 7 ∧ t.fuses = s.fuses)) ∧
    (ready 0x0E → (s.fuses.lifecycle = 0 → ∃ t, exec (.debugUnlock m) s = .next t ∧ ended t 0 ∧ t.dse.unlocked = true) ∧
      (s.fuses.lifecycle ≠ 0 → ∃ t, exec (.debugUnlock m) s = .next t ∧ ended t 7 ∧ t.dse.unlocked = s.dse.unlocked)) ∧
    (∀ sm : Bool, let k := if sm then 1 else 0
      (∃ t n, exec (.newnonce sm) s = .next t ∧ Map.get none t.dse.nonces k = some n ∧ n.count = s.dse.nonceN + 1 ∧
        n.ends = s.ctime.toNat + 60000000000 ∧ { t with csr := s.csr, dse := s.dse, free := s.free } = s ∧
        (sm = false → t.rdCsr (dseBase + 0x108) = BitVec.ofNat 64 n.count ∧ t.rdCsr (dseBase + 0x110) = n.rnd)) ∧
      (∀ n, Map.get none s.dse.nonces k = some n →
        (n.ends ≤ s.ctime.toNat → ∃ t, exec (.nonceExpire sm) s = .next t ∧ Map.get none t.dse.nonces k = none ∧
          { t with dse := s.dse } = s) ∧
        (s.ctime.toNat < n.ends → exec (.nonceExpire sm) s = .next s))) ∧
    (∀ bytes, (1 ∉ s.dse.cmdQ → s.stage = 14 ∨ s.dse.smIn.length + bytes.length ≤ 4096 →
        exec (.smbusBlockWrite bytes) s = .next { s with dse := { s.dse with smIn := s.dse.smIn ++ bytes.take 32 } }) ∧
      (1 ∈ s.dse.cmdQ → exec (.smbusBlockWrite bytes) s = .next s)) ∧
    exec .smbusResponseRead s = .next { s with dse := { s.dse with smRead := s.dse.smOut } } ∧
    (∃ t, exec (.smbusControl none) s = .next t ∧
      t.dse.smRead = bytesOf ((if 1 ∈ s.dse.cmdQ then 1 else 0) + s.dse.smStatus * 2 ^ 8) 2 ∧ { t with dse := s.dse } = s) ∧
    (∀ x : BitVec 16, let len := x.toNat / 4 % 2 ^ 13
      (1 ∉ s.dse.cmdQ → 32 ≤ len → len ≤ 4096 → x.getLsbD 0 = false → x.getLsbD 1 = false →
        exec (.smbusControl (some x)) s = .next { s with dse := { s.dse with smLen := len } }) ∧
      (s.dse.cmdQ = [] → 32 ≤ len → len ≤ 4096 → x.getLsbD 0 = true → x.getLsbD 1 = false → s.stage ≠ 14 →
        1 ≤ cmdOp (s.dse.smIn.take len) → cmdOp (s.dse.smIn.take len) ≤ 0x0E →
        exec (.smbusControl (some x)) s = .next { s with dse := { s.dse with smLen := len, cmdQ := [1] } }) ∧
      (1 ∈ s.dse.cmdQ ∨ len < 32 ∨ 4096 < len → exec (.smbusControl (some x)) s = .next s)) ∧
    (∀ n, Map.get none s.dse.nonces 1 = some n → exec .smbusNonceRead s =
      .next { s with dse := { s.dse with smRead := bytesOf n.count 8 ++ bytesOf n.rnd.toNat 8 } }) ∧
    (∀ code : BitVec 8, 0x30 ≤ code.toNat → code.toNat ≤ 0x3F →
      exec (.sensorRead code none) s =
        .next { s with dse := { s.dse with smRead := bytesOf (Map.get 0 s.temps s.dse.smSel / 65536) 2 } } ∧
      ∀ n : BitVec 16, n.toNat < 576 → exec (.sensorRead code (some n)) s =
        .next { s with dse := { s.dse with smSel := n.toNat } }) ∧
    (∀ bytes, let u := s.dse.uartIn ++ bytes.take 32
      s.stage = 14 → s.dse.console / 2 % 2 = 1 → s.dse.cmdQ = [] →
      (u.length < 0x20 → exec (.uartBlock bytes) s = .next { s with dse := { s.dse with uartIn := u } }) ∧
      (cmdRole u = 0xFF → cmdOp u = 0x0C → 0x20 + cmdLen u ≤ u.length →
        exec (.uartBlock bytes) s = .next { s with dse := { s.dse with uartIn := u, cmdQ := [2] } })) ∧
    (∀ bytes, s.stage ≠ 14 → exec (.uartBlock bytes) s = .next s) ∧
    (s.ledgQ = [] → exec .ledgerProgram s = .next s) ∧
    (∀ x l, s.ledgQ = x :: l → s.dse.lost = [] → s.ledSeq < 65536 → let seq := s.ledSeq + 1
      ∃ t, exec .ledgerProgram s = .next t ∧ t.ledgQ = l ∧ t.ledSeq = seq ∧
        t.flash = (s.flPut (ledA seq) (s.ledBytes seq x)).flash ∧ t.fld (dseBase + 0x200) 1 0 = (if s.stage = 9 then 0 else 1) ∧
        { t with csr := s.csr, flash := s.flash, ledgQ := s.ledgQ } = s) ∧
    (∀ value q, let a := dseBase + 0x200
      s.csrAccepts a true q = true →
      (let ok := s.stage = 9 ∧ s.dse.trace % 2 = 1 ∧ s.fld a 1 0 = 0
       (ok → ∃ t, exec (.spiTclaim value q) s = .next t ∧ t.fld a 1 0 = 2 ∧ t.flag a 4 = false ∧ { t with csr := s.csr } = s) ∧
       (¬ ok → ∃ t, exec (.spiTclaim value q) s = .next t ∧ t.fld a 1 0 = s.fld a 1 0 ∧ t.flag a 4 = true ∧
        { t with csr := s.csr, rej := s.rej } = s)) ∧
      (∃ t, exec (.spiTrelease value q) s = .next t ∧ t.fld a 1 0 = (if s.fld a 1 0 = 2 then 0 else s.fld a 1 0) ∧
        { t with csr := s.csr } = s)) ∧
    (s.stage ≠ 15 → exec .heartbeat s = .next { s with dse := { s.dse with hbMiss := 0, hbAt := s.ctime.toNat } }) ∧
    (s.stage = 15 → exec .heartbeat s = .next s) ∧
    (s.flag dseBase 7 = true → s.dse.cmdQ = [] → s.ras.running = none → let was := s.flag dseBase 6
      ∃ t, exec .takeover s = .next t ∧ t.flag dseBase 6 = !was ∧ t.flag dseBase 7 = false ∧ t.mem = s.mem ∧
        t.fenced s.dseA = true ∧ t.proxied s.dseA = true ∧ Map.get false t.dse.out (if was then 1 else 0) = true ∧
        (s.ledgQ.length < 256 → ∃ r, t.ledgQ = s.ledgQ ++ [r] ∧ r.headD 0 = 0x30)) ∧
    (s.flag dseBase 7 = true → ∃ t, exec .twinFailure s = .next t ∧ t.flag dseBase 7 = false ∧
      Map.get false t.dse.out (if s.flag dseBase 6 then 0 else 1) = true ∧ t.mem = s.mem ∧
      t.fld (recA (s.fld (rasBase + 0x10) 5 0) + 8) 7 0 = 0x30) ∧
    (s.flag dseBase 7 = false → exec .takeover s = .next s ∧ exec .twinFailure s = .next s) ∧
    (s.dse.hbAt + 1000000 ≤ s.ctime.toNat → exec .catErrWatchdog s = .next { s with pins := { s.pins with catErr := true } }) ∧
    (s.ctime.toNat < s.dse.hbAt + 1000000 → exec .catErrWatchdog s = .next s)

/-! ## Fault recovery (16_fault_recovery.md, 09_pipeline.md) -/

/-- Rests on R134, R282 to R284, R310, R430 to R434, R437, R438, R440, R441, R443, R444, R446, R102, R108, R110, R435,
R436, Tables 16.1 to 16.4: a report gets a record and starts its unit's self-test, or is merged; the end of a test
classifies it, and a lasting fault starts its action; the running action, when it names the target, acts and ends with
its ACTION and RESULT in the record: a core is spared, a way or a slice is disabled, a row is spared, a light region
converts, a link or a router is routed around, a lane is dropped, a copy takes over, a far frame or an engine unit is
retired, a home function is fenced. An uncorrectable error in a TLB entry discards it, one in a register makes it read
0 and latches ERR_CORE (Table 16.4, R436; the array numbers are the model's, log entry 139). A mismatch of a pair
counts, and the third stops it. For what the spec leaves open see log entries 101 to 104. -/
def Obligations.FaultRecovery : Prop :=
  ∀ (s : State) (x : FaultRec),
    let acts (kind : Nat) : Prop := s.ras.running = some x ∧ s.ras.queue = [] ∧ x.slot < 64 ∧ s.actOf x = kind
    let done (t : State) (a r : Nat) : Prop := t.ras.running = none ∧ t.ras.queue = [] ∧
      (s.recHere x = true → t.fld (recA x.slot + 16) 7 4 = a ∧ t.fld (recA x.slot + 16) 10 8 = r)
    let plain := s.lockStop x.rep = false ∧ x.rep.sev ≠ 2 ∧ x.slot < 64
    (∀ r : FaultRep, r.unit ≠ 0x1A → r.unit ≠ 0x18 →
      (s.mergeInto r = none → hasTest r.unit = true → s.flag (rasBase + 0x18) 20 = true → let n := s.fld (rasBase + 0x10) 5 0
        ∃ t was, exec (.faultReport r) s = .next t ∧ t.mem = s.mem ∧ t.reports = takeOut r s.reports ∧
          t.ras.tests = s.ras.tests ++ [{ slot := n, rep := r, was := was }] ∧
          t.rdCsr (recA n) = BitVec.ofNat 64 r.time ∧ t.rdCsr (recA n + 8) = repWord1 r ∧ t.rdCsr (recA n + 16) = 0 ∧
          t.rdCsr (recA n + 24) = BitVec.ofNat 64 r.detail ∧ t.fld (rasBase + 0x10) 5 0 = (n + 1) % 64 ∧
          (∀ k, r.unit = 1 → r.sev ≠ 1 → s.carried r.index = some k → (s.core k).run = .running →
            (t.core k).run = .stopped ∧ was = some .running)) ∧
      (s.mergeInto r = some x → x ∈ s.ras.tests → x.slot < 64 → r.sev ≠ 1 → ∃ t, exec (.faultReport r) s = .next t ∧
        t.ras.tests = s.ras.tests ∧ t.fld (rasBase + 0x10) 5 0 = s.fld (rasBase + 0x10) 5 0 ∧
        (s.recHere x = true → t.fld (recA x.slot + 16) 18 11 = satN 8 (s.fld (recA x.slot + 16) 18 11 + 1)) ∧
        { t with csr := s.csr, ras := s.ras, reports := s.reports } = s) ∧
      (r.sev = 1 → r.unit = 0x02 → ∃ t, exec (.faultReport r) s = .next t ∧ t.mem = s.mem ∧
        let k := t.core (s.runsOn r.index)
        let i := r.loc / 16 % 2 ^ 16
        (r.loc / 2 ^ 20 % 16 = 3 → Map.get none k.tlb i = none) ∧ (r.loc / 2 ^ 20 % 16 = 4 → Map.get none k.s2tlb i = none) ∧
        (r.loc / 2 ^ 20 % 16 = 8 → ∀ e, k.sbuf[i]? = some e → e.poison = true)) ∧
      (r.sev = 1 → r.unit = 0x01 → r.detail / 2 ^ 12 % 16 = 1 → ∀ n, s.carried r.index = some n → ∃ t,
        exec (.faultReport r) s = .next t ∧ t.mem = s.mem ∧ (t.core n).errCore = true ∧
        Map.get 0 (t.core n).g (r.detail % 2 ^ 12) = 0)) ∧
    (s.ras.tests = [x] → plain →
      (∀ f1, s.repeats x.rep = false → ∃ t, exec (.selftestEnd x.slot false f1) s = .next t ∧ t.ras.tests = [] ∧
        t.ras.running = s.ras.running ∧
        (s.recHere x = true → t.fld (recA x.slot + 16) 3 2 = 1 ∧ t.fld (recA x.slot + 16) 1 0 = 1 ∧ t.fld (recA x.slot + 16) 7 4 = 0) ∧
        ∀ n, s.coreOf x.rep = some n → x.was = some .running → (s.core n).run = .stopped → (t.core n).run = .running) ∧
      (∀ f1, s.ras.running = none → s.actionOf x.rep ≠ 0 → ∃ t, exec (.selftestEnd x.slot true f1) s = .next t ∧ t.ras.tests = [] ∧
        t.ras.running = some x ∧ (s.recHere x = true → t.fld (recA x.slot + 16) 3 2 = 2 ∧ t.fld (recA x.slot + 16) 1 0 = 2))) ∧
    (∀ i f f1, (∀ y ∈ s.ras.tests, y.slot ≠ i) → exec (.selftestEnd i f f1) s = .next s) ∧
    (∀ (c : CoreId) (t : TileId) (w : Fin 3) (way : Fin 16) (ch : HomeId) (value : Word) (r : RouterId) (p : PortId)
      (wd : BitVec 4) (b : Bool) (i : Fin 64) (ff u : Nat) (d : IoDie), s.ras.running = none →
      ∀ j ∈ [Instr.coreSpare c, .wayRetire t w way, .sliceDisable t, .rowSpare ch value, .regionConvert ch, .routeAround r,
        .laneDegrade p wd, .mirrorFailover b i, .frameRetire p ff, .unitRetire d u, .homeFence ch], exec j s = .next s) ∧
    (∀ c : CoreId, acts 2 → s.coreOf x.rep = some c.val →
      (s.quiet c = false → ∃ t, exec (.coreSpare c) s = .next t ∧ t.ras = s.ras ∧ t.mem = s.mem ∧
        (s.lcState c = 1 → t.lcState c = 2) ∧ ((s.core c).run = .running → (t.core c).run = .stopped) ∧ t.phys c = s.phys c) ∧
      (s.quiet c = true → s.spareFor (dieOfTile (s.phys c / 2)) = none → ∃ t, exec (.coreSpare c) s = .next t ∧ done t 15 5 ∧
        t.lcState c = 3 ∧ (t.core c).run = .offline ∧ ∀ o ∈ s.physAll c, o ∈ t.dse.retired) ∧
      (∀ d j o, s.quiet c = true → s.spareFor (dieOfTile (s.phys c / 2)) = some (d, j, o) → s.trapStop x.rep = false →
        2 * s.fuses.spares.getD (4 * d + j) 0 + o < 2048 → ∃ t, exec (.coreSpare c) s = .next t ∧ done t 2 0 ∧
        t.lcState c = 1 ∧ t.phys c = 2 * s.fuses.spares.getD (4 * d + j) 0 + o ∧ ∀ y ∈ s.physAll c, y ∈ t.dse.retired)) ∧
    (∀ (t0 : TileId) (w : Fin 3) (way : Fin 16), acts 3 → x.rep.loc % 16 = way →
      (w.val < 2 → x.rep.unit = 3 → x.rep.index = 2 * t0 + w → let a := tileBase t0 + 0x30000 + 8 * w
        (popcount (s.fld a 15 0) < 12 → ∃ t, exec (.wayRetire t0 w way) s = .next t ∧ done t 3 0 ∧ t.flag a way = true ∧
          t.mem = s.mem) ∧
        (popcount (s.fld a 15 0) = 12 → ∃ t, exec (.wayRetire t0 w way) s = .next t ∧ done t 3 0 ∧ t.flag a 16 = true ∧
          t.mem = s.mem)) ∧
      (w.val = 2 → x.rep.unit = 8 → x.rep.index = t0 → let a := tileBase t0 + 0x40000
        (12 ≤ popcount (s.fld a 15 0) → ∃ t, exec (.wayRetire t0 w way) s = .next t ∧ done t 3 0 ∧ t.flag (a + 8) 1 = true) ∧
        (popcount (s.fld a 15 0) < 12 → (∀ e ∈ s.dir, e.2.lock = false) → ∃ t, exec (.wayRetire t0 w way) s = .next t ∧
          done t 3 0 ∧ t.flag a way = true ∧ t.flag (a + 8) 0 = true ∧ t.mem = s.mem))) ∧
    (∀ t0 : TileId, acts 4 → x.rep.index = t0 → ∃ t, exec (.sliceDisable t0) s = .next t ∧ done t 4 0 ∧
      t.flag (tileBase t0 + 0x40008) 1 = true) ∧
    (∀ (ch : HomeId) (value : Word), let a := chBase ch + 0x6000
      acts 5 → x.rep.index = ch → x.rep.loc % 2 ^ 24 = bitsN value 23 0 → s.flag a 24 = false →
      ∃ t, exec (.rowSpare ch value) s = .next t ∧ t.flag a 24 = true ∧ t.fld a 23 0 = bitsN value 23 0 ∧
        { t with csr := s.csr } = s) ∧
    (∀ ch : HomeId, acts 6 → x.rep.index = ch →
      let light (k : Nat) : Bool := bitB (s.nregion ch k) 32 && bitB (s.nregion ch k) 33
      ((∀ k, k < 16 → light k = false) → ∃ t, exec (.regionConvert ch) s = .next t ∧ done t 6 0 ∧ t.mem = s.mem) ∧
      (∀ k, (List.range 16).find? light = some k →
        (s.flag (chBase ch + 0x1080) 4 = true → exec (.regionConvert ch) s = .next s) ∧
        (s.flag (chBase ch + 0x1080) 4 = false →
          s.regionBad ch k (s.nregion ch k) (putB (s.nregion ch k) 32 false) = false → ∃ t, exec (.regionConvert ch) s = .next t ∧
          bitB (t.nregion ch k) 32 = false ∧ t.flag (chBase ch + 0x1080) 4 = true ∧ t.ras = s.ras ∧ t.mem = s.mem))) ∧
    (∀ r : RouterId, acts 7 → x.rep.index = r → let side := x.rep.loc % 8
      (∀ n, 1 ≤ side → side ≤ 4 → x.rep.sev ≠ 2 → neighbour r side = some n → ∃ t, exec (.routeAround r) s = .next t ∧ done t 7 0 ∧
        t.flag (meshCtl r) (2 + side) = true ∧ t.flag (meshCtl n) (2 + opposite side) = true ∧ t.mem = s.mem) ∧
      (side = 0 ∨ 4 < side ∨ x.rep.sev = 2 → isTileRouter r = false → ∃ t, exec (.routeAround r) s = .next t ∧ done t 7 0 ∧
        (x.rep.sev = 2 → t.flag (meshCtl r) 2 = true) ∧ (x.rep.sev ≠ 2 → r.val ∈ t.leaving) ∧ t.mem = s.mem)) ∧
    (∀ (p : PortId) (width : BitVec 4), acts 8 → x.rep.index = p → let a := prtBase p + 8
      let lane := x.rep.loc % 8
      let w := min (widestOf ((s.putFlag a (11 + lane) false).fld a 18 11) (decide (width = 4))) (s.fld a 10 7)
      (w = 0 ∨ (s.portMode p = 1 ∧ w < 4) → ∃ t, exec (.laneDegrade p width) s = .next t ∧ done t 8 0 ∧ t.portLink p = 0 ∧
        t.flag a (11 + lane) = false ∧ (t.port p).out = []) ∧
      (w ≠ 0 → s.portMode p ≠ 1 ∨ 4 ≤ w → (s.port p).wait = [] → ∃ t, exec (.laneDegrade p width) s = .next t ∧ done t 8 0 ∧
        t.fld a 10 7 = w ∧ t.flag a (11 + lane) = false ∧ t.fld a 36 21 = satN 16 (s.fld a 36 21 + 1) ∧ t.mem = s.mem)) ∧
    (∀ (port : Bool) (i : Fin 64), acts 9 → x.rep.index = i → (x.rep.unit = 0x21 ↔ port = true) →
      (port = true → ∃ t, exec (.mirrorFailover port i) s = .next t ∧ done t 9 0 ∧
        t.fld (portBase (i.val ^^^ 1) + 0x7000 + 8 * ((i.val ^^^ 1) % 4)) 7 0 = 2 + i.val * 4 ∧
        t.fld (portBase i + 0x7000 + 8 * (i % 4)) 1 0 = 0) ∧
      (port = false → i.val < 12 → ∃ t, exec (.mirrorFailover port i) s = .next t ∧ done t 9 0 ∧
        t.fld (chBase (i.val ^^^ 1) + 0x7000) 7 0 = 2 + i.val * 4 ∧ t.fld (chBase i) 23 20 = 3 ∧ t.mem = s.mem ∧
        ∀ g, g < 12 → s.hostCh g = i → t.hostCh g = i.val ^^^ 1)) ∧
    (∀ (p : PortId) (ff : Nat), acts 10 → x.rep.index = p → x.rep.detail / 2 ^ 21 = ff → s.far p ff = .free →
      ∃ t, exec (.frameRetire p ff) s = .next t ∧ done t 10 0 ∧ t.far p ff = .withheld ∧ t.mem = s.mem ∧
        t.fld capFarA 27 0 = s.fld capFarA 27 0 - 1 ∧ [10, p.val, ff] ∈ t.dse.gone) ∧
    (∀ (d : IoDie) (u : Nat), acts 11 → u < 18 →
      (x.rep.unit = 0x28 → x.rep.index = 32 * d + u → ∃ t, exec (.unitRetire d u) s = .next t ∧ done t 11 0 ∧
        ((t.eng d).unit u).retired = true ∧ ((t.eng d).unit u).job = none ∧ t.mem = s.mem) ∧
      (x.rep.unit = 0x29 → x.rep.index = d → ∃ t, exec (.unitRetire d u) s = .next t ∧ done t 11 0 ∧
        [12, d.val, x.rep.loc] ∈ t.dse.gone ∧ t.mem = s.mem)) ∧
    (∀ h : HomeId, acts 13 → s.hostCh h = x.rep.index → ∃ t, exec (.homeFence h) s = .next t ∧ (t.home h).fenced = true ∧
      t.fld (chBase x.rep.index) 23 20 = 3 ∧ t.mem = s.mem ∧
      ((∀ g, g < 12 → g = h ∨ s.hostCh g ≠ x.rep.index ∨ (s.home g).fenced = true) → done t 13 4) ∧
      ((∃ g, g < 12 ∧ g ≠ h ∧ s.hostCh g = x.rep.index ∧ (s.home g).fenced = false) → t.ras = s.ras)) ∧
    (∀ (c : CoreId) (pc : Word), let a := s.tileOf c + 0x10080
      let n := s.fld a 33 32 + 1
      let stops (t : State) : Prop := t.flag a 34 = true ∧ (t.core c).run = .stopped ∧ ∃ f, t.reports = s.reports ++ [f] ∧
        f.unit = 0x01 ∧ f.index = s.phys c ∧ f.sev = 2
      (s.profile = 2 → (s.core c).run = .running → n ≤ 3 →
        (∃ t, exec (.lockstepMismatch c pc) s = .next t ∧ t.fld a 15 0 = satN 16 (s.fld a 15 0 + 1) ∧ t.fld a 33 32 = n ∧
          t.rdCsr (s.tileOf c + 0x10088) = pc ∧ t.mem = s.mem ∧ (n = 3 → stops t) ∧ (n < 3 → (t.core c).run = .running)) ∧
        (∃ t, exec (.portDivergence c pc) s = .next t ∧ t.fld a 31 16 = satN 16 (s.fld a 31 16 + 1) ∧ t.fld a 33 32 = n ∧
          t.rdCsr (s.tileOf c + 0x10088) = pc ∧ (n = 3 → stops t) ∧ (n < 3 → { t with csr := s.csr } = s))) ∧
      (s.profile ≠ 2 ∨ (s.core c).run ≠ .running → exec (.lockstepMismatch c pc) s = .next s ∧ exec (.portDivergence c pc) s = .next s))

/-! ## The block as a whole -/

/-- A step takes the command at the front of the queue and executes it on the state with the queue's rest. With an empty
queue the block idles: that is the model's choice (log entry 1). An instruction word put in front is executed as the
instruction that its major opcode and fields name (R172, Tables 6.2 and 6.3): a word of format I as ADDI, one of format
L as LI, one of format B as BNE, and one of format A as ADD. -/
def Obligations.StepRunsFrontCommand : Prop :=
  (∀ (s : State) (i : Instr) (l : List Instr), step { s with pending := i :: l } = exec i { s with pending := l }) ∧
  (∀ s : State, s.pending = [] → step s = .next s) ∧
  (∀ (s : State) (w : Nat) (i : Instr), decodeTableWord 32 w = some i → step (s.withFetchWord 32 w) = exec i s) ∧
  ∀ rd ra rb : Reg,
    (∀ imm : BitVec 17, decodeTableWord 32 (0x01 * 2 ^ 27 + rd * 2 ^ 22 + ra * 2 ^ 17 + imm.toNat) = some (.addi 0 rd ra imm)) ∧
    (∀ imm : BitVec 22, decodeTableWord 32 (0x08 * 2 ^ 27 + rd * 2 ^ 22 + imm.toNat) = some (.li 0 rd imm)) ∧
    (∀ off : BitVec 12, decodeTableWord 32 (0x16 * 2 ^ 27 + ra * 2 ^ 22 + rb * 2 ^ 17 + 1 * 2 ^ 12 + off.toNat) =
      some (.bne 0 ra rb off)) ∧
    decodeTableWord 32 (rd * 2 ^ 22 + ra * 2 ^ 17 + rb * 2 ^ 12 + 0x001) = some (.add 0 rd ra rb)

/-- The state after reset: the queue is empty, every register of the index reads its reset value in the default profile,
no core, queue, engine, port or controller holds anything, no byte of memory is listed, no power is applied to a slot, and
the DSE stands before its first stage. The memory list of that state is in canonical form. Values that the spec does not give are the
model's: log entries 3, 13, 27, 30. -/
def Obligations.ResetState : Prop :=
  State.reset.pending = [] ∧ State.reset.Inv ∧ State.reset.mem = [] ∧ (∀ a, State.reset.rdByte a = 0) ∧
  (∀ a, State.reset.rdCsr a = csrReset State.reset.profile a) ∧ (∀ c, State.reset.core c = Core.reset) ∧
  (∀ p, State.reset.port p = Port.reset) ∧ (∀ d, State.reset.eng d = Engine.reset) ∧ (∀ k, State.reset.toll k = Toll.reset) ∧
  (∀ h, State.reset.home h = Home.reset) ∧ State.reset.net = [] ∧ State.reset.dse = Dse.reset ∧ State.reset.ras = Ras.reset ∧
  State.reset.ctime = 0

/-- Every command, with any operands and in any state, completes: exec answers a next state, which has the same queue.
From a state with the memory list in its canonical form, a step always answers a next state with the list in that form,
and the queue loses the command at its front and nothing else. -/
def Obligations.EveryStepKeepsInvariant : Prop :=
  (∀ (s : State) (i : Instr), ∃ t, exec i s = .next t ∧ t.pending = s.pending ∧ (s.Inv → t.Inv)) ∧
  ∀ s : State, s.Inv → ∃ t, step s = .next t ∧ t.Inv ∧ t.pending = s.pending.tail
end

