-- ==== Sys2Proof/Laws/Sparse.lean ====
section
/-! SUPPORT. Reading after writing a sparse table, and that its operations keep the canonical form. -/

namespace Sys2Proof.Machine

variable {α : Type}

@[simp] theorem Map.get_nil (d : α) (k : Nat) : Map.get d [] k = d := rfl

theorem Map.get_cons (d : α) (a : Nat) (v : α) (m : Map α) (k : Nat) :
    Map.get d ((a, v) :: m) k = if k = a then v else Map.get d m k := rfl

theorem Map.get_del (d : α) (m : Map α) (k j : Nat) :
    Map.get d (Map.del m k) j = if j = k then d else Map.get d m j := by
  induction m with
  | nil => simp [Map.del]
  | cons e m ih =>
    obtain ⟨a, v⟩ := e
    by_cases h : k = a
    · subst h
      simp only [Map.del, if_true, ih, Map.get_cons]
      split <;> simp_all
    · simp only [Map.del, if_neg h, Map.get_cons, ih]
      by_cases hj : j = a
      · subst hj; simp [Ne.symm h]
      · simp [hj]

theorem Map.get_put (d : α) (m : Map α) (k : Nat) (v : α) (j : Nat) :
    Map.get d (Map.put m k v) j = if j = k then v else Map.get d m j := by
  induction m with
  | nil => simp [Map.put, Map.get_cons]
  | cons e m ih =>
    obtain ⟨a, w⟩ := e
    simp only [Map.put]
    split
    · rename_i h
      subst h
      simp only [Map.get_cons]
      split <;> rfl
    · split
      · simp only [Map.get_cons]
      · simp only [Map.get_cons, ih]
        rename_i h _
        by_cases hj : j = a
        · subst hj; simp [Ne.symm h]
        · simp [hj]

/-- A read after a write: the value written at its key, what was there at every other key. -/
theorem Map.get_set [DecidableEq α] (d : α) (m : Map α) (k : Nat) (v : α) (j : Nat) :
    Map.get d (Map.set d m k v) j = if j = k then v else Map.get d m j := by
  unfold Map.set
  split
  · rename_i h
    subst h
    exact Map.get_del v m k j
  · exact Map.get_put d m k v j

@[simp] theorem Map.get_set_same [DecidableEq α] (d : α) (m : Map α) (k : Nat) (v : α) :
    Map.get d (Map.set d m k v) k = v := by simp [Map.get_set]

/-- The other keys read as before, whatever the default they are read with. -/
theorem Map.get_set_ne [DecidableEq α] (d' d : α) (m : Map α) (k : Nat) (v : α) {j : Nat} (h : j ≠ k) :
    Map.get d' (Map.set d m k v) j = Map.get d' m j := by
  unfold Map.set
  split
  · rw [Map.get_del, if_neg h]
  · rw [Map.get_put, if_neg h]

theorem Map.above_mono {b b' : Nat} (h : b' ≤ b) {m : Map α} (ha : Map.above b m = true) : Map.above b' m = true := by
  cases m with
  | nil => rfl
  | cons e m =>
    simp only [Map.above, Bool.and_eq_true, decide_eq_true_eq] at *
    exact ⟨by omega, ha.2⟩

theorem Map.above_del {b : Nat} {m : Map α} (k : Nat) (h : Map.above b m = true) : Map.above b (Map.del m k) = true := by
  induction m generalizing b with
  | nil => rfl
  | cons e m ih =>
    obtain ⟨a, v⟩ := e
    simp only [Map.above, Bool.and_eq_true, decide_eq_true_eq] at h
    simp only [Map.del]
    split
    · exact ih (Map.above_mono (Nat.le_of_lt h.1) h.2)
    · simp only [Map.above, Bool.and_eq_true, decide_eq_true_eq]
      exact ⟨h.1, ih h.2⟩

theorem Map.above_put {b : Nat} {m : Map α} {k : Nat} (v : α) (hk : b < k) (h : Map.above b m = true) :
    Map.above b (Map.put m k v) = true := by
  induction m generalizing b with
  | nil => simp [Map.put, Map.above, hk]
  | cons e m ih =>
    obtain ⟨a, w⟩ := e
    simp only [Map.above, Bool.and_eq_true, decide_eq_true_eq] at h
    simp only [Map.put]
    split
    · rename_i hka
      subst hka
      simp [Map.above, h]
    · split
      · simp only [Map.above, Bool.and_eq_true, decide_eq_true_eq]
        exact ⟨hk, by assumption, h.2⟩
      · simp only [Map.above, Bool.and_eq_true, decide_eq_true_eq]
        exact ⟨h.1, ih (by omega) h.2⟩

theorem Map.rising_del {m : Map α} (k : Nat) (h : Map.rising m = true) : Map.rising (Map.del m k) = true := by
  induction m with
  | nil => rfl
  | cons e m ih =>
    obtain ⟨a, v⟩ := e
    have hm : Map.rising m = true := by
      cases m with
      | nil => rfl
      | cons e' m' =>
        simp only [Map.rising, Map.above, Bool.and_eq_true, decide_eq_true_eq] at *
        exact h.2
    simp only [Map.del]
    split
    · exact ih hm
    · exact Map.above_del k h

theorem Map.rising_put {m : Map α} (k : Nat) (v : α) (h : Map.rising m = true) : Map.rising (Map.put m k v) = true := by
  cases m with
  | nil => rfl
  | cons e m =>
    obtain ⟨a, w⟩ := e
    simp only [Map.put]
    split
    · rename_i hk
      subst hk
      exact h
    · split
      · simp only [Map.rising, Map.above, Bool.and_eq_true, decide_eq_true_eq]
        exact ⟨by assumption, h⟩
      · exact Map.above_put v (by omega) h

theorem Map.all_del {p : Nat × α → Bool} {m : Map α} (k : Nat) (h : m.all p = true) : (Map.del m k).all p = true := by
  induction m with
  | nil => rfl
  | cons e m ih =>
    obtain ⟨a, v⟩ := e
    simp only [List.all_cons, Bool.and_eq_true] at h
    simp only [Map.del]
    split
    · exact ih h.2
    · simp only [List.all_cons, Bool.and_eq_true]
      exact ⟨h.1, ih h.2⟩

theorem Map.all_put {p : Nat × α → Bool} {m : Map α} (k : Nat) (v : α) (hv : p (k, v) = true) (h : m.all p = true) :
    (Map.put m k v).all p = true := by
  induction m with
  | nil => simpa [Map.put] using hv
  | cons e m ih =>
    obtain ⟨a, w⟩ := e
    have h' := h
    simp only [List.all_cons, Bool.and_eq_true] at h
    simp only [Map.put]
    split
    · simp [hv, h]
    · split
      · simp [hv, h]
      · simp only [List.all_cons, Bool.and_eq_true]
        exact ⟨h.1, ih h.2⟩

/-- Writing a key keeps the canonical form. -/
theorem Map.wf_set [DecidableEq α] (d : α) {m : Map α} (k : Nat) (v : α) (h : Map.wf (fun _ => d) m = true) :
    Map.wf (fun _ => d) (Map.set d m k v) = true := by
  simp only [Map.wf, Bool.and_eq_true] at h ⊢
  unfold Map.set
  split
  · exact ⟨Map.rising_del k h.1, Map.all_del k h.2⟩
  · refine ⟨Map.rising_put k v h.1, Map.all_put k v ?_ h.2⟩
    simpa using ‹v ≠ d›

theorem Map.above_filter {b : Nat} (p : Nat × α → Bool) {m : Map α} (h : Map.above b m = true) :
    Map.above b (m.filter p) = true := by
  induction m generalizing b with
  | nil => rfl
  | cons e m ih =>
    obtain ⟨a, v⟩ := e
    simp only [Map.above, Bool.and_eq_true, decide_eq_true_eq] at h
    simp only [List.filter_cons]
    split
    · simp only [Map.above, Bool.and_eq_true, decide_eq_true_eq]
      exact ⟨h.1, ih h.2⟩
    · exact ih (Map.above_mono (Nat.le_of_lt h.1) h.2)

theorem Map.rising_filter (p : Nat × α → Bool) {m : Map α} (h : Map.rising m = true) : Map.rising (m.filter p) = true := by
  induction m with
  | nil => rfl
  | cons e m ih =>
    obtain ⟨a, v⟩ := e
    have hm : Map.rising m = true := by
      cases m with
      | nil => rfl
      | cons e' m' =>
        simp only [Map.rising, Map.above, Bool.and_eq_true, decide_eq_true_eq] at *
        exact h.2
    simp only [List.filter_cons]
    split
    · exact Map.above_filter p h
    · exact ih hm

/-- Entries left out keep the canonical form. -/
theorem Map.wf_filter [DecidableEq α] (d : Nat → α) (p : Nat × α → Bool) {m : Map α} (h : Map.wf d m = true) :
    Map.wf d (m.filter p) = true := by
  simp only [Map.wf, Bool.and_eq_true] at h ⊢
  refine ⟨Map.rising_filter p h.1, ?_⟩
  have := h.2
  simp only [List.all_eq_true, List.mem_filter] at this ⊢
  exact fun x hx => this x hx.1

/-- What a search answers: the first number in its range that satisfies the test. -/
theorem findFrom_some {p : Nat → Bool} {i n j : Nat} (h : findFrom p i n = some j) :
    p j = true ∧ i ≤ j ∧ j < i + n ∧ ∀ k, i ≤ k → k < j → p k = false := by
  induction n generalizing i with
  | zero => cases h
  | succ n ih =>
    simp only [findFrom] at h
    split at h
    · rename_i hp
      cases h
      exact ⟨hp, Nat.le_refl _, by omega, fun k h1 h2 => by omega⟩
    · rename_i hp
      obtain ⟨h1, h2, h3, h4⟩ := ih h
      refine ⟨h1, by omega, by omega, fun k h5 h6 => ?_⟩
      by_cases hk : k = i
      · subst hk; simpa using hp
      · exact h4 k (by omega) h6

/-- A search that answers none met no number that satisfies the test. -/
theorem findFrom_none {p : Nat → Bool} {i n : Nat} (h : findFrom p i n = none) : ∀ k, i ≤ k → k < i + n → p k = false := by
  induction n generalizing i with
  | zero => intro k h1 h2; omega
  | succ n ih =>
    simp only [findFrom] at h
    split at h
    · cases h
    · rename_i hp
      intro k h1 h2
      by_cases hk : k = i
      · subst hk; simpa using hp
      · exact ih h k (by omega) (by omega)

end Sys2Proof.Machine
end

