-- ==== Sys2Proof/Laws/State.lean ====
section
/-! SUPPORT. What each update of the state leaves unchanged, field by field. -/

namespace Sys2Proof.Machine
open Sys2Proof

/-! ### State.setCore -/

@[simp] theorem State.setCore_pending (s : State) (c : Nat) (k : Core) : (s.setCore c k).pending = s.pending := rfl
@[simp] theorem State.setCore_free (s : State) (c : Nat) (k : Core) : (s.setCore c k).free = s.free := rfl
@[simp] theorem State.setCore_ctime (s : State) (c : Nat) (k : Core) : (s.setCore c k).ctime = s.ctime := rfl
@[simp] theorem State.setCore_csr (s : State) (c : Nat) (k : Core) : (s.setCore c k).csr = s.csr := rfl
@[simp] theorem State.setCore_cfg (s : State) (c : Nat) (k : Core) : (s.setCore c k).cfg = s.cfg := rfl
@[simp] theorem State.setCore_snap (s : State) (c : Nat) (k : Core) : (s.setCore c k).snap = s.snap := rfl
@[simp] theorem State.setCore_rej (s : State) (c : Nat) (k : Core) : (s.setCore c k).rej = s.rej := rfl
@[simp] theorem State.setCore_mem (s : State) (c : Nat) (k : Core) : (s.setCore c k).mem = s.mem := rfl
@[simp] theorem State.setCore_poison (s : State) (c : Nat) (k : Core) : (s.setCore c k).poison = s.poison := rfl
@[simp] theorem State.setCore_l2 (s : State) (c : Nat) (k : Core) : (s.setCore c k).l2 = s.l2 := rfl
@[simp] theorem State.setCore_dir (s : State) (c : Nat) (k : Core) : (s.setCore c k).dir = s.dir := rfl
@[simp] theorem State.setCore_dtags (s : State) (c : Nat) (k : Core) : (s.setCore c k).dtags = s.dtags := rfl
@[simp] theorem State.setCore_plru (s : State) (c : Nat) (k : Core) : (s.setCore c k).plru = s.plru := rfl
@[simp] theorem State.setCore_nru (s : State) (c : Nat) (k : Core) : (s.setCore c k).nru = s.nru := rfl
@[simp] theorem State.setCore_pfs (s : State) (c : Nat) (k : Core) : (s.setCore c k).pfs = s.pfs := rfl
@[simp] theorem State.setCore_net (s : State) (c : Nat) (k : Core) : (s.setCore c k).net = s.net := rfl
@[simp] theorem State.setCore_held (s : State) (c : Nat) (k : Core) : (s.setCore c k).held = s.held := rfl
@[simp] theorem State.setCore_marks (s : State) (c : Nat) (k : Core) : (s.setCore c k).marks = s.marks := rfl
@[simp] theorem State.setCore_bufs (s : State) (c : Nat) (k : Core) : (s.setCore c k).bufs = s.bufs := rfl
@[simp] theorem State.setCore_rrs (s : State) (c : Nat) (k : Core) : (s.setCore c k).rrs = s.rrs := rfl
@[simp] theorem State.setCore_arrived (s : State) (c : Nat) (k : Core) : (s.setCore c k).arrived = s.arrived := rfl
@[simp] theorem State.setCore_txwait (s : State) (c : Nat) (k : Core) : (s.setCore c k).txwait = s.txwait := rfl
@[simp] theorem State.setCore_leaving (s : State) (c : Nat) (k : Core) : (s.setCore c k).leaving = s.leaving := rfl
@[simp] theorem State.setCore_sweepAt (s : State) (c : Nat) (k : Core) : (s.setCore c k).sweepAt = s.sweepAt := rfl
@[simp] theorem State.setCore_stale (s : State) (c : Nat) (k : Core) : (s.setCore c k).stale = s.stale := rfl
@[simp] theorem State.setCore_outst (s : State) (c : Nat) (k : Core) : (s.setCore c k).outst = s.outst := rfl
@[simp] theorem State.setCore_bcasts (s : State) (c : Nat) (k : Core) : (s.setCore c k).bcasts = s.bcasts := rfl
@[simp] theorem State.setCore_nextId (s : State) (c : Nat) (k : Core) : (s.setCore c k).nextId = s.nextId := rfl
@[simp] theorem State.setCore_layout (s : State) (c : Nat) (k : Core) : (s.setCore c k).layout = s.layout := rfl
@[simp] theorem State.setCore_remap (s : State) (c : Nat) (k : Core) : (s.setCore c k).remap = s.remap := rfl
@[simp] theorem State.setCore_rstale (s : State) (c : Nat) (k : Core) : (s.setCore c k).rstale = s.rstale := rfl
@[simp] theorem State.setCore_dirPages (s : State) (c : Nat) (k : Core) : (s.setCore c k).dirPages = s.dirPages := rfl
@[simp] theorem State.setCore_images (s : State) (c : Nat) (k : Core) : (s.setCore c k).images = s.images := rfl
@[simp] theorem State.setCore_farUse (s : State) (c : Nat) (k : Core) : (s.setCore c k).farUse = s.farUse := rfl
@[simp] theorem State.setCore_nearSys (s : State) (c : Nat) (k : Core) : (s.setCore c k).nearSys = s.nearSys := rfl
@[simp] theorem State.setCore_near (s : State) (c : Nat) (k : Core) : (s.setCore c k).near = s.near := rfl
@[simp] theorem State.setCore_homeLog (s : State) (c : Nat) (k : Core) : (s.setCore c k).homeLog = s.homeLog := rfl
@[simp] theorem State.setCore_reports (s : State) (c : Nat) (k : Core) : (s.setCore c k).reports = s.reports := rfl
@[simp] theorem State.setCore_slots (s : State) (c : Nat) (k : Core) : (s.setCore c k).slots = s.slots := rfl
@[simp] theorem State.setCore_homes (s : State) (c : Nat) (k : Core) : (s.setCore c k).homes = s.homes := rfl
@[simp] theorem State.setCore_hagts (s : State) (c : Nat) (k : Core) : (s.setCore c k).hagts = s.hagts := rfl
@[simp] theorem State.setCore_coord (s : State) (c : Nat) (k : Core) : (s.setCore c k).coord = s.coord := rfl
@[simp] theorem State.setCore_tolls (s : State) (c : Nat) (k : Core) : (s.setCore c k).tolls = s.tolls := rfl
@[simp] theorem State.setCore_dvfs (s : State) (c : Nat) (k : Core) : (s.setCore c k).dvfs = s.dvfs := rfl
@[simp] theorem State.setCore_temps (s : State) (c : Nat) (k : Core) : (s.setCore c k).temps = s.temps := rfl
@[simp] theorem State.setCore_thermAt (s : State) (c : Nat) (k : Core) : (s.setCore c k).thermAt = s.thermAt := rfl
@[simp] theorem State.setCore_hotAt (s : State) (c : Nat) (k : Core) : (s.setCore c k).hotAt = s.hotAt := rfl
@[simp] theorem State.setCore_poolCut (s : State) (c : Nat) (k : Core) : (s.setCore c k).poolCut = s.poolCut := rfl
@[simp] theorem State.setCore_downDom (s : State) (c : Nat) (k : Core) : (s.setCore c k).downDom = s.downDom := rfl
@[simp] theorem State.setCore_engs (s : State) (c : Nat) (k : Core) : (s.setCore c k).engs = s.engs := rfl
@[simp] theorem State.setCore_fwds (s : State) (c : Nat) (k : Core) : (s.setCore c k).fwds = s.fwds := rfl
@[simp] theorem State.setCore_joins (s : State) (c : Nat) (k : Core) : (s.setCore c k).joins = s.joins := rfl
@[simp] theorem State.setCore_ledgQ (s : State) (c : Nat) (k : Core) : (s.setCore c k).ledgQ = s.ledgQ := rfl
@[simp] theorem State.setCore_reqs (s : State) (c : Nat) (k : Core) : (s.setCore c k).reqs = s.reqs := rfl
@[simp] theorem State.setCore_reqAt (s : State) (c : Nat) (k : Core) : (s.setCore c k).reqAt = s.reqAt := rfl
@[simp] theorem State.setCore_busyAt (s : State) (c : Nat) (k : Core) : (s.setCore c k).busyAt = s.busyAt := rfl
@[simp] theorem State.setCore_bucket (s : State) (c : Nat) (k : Core) : (s.setCore c k).bucket = s.bucket := rfl
@[simp] theorem State.setCore_loans (s : State) (c : Nat) (k : Core) : (s.setCore c k).loans = s.loans := rfl
@[simp] theorem State.setCore_thermFloor (s : State) (c : Nat) (k : Core) : (s.setCore c k).thermFloor = s.thermFloor := rfl
@[simp] theorem State.setCore_thermOn (s : State) (c : Nat) (k : Core) : (s.setCore c k).thermOn = s.thermOn := rfl
@[simp] theorem State.setCore_fuses (s : State) (c : Nat) (k : Core) : (s.setCore c k).fuses = s.fuses := rfl
@[simp] theorem State.setCore_flash (s : State) (c : Nat) (k : Core) : (s.setCore c k).flash = s.flash := rfl
@[simp] theorem State.setCore_dse (s : State) (c : Nat) (k : Core) : (s.setCore c k).dse = s.dse := rfl
@[simp] theorem State.setCore_pins (s : State) (c : Nat) (k : Core) : (s.setCore c k).pins = s.pins := rfl
@[simp] theorem State.setCore_ras (s : State) (c : Nat) (k : Core) : (s.setCore c k).ras = s.ras := rfl
@[simp] theorem State.setCore_tagLfsr (s : State) (c : Nat) (k : Core) : (s.setCore c k).tagLfsr = s.tagLfsr := rfl
@[simp] theorem State.setCore_tagT0 (s : State) (c : Nat) (k : Core) : (s.setCore c k).tagT0 = s.tagT0 := rfl
@[simp] theorem State.setCore_ports (s : State) (c : Nat) (k : Core) : (s.setCore c k).ports = s.ports := rfl
@[simp] theorem State.setCore_iots (s : State) (c : Nat) (k : Core) : (s.setCore c k).iots = s.iots := rfl
@[simp] theorem State.setCore_csrRsp (s : State) (c : Nat) (k : Core) : (s.setCore c k).csrRsp = s.csrRsp := rfl
@[simp] theorem State.setCore_dvfsAt (s : State) (c : Nat) (k : Core) : (s.setCore c k).dvfsAt = s.dvfsAt := rfl
@[simp] theorem State.setCore_dvfsNext (s : State) (c : Nat) (k : Core) : (s.setCore c k).dvfsNext = s.dvfsNext := rfl

/-! ### State.modCore -/

@[simp] theorem State.modCore_pending (s : State) (c : Nat) (f : Core → Core) : (s.modCore c f).pending = s.pending := rfl
@[simp] theorem State.modCore_free (s : State) (c : Nat) (f : Core → Core) : (s.modCore c f).free = s.free := rfl
@[simp] theorem State.modCore_ctime (s : State) (c : Nat) (f : Core → Core) : (s.modCore c f).ctime = s.ctime := rfl
@[simp] theorem State.modCore_csr (s : State) (c : Nat) (f : Core → Core) : (s.modCore c f).csr = s.csr := rfl
@[simp] theorem State.modCore_cfg (s : State) (c : Nat) (f : Core → Core) : (s.modCore c f).cfg = s.cfg := rfl
@[simp] theorem State.modCore_snap (s : State) (c : Nat) (f : Core → Core) : (s.modCore c f).snap = s.snap := rfl
@[simp] theorem State.modCore_rej (s : State) (c : Nat) (f : Core → Core) : (s.modCore c f).rej = s.rej := rfl
@[simp] theorem State.modCore_mem (s : State) (c : Nat) (f : Core → Core) : (s.modCore c f).mem = s.mem := rfl
@[simp] theorem State.modCore_poison (s : State) (c : Nat) (f : Core → Core) : (s.modCore c f).poison = s.poison := rfl
@[simp] theorem State.modCore_l2 (s : State) (c : Nat) (f : Core → Core) : (s.modCore c f).l2 = s.l2 := rfl
@[simp] theorem State.modCore_dir (s : State) (c : Nat) (f : Core → Core) : (s.modCore c f).dir = s.dir := rfl
@[simp] theorem State.modCore_dtags (s : State) (c : Nat) (f : Core → Core) : (s.modCore c f).dtags = s.dtags := rfl
@[simp] theorem State.modCore_plru (s : State) (c : Nat) (f : Core → Core) : (s.modCore c f).plru = s.plru := rfl
@[simp] theorem State.modCore_nru (s : State) (c : Nat) (f : Core → Core) : (s.modCore c f).nru = s.nru := rfl
@[simp] theorem State.modCore_pfs (s : State) (c : Nat) (f : Core → Core) : (s.modCore c f).pfs = s.pfs := rfl
@[simp] theorem State.modCore_net (s : State) (c : Nat) (f : Core → Core) : (s.modCore c f).net = s.net := rfl
@[simp] theorem State.modCore_held (s : State) (c : Nat) (f : Core → Core) : (s.modCore c f).held = s.held := rfl
@[simp] theorem State.modCore_marks (s : State) (c : Nat) (f : Core → Core) : (s.modCore c f).marks = s.marks := rfl
@[simp] theorem State.modCore_bufs (s : State) (c : Nat) (f : Core → Core) : (s.modCore c f).bufs = s.bufs := rfl
@[simp] theorem State.modCore_rrs (s : State) (c : Nat) (f : Core → Core) : (s.modCore c f).rrs = s.rrs := rfl
@[simp] theorem State.modCore_arrived (s : State) (c : Nat) (f : Core → Core) : (s.modCore c f).arrived = s.arrived := rfl
@[simp] theorem State.modCore_txwait (s : State) (c : Nat) (f : Core → Core) : (s.modCore c f).txwait = s.txwait := rfl
@[simp] theorem State.modCore_leaving (s : State) (c : Nat) (f : Core → Core) : (s.modCore c f).leaving = s.leaving := rfl
@[simp] theorem State.modCore_sweepAt (s : State) (c : Nat) (f : Core → Core) : (s.modCore c f).sweepAt = s.sweepAt := rfl
@[simp] theorem State.modCore_stale (s : State) (c : Nat) (f : Core → Core) : (s.modCore c f).stale = s.stale := rfl
@[simp] theorem State.modCore_outst (s : State) (c : Nat) (f : Core → Core) : (s.modCore c f).outst = s.outst := rfl
@[simp] theorem State.modCore_bcasts (s : State) (c : Nat) (f : Core → Core) : (s.modCore c f).bcasts = s.bcasts := rfl
@[simp] theorem State.modCore_nextId (s : State) (c : Nat) (f : Core → Core) : (s.modCore c f).nextId = s.nextId := rfl
@[simp] theorem State.modCore_layout (s : State) (c : Nat) (f : Core → Core) : (s.modCore c f).layout = s.layout := rfl
@[simp] theorem State.modCore_remap (s : State) (c : Nat) (f : Core → Core) : (s.modCore c f).remap = s.remap := rfl
@[simp] theorem State.modCore_rstale (s : State) (c : Nat) (f : Core → Core) : (s.modCore c f).rstale = s.rstale := rfl
@[simp] theorem State.modCore_dirPages (s : State) (c : Nat) (f : Core → Core) : (s.modCore c f).dirPages = s.dirPages := rfl
@[simp] theorem State.modCore_images (s : State) (c : Nat) (f : Core → Core) : (s.modCore c f).images = s.images := rfl
@[simp] theorem State.modCore_farUse (s : State) (c : Nat) (f : Core → Core) : (s.modCore c f).farUse = s.farUse := rfl
@[simp] theorem State.modCore_nearSys (s : State) (c : Nat) (f : Core → Core) : (s.modCore c f).nearSys = s.nearSys := rfl
@[simp] theorem State.modCore_near (s : State) (c : Nat) (f : Core → Core) : (s.modCore c f).near = s.near := rfl
@[simp] theorem State.modCore_homeLog (s : State) (c : Nat) (f : Core → Core) : (s.modCore c f).homeLog = s.homeLog := rfl
@[simp] theorem State.modCore_reports (s : State) (c : Nat) (f : Core → Core) : (s.modCore c f).reports = s.reports := rfl
@[simp] theorem State.modCore_slots (s : State) (c : Nat) (f : Core → Core) : (s.modCore c f).slots = s.slots := rfl
@[simp] theorem State.modCore_homes (s : State) (c : Nat) (f : Core → Core) : (s.modCore c f).homes = s.homes := rfl
@[simp] theorem State.modCore_hagts (s : State) (c : Nat) (f : Core → Core) : (s.modCore c f).hagts = s.hagts := rfl
@[simp] theorem State.modCore_coord (s : State) (c : Nat) (f : Core → Core) : (s.modCore c f).coord = s.coord := rfl
@[simp] theorem State.modCore_tolls (s : State) (c : Nat) (f : Core → Core) : (s.modCore c f).tolls = s.tolls := rfl
@[simp] theorem State.modCore_dvfs (s : State) (c : Nat) (f : Core → Core) : (s.modCore c f).dvfs = s.dvfs := rfl
@[simp] theorem State.modCore_temps (s : State) (c : Nat) (f : Core → Core) : (s.modCore c f).temps = s.temps := rfl
@[simp] theorem State.modCore_thermAt (s : State) (c : Nat) (f : Core → Core) : (s.modCore c f).thermAt = s.thermAt := rfl
@[simp] theorem State.modCore_hotAt (s : State) (c : Nat) (f : Core → Core) : (s.modCore c f).hotAt = s.hotAt := rfl
@[simp] theorem State.modCore_poolCut (s : State) (c : Nat) (f : Core → Core) : (s.modCore c f).poolCut = s.poolCut := rfl
@[simp] theorem State.modCore_downDom (s : State) (c : Nat) (f : Core → Core) : (s.modCore c f).downDom = s.downDom := rfl
@[simp] theorem State.modCore_engs (s : State) (c : Nat) (f : Core → Core) : (s.modCore c f).engs = s.engs := rfl
@[simp] theorem State.modCore_fwds (s : State) (c : Nat) (f : Core → Core) : (s.modCore c f).fwds = s.fwds := rfl
@[simp] theorem State.modCore_joins (s : State) (c : Nat) (f : Core → Core) : (s.modCore c f).joins = s.joins := rfl
@[simp] theorem State.modCore_ledgQ (s : State) (c : Nat) (f : Core → Core) : (s.modCore c f).ledgQ = s.ledgQ := rfl
@[simp] theorem State.modCore_reqs (s : State) (c : Nat) (f : Core → Core) : (s.modCore c f).reqs = s.reqs := rfl
@[simp] theorem State.modCore_reqAt (s : State) (c : Nat) (f : Core → Core) : (s.modCore c f).reqAt = s.reqAt := rfl
@[simp] theorem State.modCore_busyAt (s : State) (c : Nat) (f : Core → Core) : (s.modCore c f).busyAt = s.busyAt := rfl
@[simp] theorem State.modCore_bucket (s : State) (c : Nat) (f : Core → Core) : (s.modCore c f).bucket = s.bucket := rfl
@[simp] theorem State.modCore_loans (s : State) (c : Nat) (f : Core → Core) : (s.modCore c f).loans = s.loans := rfl
@[simp] theorem State.modCore_thermFloor (s : State) (c : Nat) (f : Core → Core) : (s.modCore c f).thermFloor = s.thermFloor := rfl
@[simp] theorem State.modCore_thermOn (s : State) (c : Nat) (f : Core → Core) : (s.modCore c f).thermOn = s.thermOn := rfl
@[simp] theorem State.modCore_fuses (s : State) (c : Nat) (f : Core → Core) : (s.modCore c f).fuses = s.fuses := rfl
@[simp] theorem State.modCore_flash (s : State) (c : Nat) (f : Core → Core) : (s.modCore c f).flash = s.flash := rfl
@[simp] theorem State.modCore_dse (s : State) (c : Nat) (f : Core → Core) : (s.modCore c f).dse = s.dse := rfl
@[simp] theorem State.modCore_pins (s : State) (c : Nat) (f : Core → Core) : (s.modCore c f).pins = s.pins := rfl
@[simp] theorem State.modCore_ras (s : State) (c : Nat) (f : Core → Core) : (s.modCore c f).ras = s.ras := rfl
@[simp] theorem State.modCore_tagLfsr (s : State) (c : Nat) (f : Core → Core) : (s.modCore c f).tagLfsr = s.tagLfsr := rfl
@[simp] theorem State.modCore_tagT0 (s : State) (c : Nat) (f : Core → Core) : (s.modCore c f).tagT0 = s.tagT0 := rfl
@[simp] theorem State.modCore_ports (s : State) (c : Nat) (f : Core → Core) : (s.modCore c f).ports = s.ports := rfl
@[simp] theorem State.modCore_iots (s : State) (c : Nat) (f : Core → Core) : (s.modCore c f).iots = s.iots := rfl
@[simp] theorem State.modCore_csrRsp (s : State) (c : Nat) (f : Core → Core) : (s.modCore c f).csrRsp = s.csrRsp := rfl
@[simp] theorem State.modCore_dvfsAt (s : State) (c : Nat) (f : Core → Core) : (s.modCore c f).dvfsAt = s.dvfsAt := rfl
@[simp] theorem State.modCore_dvfsNext (s : State) (c : Nat) (f : Core → Core) : (s.modCore c f).dvfsNext = s.dvfsNext := rfl

/-! ### State.wrCsr -/

@[simp] theorem State.wrCsr_pending (s : State) (a : Nat) (v : Word) : (s.wrCsr a v).pending = s.pending := rfl
@[simp] theorem State.wrCsr_free (s : State) (a : Nat) (v : Word) : (s.wrCsr a v).free = s.free := rfl
@[simp] theorem State.wrCsr_ctime (s : State) (a : Nat) (v : Word) : (s.wrCsr a v).ctime = s.ctime := rfl
@[simp] theorem State.wrCsr_cfg (s : State) (a : Nat) (v : Word) : (s.wrCsr a v).cfg = s.cfg := rfl
@[simp] theorem State.wrCsr_snap (s : State) (a : Nat) (v : Word) : (s.wrCsr a v).snap = s.snap := rfl
@[simp] theorem State.wrCsr_rej (s : State) (a : Nat) (v : Word) : (s.wrCsr a v).rej = s.rej := rfl
@[simp] theorem State.wrCsr_cores (s : State) (a : Nat) (v : Word) : (s.wrCsr a v).cores = s.cores := rfl
@[simp] theorem State.wrCsr_mem (s : State) (a : Nat) (v : Word) : (s.wrCsr a v).mem = s.mem := rfl
@[simp] theorem State.wrCsr_poison (s : State) (a : Nat) (v : Word) : (s.wrCsr a v).poison = s.poison := rfl
@[simp] theorem State.wrCsr_l2 (s : State) (a : Nat) (v : Word) : (s.wrCsr a v).l2 = s.l2 := rfl
@[simp] theorem State.wrCsr_dir (s : State) (a : Nat) (v : Word) : (s.wrCsr a v).dir = s.dir := rfl
@[simp] theorem State.wrCsr_dtags (s : State) (a : Nat) (v : Word) : (s.wrCsr a v).dtags = s.dtags := rfl
@[simp] theorem State.wrCsr_plru (s : State) (a : Nat) (v : Word) : (s.wrCsr a v).plru = s.plru := rfl
@[simp] theorem State.wrCsr_nru (s : State) (a : Nat) (v : Word) : (s.wrCsr a v).nru = s.nru := rfl
@[simp] theorem State.wrCsr_pfs (s : State) (a : Nat) (v : Word) : (s.wrCsr a v).pfs = s.pfs := rfl
@[simp] theorem State.wrCsr_net (s : State) (a : Nat) (v : Word) : (s.wrCsr a v).net = s.net := rfl
@[simp] theorem State.wrCsr_held (s : State) (a : Nat) (v : Word) : (s.wrCsr a v).held = s.held := rfl
@[simp] theorem State.wrCsr_marks (s : State) (a : Nat) (v : Word) : (s.wrCsr a v).marks = s.marks := rfl
@[simp] theorem State.wrCsr_bufs (s : State) (a : Nat) (v : Word) : (s.wrCsr a v).bufs = s.bufs := rfl
@[simp] theorem State.wrCsr_rrs (s : State) (a : Nat) (v : Word) : (s.wrCsr a v).rrs = s.rrs := rfl
@[simp] theorem State.wrCsr_arrived (s : State) (a : Nat) (v : Word) : (s.wrCsr a v).arrived = s.arrived := rfl
@[simp] theorem State.wrCsr_txwait (s : State) (a : Nat) (v : Word) : (s.wrCsr a v).txwait = s.txwait := rfl
@[simp] theorem State.wrCsr_leaving (s : State) (a : Nat) (v : Word) : (s.wrCsr a v).leaving = s.leaving := rfl
@[simp] theorem State.wrCsr_sweepAt (s : State) (a : Nat) (v : Word) : (s.wrCsr a v).sweepAt = s.sweepAt := rfl
@[simp] theorem State.wrCsr_stale (s : State) (a : Nat) (v : Word) : (s.wrCsr a v).stale = s.stale := rfl
@[simp] theorem State.wrCsr_outst (s : State) (a : Nat) (v : Word) : (s.wrCsr a v).outst = s.outst := rfl
@[simp] theorem State.wrCsr_bcasts (s : State) (a : Nat) (v : Word) : (s.wrCsr a v).bcasts = s.bcasts := rfl
@[simp] theorem State.wrCsr_nextId (s : State) (a : Nat) (v : Word) : (s.wrCsr a v).nextId = s.nextId := rfl
@[simp] theorem State.wrCsr_layout (s : State) (a : Nat) (v : Word) : (s.wrCsr a v).layout = s.layout := rfl
@[simp] theorem State.wrCsr_remap (s : State) (a : Nat) (v : Word) : (s.wrCsr a v).remap = s.remap := rfl
@[simp] theorem State.wrCsr_rstale (s : State) (a : Nat) (v : Word) : (s.wrCsr a v).rstale = s.rstale := rfl
@[simp] theorem State.wrCsr_dirPages (s : State) (a : Nat) (v : Word) : (s.wrCsr a v).dirPages = s.dirPages := rfl
@[simp] theorem State.wrCsr_images (s : State) (a : Nat) (v : Word) : (s.wrCsr a v).images = s.images := rfl
@[simp] theorem State.wrCsr_farUse (s : State) (a : Nat) (v : Word) : (s.wrCsr a v).farUse = s.farUse := rfl
@[simp] theorem State.wrCsr_nearSys (s : State) (a : Nat) (v : Word) : (s.wrCsr a v).nearSys = s.nearSys := rfl
@[simp] theorem State.wrCsr_near (s : State) (a : Nat) (v : Word) : (s.wrCsr a v).near = s.near := rfl
@[simp] theorem State.wrCsr_homeLog (s : State) (a : Nat) (v : Word) : (s.wrCsr a v).homeLog = s.homeLog := rfl
@[simp] theorem State.wrCsr_reports (s : State) (a : Nat) (v : Word) : (s.wrCsr a v).reports = s.reports := rfl
@[simp] theorem State.wrCsr_slots (s : State) (a : Nat) (v : Word) : (s.wrCsr a v).slots = s.slots := rfl
@[simp] theorem State.wrCsr_homes (s : State) (a : Nat) (v : Word) : (s.wrCsr a v).homes = s.homes := rfl
@[simp] theorem State.wrCsr_hagts (s : State) (a : Nat) (v : Word) : (s.wrCsr a v).hagts = s.hagts := rfl
@[simp] theorem State.wrCsr_coord (s : State) (a : Nat) (v : Word) : (s.wrCsr a v).coord = s.coord := rfl
@[simp] theorem State.wrCsr_tolls (s : State) (a : Nat) (v : Word) : (s.wrCsr a v).tolls = s.tolls := rfl
@[simp] theorem State.wrCsr_dvfs (s : State) (a : Nat) (v : Word) : (s.wrCsr a v).dvfs = s.dvfs := rfl
@[simp] theorem State.wrCsr_temps (s : State) (a : Nat) (v : Word) : (s.wrCsr a v).temps = s.temps := rfl
@[simp] theorem State.wrCsr_thermAt (s : State) (a : Nat) (v : Word) : (s.wrCsr a v).thermAt = s.thermAt := rfl
@[simp] theorem State.wrCsr_hotAt (s : State) (a : Nat) (v : Word) : (s.wrCsr a v).hotAt = s.hotAt := rfl
@[simp] theorem State.wrCsr_poolCut (s : State) (a : Nat) (v : Word) : (s.wrCsr a v).poolCut = s.poolCut := rfl
@[simp] theorem State.wrCsr_downDom (s : State) (a : Nat) (v : Word) : (s.wrCsr a v).downDom = s.downDom := rfl
@[simp] theorem State.wrCsr_engs (s : State) (a : Nat) (v : Word) : (s.wrCsr a v).engs = s.engs := rfl
@[simp] theorem State.wrCsr_fwds (s : State) (a : Nat) (v : Word) : (s.wrCsr a v).fwds = s.fwds := rfl
@[simp] theorem State.wrCsr_joins (s : State) (a : Nat) (v : Word) : (s.wrCsr a v).joins = s.joins := rfl
@[simp] theorem State.wrCsr_ledgQ (s : State) (a : Nat) (v : Word) : (s.wrCsr a v).ledgQ = s.ledgQ := rfl
@[simp] theorem State.wrCsr_reqs (s : State) (a : Nat) (v : Word) : (s.wrCsr a v).reqs = s.reqs := rfl
@[simp] theorem State.wrCsr_reqAt (s : State) (a : Nat) (v : Word) : (s.wrCsr a v).reqAt = s.reqAt := rfl
@[simp] theorem State.wrCsr_busyAt (s : State) (a : Nat) (v : Word) : (s.wrCsr a v).busyAt = s.busyAt := rfl
@[simp] theorem State.wrCsr_bucket (s : State) (a : Nat) (v : Word) : (s.wrCsr a v).bucket = s.bucket := rfl
@[simp] theorem State.wrCsr_loans (s : State) (a : Nat) (v : Word) : (s.wrCsr a v).loans = s.loans := rfl
@[simp] theorem State.wrCsr_thermFloor (s : State) (a : Nat) (v : Word) : (s.wrCsr a v).thermFloor = s.thermFloor := rfl
@[simp] theorem State.wrCsr_thermOn (s : State) (a : Nat) (v : Word) : (s.wrCsr a v).thermOn = s.thermOn := rfl
@[simp] theorem State.wrCsr_fuses (s : State) (a : Nat) (v : Word) : (s.wrCsr a v).fuses = s.fuses := rfl
@[simp] theorem State.wrCsr_flash (s : State) (a : Nat) (v : Word) : (s.wrCsr a v).flash = s.flash := rfl
@[simp] theorem State.wrCsr_dse (s : State) (a : Nat) (v : Word) : (s.wrCsr a v).dse = s.dse := rfl
@[simp] theorem State.wrCsr_pins (s : State) (a : Nat) (v : Word) : (s.wrCsr a v).pins = s.pins := rfl
@[simp] theorem State.wrCsr_ras (s : State) (a : Nat) (v : Word) : (s.wrCsr a v).ras = s.ras := rfl
@[simp] theorem State.wrCsr_tagLfsr (s : State) (a : Nat) (v : Word) : (s.wrCsr a v).tagLfsr = s.tagLfsr := rfl
@[simp] theorem State.wrCsr_tagT0 (s : State) (a : Nat) (v : Word) : (s.wrCsr a v).tagT0 = s.tagT0 := rfl
@[simp] theorem State.wrCsr_ports (s : State) (a : Nat) (v : Word) : (s.wrCsr a v).ports = s.ports := rfl
@[simp] theorem State.wrCsr_iots (s : State) (a : Nat) (v : Word) : (s.wrCsr a v).iots = s.iots := rfl
@[simp] theorem State.wrCsr_csrRsp (s : State) (a : Nat) (v : Word) : (s.wrCsr a v).csrRsp = s.csrRsp := rfl
@[simp] theorem State.wrCsr_dvfsAt (s : State) (a : Nat) (v : Word) : (s.wrCsr a v).dvfsAt = s.dvfsAt := rfl
@[simp] theorem State.wrCsr_dvfsNext (s : State) (a : Nat) (v : Word) : (s.wrCsr a v).dvfsNext = s.dvfsNext := rfl

/-! ### State.putFld -/

@[simp] theorem State.putFld_pending (s : State) (a hi lo v : Nat) : (s.putFld a hi lo v).pending = s.pending := rfl
@[simp] theorem State.putFld_free (s : State) (a hi lo v : Nat) : (s.putFld a hi lo v).free = s.free := rfl
@[simp] theorem State.putFld_ctime (s : State) (a hi lo v : Nat) : (s.putFld a hi lo v).ctime = s.ctime := rfl
@[simp] theorem State.putFld_cfg (s : State) (a hi lo v : Nat) : (s.putFld a hi lo v).cfg = s.cfg := rfl
@[simp] theorem State.putFld_snap (s : State) (a hi lo v : Nat) : (s.putFld a hi lo v).snap = s.snap := rfl
@[simp] theorem State.putFld_rej (s : State) (a hi lo v : Nat) : (s.putFld a hi lo v).rej = s.rej := rfl
@[simp] theorem State.putFld_cores (s : State) (a hi lo v : Nat) : (s.putFld a hi lo v).cores = s.cores := rfl
@[simp] theorem State.putFld_mem (s : State) (a hi lo v : Nat) : (s.putFld a hi lo v).mem = s.mem := rfl
@[simp] theorem State.putFld_poison (s : State) (a hi lo v : Nat) : (s.putFld a hi lo v).poison = s.poison := rfl
@[simp] theorem State.putFld_l2 (s : State) (a hi lo v : Nat) : (s.putFld a hi lo v).l2 = s.l2 := rfl
@[simp] theorem State.putFld_dir (s : State) (a hi lo v : Nat) : (s.putFld a hi lo v).dir = s.dir := rfl
@[simp] theorem State.putFld_dtags (s : State) (a hi lo v : Nat) : (s.putFld a hi lo v).dtags = s.dtags := rfl
@[simp] theorem State.putFld_plru (s : State) (a hi lo v : Nat) : (s.putFld a hi lo v).plru = s.plru := rfl
@[simp] theorem State.putFld_nru (s : State) (a hi lo v : Nat) : (s.putFld a hi lo v).nru = s.nru := rfl
@[simp] theorem State.putFld_pfs (s : State) (a hi lo v : Nat) : (s.putFld a hi lo v).pfs = s.pfs := rfl
@[simp] theorem State.putFld_net (s : State) (a hi lo v : Nat) : (s.putFld a hi lo v).net = s.net := rfl
@[simp] theorem State.putFld_held (s : State) (a hi lo v : Nat) : (s.putFld a hi lo v).held = s.held := rfl
@[simp] theorem State.putFld_marks (s : State) (a hi lo v : Nat) : (s.putFld a hi lo v).marks = s.marks := rfl
@[simp] theorem State.putFld_bufs (s : State) (a hi lo v : Nat) : (s.putFld a hi lo v).bufs = s.bufs := rfl
@[simp] theorem State.putFld_rrs (s : State) (a hi lo v : Nat) : (s.putFld a hi lo v).rrs = s.rrs := rfl
@[simp] theorem State.putFld_arrived (s : State) (a hi lo v : Nat) : (s.putFld a hi lo v).arrived = s.arrived := rfl
@[simp] theorem State.putFld_txwait (s : State) (a hi lo v : Nat) : (s.putFld a hi lo v).txwait = s.txwait := rfl
@[simp] theorem State.putFld_leaving (s : State) (a hi lo v : Nat) : (s.putFld a hi lo v).leaving = s.leaving := rfl
@[simp] theorem State.putFld_sweepAt (s : State) (a hi lo v : Nat) : (s.putFld a hi lo v).sweepAt = s.sweepAt := rfl
@[simp] theorem State.putFld_stale (s : State) (a hi lo v : Nat) : (s.putFld a hi lo v).stale = s.stale := rfl
@[simp] theorem State.putFld_outst (s : State) (a hi lo v : Nat) : (s.putFld a hi lo v).outst = s.outst := rfl
@[simp] theorem State.putFld_bcasts (s : State) (a hi lo v : Nat) : (s.putFld a hi lo v).bcasts = s.bcasts := rfl
@[simp] theorem State.putFld_nextId (s : State) (a hi lo v : Nat) : (s.putFld a hi lo v).nextId = s.nextId := rfl
@[simp] theorem State.putFld_layout (s : State) (a hi lo v : Nat) : (s.putFld a hi lo v).layout = s.layout := rfl
@[simp] theorem State.putFld_remap (s : State) (a hi lo v : Nat) : (s.putFld a hi lo v).remap = s.remap := rfl
@[simp] theorem State.putFld_rstale (s : State) (a hi lo v : Nat) : (s.putFld a hi lo v).rstale = s.rstale := rfl
@[simp] theorem State.putFld_dirPages (s : State) (a hi lo v : Nat) : (s.putFld a hi lo v).dirPages = s.dirPages := rfl
@[simp] theorem State.putFld_images (s : State) (a hi lo v : Nat) : (s.putFld a hi lo v).images = s.images := rfl
@[simp] theorem State.putFld_farUse (s : State) (a hi lo v : Nat) : (s.putFld a hi lo v).farUse = s.farUse := rfl
@[simp] theorem State.putFld_nearSys (s : State) (a hi lo v : Nat) : (s.putFld a hi lo v).nearSys = s.nearSys := rfl
@[simp] theorem State.putFld_near (s : State) (a hi lo v : Nat) : (s.putFld a hi lo v).near = s.near := rfl
@[simp] theorem State.putFld_homeLog (s : State) (a hi lo v : Nat) : (s.putFld a hi lo v).homeLog = s.homeLog := rfl
@[simp] theorem State.putFld_reports (s : State) (a hi lo v : Nat) : (s.putFld a hi lo v).reports = s.reports := rfl
@[simp] theorem State.putFld_slots (s : State) (a hi lo v : Nat) : (s.putFld a hi lo v).slots = s.slots := rfl
@[simp] theorem State.putFld_homes (s : State) (a hi lo v : Nat) : (s.putFld a hi lo v).homes = s.homes := rfl
@[simp] theorem State.putFld_hagts (s : State) (a hi lo v : Nat) : (s.putFld a hi lo v).hagts = s.hagts := rfl
@[simp] theorem State.putFld_coord (s : State) (a hi lo v : Nat) : (s.putFld a hi lo v).coord = s.coord := rfl
@[simp] theorem State.putFld_tolls (s : State) (a hi lo v : Nat) : (s.putFld a hi lo v).tolls = s.tolls := rfl
@[simp] theorem State.putFld_dvfs (s : State) (a hi lo v : Nat) : (s.putFld a hi lo v).dvfs = s.dvfs := rfl
@[simp] theorem State.putFld_temps (s : State) (a hi lo v : Nat) : (s.putFld a hi lo v).temps = s.temps := rfl
@[simp] theorem State.putFld_thermAt (s : State) (a hi lo v : Nat) : (s.putFld a hi lo v).thermAt = s.thermAt := rfl
@[simp] theorem State.putFld_hotAt (s : State) (a hi lo v : Nat) : (s.putFld a hi lo v).hotAt = s.hotAt := rfl
@[simp] theorem State.putFld_poolCut (s : State) (a hi lo v : Nat) : (s.putFld a hi lo v).poolCut = s.poolCut := rfl
@[simp] theorem State.putFld_downDom (s : State) (a hi lo v : Nat) : (s.putFld a hi lo v).downDom = s.downDom := rfl
@[simp] theorem State.putFld_engs (s : State) (a hi lo v : Nat) : (s.putFld a hi lo v).engs = s.engs := rfl
@[simp] theorem State.putFld_fwds (s : State) (a hi lo v : Nat) : (s.putFld a hi lo v).fwds = s.fwds := rfl
@[simp] theorem State.putFld_joins (s : State) (a hi lo v : Nat) : (s.putFld a hi lo v).joins = s.joins := rfl
@[simp] theorem State.putFld_ledgQ (s : State) (a hi lo v : Nat) : (s.putFld a hi lo v).ledgQ = s.ledgQ := rfl
@[simp] theorem State.putFld_reqs (s : State) (a hi lo v : Nat) : (s.putFld a hi lo v).reqs = s.reqs := rfl
@[simp] theorem State.putFld_reqAt (s : State) (a hi lo v : Nat) : (s.putFld a hi lo v).reqAt = s.reqAt := rfl
@[simp] theorem State.putFld_busyAt (s : State) (a hi lo v : Nat) : (s.putFld a hi lo v).busyAt = s.busyAt := rfl
@[simp] theorem State.putFld_bucket (s : State) (a hi lo v : Nat) : (s.putFld a hi lo v).bucket = s.bucket := rfl
@[simp] theorem State.putFld_loans (s : State) (a hi lo v : Nat) : (s.putFld a hi lo v).loans = s.loans := rfl
@[simp] theorem State.putFld_thermFloor (s : State) (a hi lo v : Nat) : (s.putFld a hi lo v).thermFloor = s.thermFloor := rfl
@[simp] theorem State.putFld_thermOn (s : State) (a hi lo v : Nat) : (s.putFld a hi lo v).thermOn = s.thermOn := rfl
@[simp] theorem State.putFld_fuses (s : State) (a hi lo v : Nat) : (s.putFld a hi lo v).fuses = s.fuses := rfl
@[simp] theorem State.putFld_flash (s : State) (a hi lo v : Nat) : (s.putFld a hi lo v).flash = s.flash := rfl
@[simp] theorem State.putFld_dse (s : State) (a hi lo v : Nat) : (s.putFld a hi lo v).dse = s.dse := rfl
@[simp] theorem State.putFld_pins (s : State) (a hi lo v : Nat) : (s.putFld a hi lo v).pins = s.pins := rfl
@[simp] theorem State.putFld_ras (s : State) (a hi lo v : Nat) : (s.putFld a hi lo v).ras = s.ras := rfl
@[simp] theorem State.putFld_tagLfsr (s : State) (a hi lo v : Nat) : (s.putFld a hi lo v).tagLfsr = s.tagLfsr := rfl
@[simp] theorem State.putFld_tagT0 (s : State) (a hi lo v : Nat) : (s.putFld a hi lo v).tagT0 = s.tagT0 := rfl
@[simp] theorem State.putFld_ports (s : State) (a hi lo v : Nat) : (s.putFld a hi lo v).ports = s.ports := rfl
@[simp] theorem State.putFld_iots (s : State) (a hi lo v : Nat) : (s.putFld a hi lo v).iots = s.iots := rfl
@[simp] theorem State.putFld_csrRsp (s : State) (a hi lo v : Nat) : (s.putFld a hi lo v).csrRsp = s.csrRsp := rfl
@[simp] theorem State.putFld_dvfsAt (s : State) (a hi lo v : Nat) : (s.putFld a hi lo v).dvfsAt = s.dvfsAt := rfl
@[simp] theorem State.putFld_dvfsNext (s : State) (a hi lo v : Nat) : (s.putFld a hi lo v).dvfsNext = s.dvfsNext := rfl

/-! ### State.putFlag -/

@[simp] theorem State.putFlag_pending (s : State) (a n : Nat) (b : Bool) : (s.putFlag a n b).pending = s.pending := rfl
@[simp] theorem State.putFlag_free (s : State) (a n : Nat) (b : Bool) : (s.putFlag a n b).free = s.free := rfl
@[simp] theorem State.putFlag_ctime (s : State) (a n : Nat) (b : Bool) : (s.putFlag a n b).ctime = s.ctime := rfl
@[simp] theorem State.putFlag_cfg (s : State) (a n : Nat) (b : Bool) : (s.putFlag a n b).cfg = s.cfg := rfl
@[simp] theorem State.putFlag_snap (s : State) (a n : Nat) (b : Bool) : (s.putFlag a n b).snap = s.snap := rfl
@[simp] theorem State.putFlag_rej (s : State) (a n : Nat) (b : Bool) : (s.putFlag a n b).rej = s.rej := rfl
@[simp] theorem State.putFlag_cores (s : State) (a n : Nat) (b : Bool) : (s.putFlag a n b).cores = s.cores := rfl
@[simp] theorem State.putFlag_mem (s : State) (a n : Nat) (b : Bool) : (s.putFlag a n b).mem = s.mem := rfl
@[simp] theorem State.putFlag_poison (s : State) (a n : Nat) (b : Bool) : (s.putFlag a n b).poison = s.poison := rfl
@[simp] theorem State.putFlag_l2 (s : State) (a n : Nat) (b : Bool) : (s.putFlag a n b).l2 = s.l2 := rfl
@[simp] theorem State.putFlag_dir (s : State) (a n : Nat) (b : Bool) : (s.putFlag a n b).dir = s.dir := rfl
@[simp] theorem State.putFlag_dtags (s : State) (a n : Nat) (b : Bool) : (s.putFlag a n b).dtags = s.dtags := rfl
@[simp] theorem State.putFlag_plru (s : State) (a n : Nat) (b : Bool) : (s.putFlag a n b).plru = s.plru := rfl
@[simp] theorem State.putFlag_nru (s : State) (a n : Nat) (b : Bool) : (s.putFlag a n b).nru = s.nru := rfl
@[simp] theorem State.putFlag_pfs (s : State) (a n : Nat) (b : Bool) : (s.putFlag a n b).pfs = s.pfs := rfl
@[simp] theorem State.putFlag_net (s : State) (a n : Nat) (b : Bool) : (s.putFlag a n b).net = s.net := rfl
@[simp] theorem State.putFlag_held (s : State) (a n : Nat) (b : Bool) : (s.putFlag a n b).held = s.held := rfl
@[simp] theorem State.putFlag_marks (s : State) (a n : Nat) (b : Bool) : (s.putFlag a n b).marks = s.marks := rfl
@[simp] theorem State.putFlag_bufs (s : State) (a n : Nat) (b : Bool) : (s.putFlag a n b).bufs = s.bufs := rfl
@[simp] theorem State.putFlag_rrs (s : State) (a n : Nat) (b : Bool) : (s.putFlag a n b).rrs = s.rrs := rfl
@[simp] theorem State.putFlag_arrived (s : State) (a n : Nat) (b : Bool) : (s.putFlag a n b).arrived = s.arrived := rfl
@[simp] theorem State.putFlag_txwait (s : State) (a n : Nat) (b : Bool) : (s.putFlag a n b).txwait = s.txwait := rfl
@[simp] theorem State.putFlag_leaving (s : State) (a n : Nat) (b : Bool) : (s.putFlag a n b).leaving = s.leaving := rfl
@[simp] theorem State.putFlag_sweepAt (s : State) (a n : Nat) (b : Bool) : (s.putFlag a n b).sweepAt = s.sweepAt := rfl
@[simp] theorem State.putFlag_stale (s : State) (a n : Nat) (b : Bool) : (s.putFlag a n b).stale = s.stale := rfl
@[simp] theorem State.putFlag_outst (s : State) (a n : Nat) (b : Bool) : (s.putFlag a n b).outst = s.outst := rfl
@[simp] theorem State.putFlag_bcasts (s : State) (a n : Nat) (b : Bool) : (s.putFlag a n b).bcasts = s.bcasts := rfl
@[simp] theorem State.putFlag_nextId (s : State) (a n : Nat) (b : Bool) : (s.putFlag a n b).nextId = s.nextId := rfl
@[simp] theorem State.putFlag_layout (s : State) (a n : Nat) (b : Bool) : (s.putFlag a n b).layout = s.layout := rfl
@[simp] theorem State.putFlag_remap (s : State) (a n : Nat) (b : Bool) : (s.putFlag a n b).remap = s.remap := rfl
@[simp] theorem State.putFlag_rstale (s : State) (a n : Nat) (b : Bool) : (s.putFlag a n b).rstale = s.rstale := rfl
@[simp] theorem State.putFlag_dirPages (s : State) (a n : Nat) (b : Bool) : (s.putFlag a n b).dirPages = s.dirPages := rfl
@[simp] theorem State.putFlag_images (s : State) (a n : Nat) (b : Bool) : (s.putFlag a n b).images = s.images := rfl
@[simp] theorem State.putFlag_farUse (s : State) (a n : Nat) (b : Bool) : (s.putFlag a n b).farUse = s.farUse := rfl
@[simp] theorem State.putFlag_nearSys (s : State) (a n : Nat) (b : Bool) : (s.putFlag a n b).nearSys = s.nearSys := rfl
@[simp] theorem State.putFlag_near (s : State) (a n : Nat) (b : Bool) : (s.putFlag a n b).near = s.near := rfl
@[simp] theorem State.putFlag_homeLog (s : State) (a n : Nat) (b : Bool) : (s.putFlag a n b).homeLog = s.homeLog := rfl
@[simp] theorem State.putFlag_reports (s : State) (a n : Nat) (b : Bool) : (s.putFlag a n b).reports = s.reports := rfl
@[simp] theorem State.putFlag_slots (s : State) (a n : Nat) (b : Bool) : (s.putFlag a n b).slots = s.slots := rfl
@[simp] theorem State.putFlag_homes (s : State) (a n : Nat) (b : Bool) : (s.putFlag a n b).homes = s.homes := rfl
@[simp] theorem State.putFlag_hagts (s : State) (a n : Nat) (b : Bool) : (s.putFlag a n b).hagts = s.hagts := rfl
@[simp] theorem State.putFlag_coord (s : State) (a n : Nat) (b : Bool) : (s.putFlag a n b).coord = s.coord := rfl
@[simp] theorem State.putFlag_tolls (s : State) (a n : Nat) (b : Bool) : (s.putFlag a n b).tolls = s.tolls := rfl
@[simp] theorem State.putFlag_dvfs (s : State) (a n : Nat) (b : Bool) : (s.putFlag a n b).dvfs = s.dvfs := rfl
@[simp] theorem State.putFlag_temps (s : State) (a n : Nat) (b : Bool) : (s.putFlag a n b).temps = s.temps := rfl
@[simp] theorem State.putFlag_thermAt (s : State) (a n : Nat) (b : Bool) : (s.putFlag a n b).thermAt = s.thermAt := rfl
@[simp] theorem State.putFlag_hotAt (s : State) (a n : Nat) (b : Bool) : (s.putFlag a n b).hotAt = s.hotAt := rfl
@[simp] theorem State.putFlag_poolCut (s : State) (a n : Nat) (b : Bool) : (s.putFlag a n b).poolCut = s.poolCut := rfl
@[simp] theorem State.putFlag_downDom (s : State) (a n : Nat) (b : Bool) : (s.putFlag a n b).downDom = s.downDom := rfl
@[simp] theorem State.putFlag_engs (s : State) (a n : Nat) (b : Bool) : (s.putFlag a n b).engs = s.engs := rfl
@[simp] theorem State.putFlag_fwds (s : State) (a n : Nat) (b : Bool) : (s.putFlag a n b).fwds = s.fwds := rfl
@[simp] theorem State.putFlag_joins (s : State) (a n : Nat) (b : Bool) : (s.putFlag a n b).joins = s.joins := rfl
@[simp] theorem State.putFlag_ledgQ (s : State) (a n : Nat) (b : Bool) : (s.putFlag a n b).ledgQ = s.ledgQ := rfl
@[simp] theorem State.putFlag_reqs (s : State) (a n : Nat) (b : Bool) : (s.putFlag a n b).reqs = s.reqs := rfl
@[simp] theorem State.putFlag_reqAt (s : State) (a n : Nat) (b : Bool) : (s.putFlag a n b).reqAt = s.reqAt := rfl
@[simp] theorem State.putFlag_busyAt (s : State) (a n : Nat) (b : Bool) : (s.putFlag a n b).busyAt = s.busyAt := rfl
@[simp] theorem State.putFlag_bucket (s : State) (a n : Nat) (b : Bool) : (s.putFlag a n b).bucket = s.bucket := rfl
@[simp] theorem State.putFlag_loans (s : State) (a n : Nat) (b : Bool) : (s.putFlag a n b).loans = s.loans := rfl
@[simp] theorem State.putFlag_thermFloor (s : State) (a n : Nat) (b : Bool) : (s.putFlag a n b).thermFloor = s.thermFloor := rfl
@[simp] theorem State.putFlag_thermOn (s : State) (a n : Nat) (b : Bool) : (s.putFlag a n b).thermOn = s.thermOn := rfl
@[simp] theorem State.putFlag_fuses (s : State) (a n : Nat) (b : Bool) : (s.putFlag a n b).fuses = s.fuses := rfl
@[simp] theorem State.putFlag_flash (s : State) (a n : Nat) (b : Bool) : (s.putFlag a n b).flash = s.flash := rfl
@[simp] theorem State.putFlag_dse (s : State) (a n : Nat) (b : Bool) : (s.putFlag a n b).dse = s.dse := rfl
@[simp] theorem State.putFlag_pins (s : State) (a n : Nat) (b : Bool) : (s.putFlag a n b).pins = s.pins := rfl
@[simp] theorem State.putFlag_ras (s : State) (a n : Nat) (b : Bool) : (s.putFlag a n b).ras = s.ras := rfl
@[simp] theorem State.putFlag_tagLfsr (s : State) (a n : Nat) (b : Bool) : (s.putFlag a n b).tagLfsr = s.tagLfsr := rfl
@[simp] theorem State.putFlag_tagT0 (s : State) (a n : Nat) (b : Bool) : (s.putFlag a n b).tagT0 = s.tagT0 := rfl
@[simp] theorem State.putFlag_ports (s : State) (a n : Nat) (b : Bool) : (s.putFlag a n b).ports = s.ports := rfl
@[simp] theorem State.putFlag_iots (s : State) (a n : Nat) (b : Bool) : (s.putFlag a n b).iots = s.iots := rfl
@[simp] theorem State.putFlag_csrRsp (s : State) (a n : Nat) (b : Bool) : (s.putFlag a n b).csrRsp = s.csrRsp := rfl
@[simp] theorem State.putFlag_dvfsAt (s : State) (a n : Nat) (b : Bool) : (s.putFlag a n b).dvfsAt = s.dvfsAt := rfl
@[simp] theorem State.putFlag_dvfsNext (s : State) (a n : Nat) (b : Bool) : (s.putFlag a n b).dvfsNext = s.dvfsNext := rfl

/-! ### State.bump -/

@[simp] theorem State.bump_pending (s : State) : (s.bump).pending = s.pending := rfl
@[simp] theorem State.bump_ctime (s : State) : (s.bump).ctime = s.ctime := rfl
@[simp] theorem State.bump_csr (s : State) : (s.bump).csr = s.csr := rfl
@[simp] theorem State.bump_cfg (s : State) : (s.bump).cfg = s.cfg := rfl
@[simp] theorem State.bump_snap (s : State) : (s.bump).snap = s.snap := rfl
@[simp] theorem State.bump_rej (s : State) : (s.bump).rej = s.rej := rfl
@[simp] theorem State.bump_cores (s : State) : (s.bump).cores = s.cores := rfl
@[simp] theorem State.bump_mem (s : State) : (s.bump).mem = s.mem := rfl
@[simp] theorem State.bump_poison (s : State) : (s.bump).poison = s.poison := rfl
@[simp] theorem State.bump_l2 (s : State) : (s.bump).l2 = s.l2 := rfl
@[simp] theorem State.bump_dir (s : State) : (s.bump).dir = s.dir := rfl
@[simp] theorem State.bump_dtags (s : State) : (s.bump).dtags = s.dtags := rfl
@[simp] theorem State.bump_plru (s : State) : (s.bump).plru = s.plru := rfl
@[simp] theorem State.bump_nru (s : State) : (s.bump).nru = s.nru := rfl
@[simp] theorem State.bump_pfs (s : State) : (s.bump).pfs = s.pfs := rfl
@[simp] theorem State.bump_net (s : State) : (s.bump).net = s.net := rfl
@[simp] theorem State.bump_held (s : State) : (s.bump).held = s.held := rfl
@[simp] theorem State.bump_marks (s : State) : (s.bump).marks = s.marks := rfl
@[simp] theorem State.bump_bufs (s : State) : (s.bump).bufs = s.bufs := rfl
@[simp] theorem State.bump_rrs (s : State) : (s.bump).rrs = s.rrs := rfl
@[simp] theorem State.bump_arrived (s : State) : (s.bump).arrived = s.arrived := rfl
@[simp] theorem State.bump_txwait (s : State) : (s.bump).txwait = s.txwait := rfl
@[simp] theorem State.bump_leaving (s : State) : (s.bump).leaving = s.leaving := rfl
@[simp] theorem State.bump_sweepAt (s : State) : (s.bump).sweepAt = s.sweepAt := rfl
@[simp] theorem State.bump_stale (s : State) : (s.bump).stale = s.stale := rfl
@[simp] theorem State.bump_outst (s : State) : (s.bump).outst = s.outst := rfl
@[simp] theorem State.bump_bcasts (s : State) : (s.bump).bcasts = s.bcasts := rfl
@[simp] theorem State.bump_nextId (s : State) : (s.bump).nextId = s.nextId := rfl
@[simp] theorem State.bump_layout (s : State) : (s.bump).layout = s.layout := rfl
@[simp] theorem State.bump_remap (s : State) : (s.bump).remap = s.remap := rfl
@[simp] theorem State.bump_rstale (s : State) : (s.bump).rstale = s.rstale := rfl
@[simp] theorem State.bump_dirPages (s : State) : (s.bump).dirPages = s.dirPages := rfl
@[simp] theorem State.bump_images (s : State) : (s.bump).images = s.images := rfl
@[simp] theorem State.bump_farUse (s : State) : (s.bump).farUse = s.farUse := rfl
@[simp] theorem State.bump_nearSys (s : State) : (s.bump).nearSys = s.nearSys := rfl
@[simp] theorem State.bump_near (s : State) : (s.bump).near = s.near := rfl
@[simp] theorem State.bump_homeLog (s : State) : (s.bump).homeLog = s.homeLog := rfl
@[simp] theorem State.bump_reports (s : State) : (s.bump).reports = s.reports := rfl
@[simp] theorem State.bump_slots (s : State) : (s.bump).slots = s.slots := rfl
@[simp] theorem State.bump_homes (s : State) : (s.bump).homes = s.homes := rfl
@[simp] theorem State.bump_hagts (s : State) : (s.bump).hagts = s.hagts := rfl
@[simp] theorem State.bump_coord (s : State) : (s.bump).coord = s.coord := rfl
@[simp] theorem State.bump_tolls (s : State) : (s.bump).tolls = s.tolls := rfl
@[simp] theorem State.bump_dvfs (s : State) : (s.bump).dvfs = s.dvfs := rfl
@[simp] theorem State.bump_temps (s : State) : (s.bump).temps = s.temps := rfl
@[simp] theorem State.bump_thermAt (s : State) : (s.bump).thermAt = s.thermAt := rfl
@[simp] theorem State.bump_hotAt (s : State) : (s.bump).hotAt = s.hotAt := rfl
@[simp] theorem State.bump_poolCut (s : State) : (s.bump).poolCut = s.poolCut := rfl
@[simp] theorem State.bump_downDom (s : State) : (s.bump).downDom = s.downDom := rfl
@[simp] theorem State.bump_engs (s : State) : (s.bump).engs = s.engs := rfl
@[simp] theorem State.bump_fwds (s : State) : (s.bump).fwds = s.fwds := rfl
@[simp] theorem State.bump_joins (s : State) : (s.bump).joins = s.joins := rfl
@[simp] theorem State.bump_ledgQ (s : State) : (s.bump).ledgQ = s.ledgQ := rfl
@[simp] theorem State.bump_reqs (s : State) : (s.bump).reqs = s.reqs := rfl
@[simp] theorem State.bump_reqAt (s : State) : (s.bump).reqAt = s.reqAt := rfl
@[simp] theorem State.bump_busyAt (s : State) : (s.bump).busyAt = s.busyAt := rfl
@[simp] theorem State.bump_bucket (s : State) : (s.bump).bucket = s.bucket := rfl
@[simp] theorem State.bump_loans (s : State) : (s.bump).loans = s.loans := rfl
@[simp] theorem State.bump_thermFloor (s : State) : (s.bump).thermFloor = s.thermFloor := rfl
@[simp] theorem State.bump_thermOn (s : State) : (s.bump).thermOn = s.thermOn := rfl
@[simp] theorem State.bump_fuses (s : State) : (s.bump).fuses = s.fuses := rfl
@[simp] theorem State.bump_flash (s : State) : (s.bump).flash = s.flash := rfl
@[simp] theorem State.bump_dse (s : State) : (s.bump).dse = s.dse := rfl
@[simp] theorem State.bump_pins (s : State) : (s.bump).pins = s.pins := rfl
@[simp] theorem State.bump_ras (s : State) : (s.bump).ras = s.ras := rfl
@[simp] theorem State.bump_tagLfsr (s : State) : (s.bump).tagLfsr = s.tagLfsr := rfl
@[simp] theorem State.bump_tagT0 (s : State) : (s.bump).tagT0 = s.tagT0 := rfl
@[simp] theorem State.bump_ports (s : State) : (s.bump).ports = s.ports := rfl
@[simp] theorem State.bump_iots (s : State) : (s.bump).iots = s.iots := rfl
@[simp] theorem State.bump_csrRsp (s : State) : (s.bump).csrRsp = s.csrRsp := rfl
@[simp] theorem State.bump_dvfsAt (s : State) : (s.bump).dvfsAt = s.dvfsAt := rfl
@[simp] theorem State.bump_dvfsNext (s : State) : (s.bump).dvfsNext = s.dvfsNext := rfl

/-! ### State.wrByte -/

@[simp] theorem State.wrByte_pending (s : State) (a : Nat) (b : Byte) : (s.wrByte a b).pending = s.pending := rfl
@[simp] theorem State.wrByte_free (s : State) (a : Nat) (b : Byte) : (s.wrByte a b).free = s.free := rfl
@[simp] theorem State.wrByte_ctime (s : State) (a : Nat) (b : Byte) : (s.wrByte a b).ctime = s.ctime := rfl
@[simp] theorem State.wrByte_csr (s : State) (a : Nat) (b : Byte) : (s.wrByte a b).csr = s.csr := rfl
@[simp] theorem State.wrByte_cfg (s : State) (a : Nat) (b : Byte) : (s.wrByte a b).cfg = s.cfg := rfl
@[simp] theorem State.wrByte_snap (s : State) (a : Nat) (b : Byte) : (s.wrByte a b).snap = s.snap := rfl
@[simp] theorem State.wrByte_rej (s : State) (a : Nat) (b : Byte) : (s.wrByte a b).rej = s.rej := rfl
@[simp] theorem State.wrByte_cores (s : State) (a : Nat) (b : Byte) : (s.wrByte a b).cores = s.cores := rfl
@[simp] theorem State.wrByte_poison (s : State) (a : Nat) (b : Byte) : (s.wrByte a b).poison = s.poison := rfl
@[simp] theorem State.wrByte_l2 (s : State) (a : Nat) (b : Byte) : (s.wrByte a b).l2 = s.l2 := rfl
@[simp] theorem State.wrByte_dir (s : State) (a : Nat) (b : Byte) : (s.wrByte a b).dir = s.dir := rfl
@[simp] theorem State.wrByte_dtags (s : State) (a : Nat) (b : Byte) : (s.wrByte a b).dtags = s.dtags := rfl
@[simp] theorem State.wrByte_plru (s : State) (a : Nat) (b : Byte) : (s.wrByte a b).plru = s.plru := rfl
@[simp] theorem State.wrByte_nru (s : State) (a : Nat) (b : Byte) : (s.wrByte a b).nru = s.nru := rfl
@[simp] theorem State.wrByte_pfs (s : State) (a : Nat) (b : Byte) : (s.wrByte a b).pfs = s.pfs := rfl
@[simp] theorem State.wrByte_net (s : State) (a : Nat) (b : Byte) : (s.wrByte a b).net = s.net := rfl
@[simp] theorem State.wrByte_held (s : State) (a : Nat) (b : Byte) : (s.wrByte a b).held = s.held := rfl
@[simp] theorem State.wrByte_marks (s : State) (a : Nat) (b : Byte) : (s.wrByte a b).marks = s.marks := rfl
@[simp] theorem State.wrByte_bufs (s : State) (a : Nat) (b : Byte) : (s.wrByte a b).bufs = s.bufs := rfl
@[simp] theorem State.wrByte_rrs (s : State) (a : Nat) (b : Byte) : (s.wrByte a b).rrs = s.rrs := rfl
@[simp] theorem State.wrByte_arrived (s : State) (a : Nat) (b : Byte) : (s.wrByte a b).arrived = s.arrived := rfl
@[simp] theorem State.wrByte_txwait (s : State) (a : Nat) (b : Byte) : (s.wrByte a b).txwait = s.txwait := rfl
@[simp] theorem State.wrByte_leaving (s : State) (a : Nat) (b : Byte) : (s.wrByte a b).leaving = s.leaving := rfl
@[simp] theorem State.wrByte_sweepAt (s : State) (a : Nat) (b : Byte) : (s.wrByte a b).sweepAt = s.sweepAt := rfl
@[simp] theorem State.wrByte_stale (s : State) (a : Nat) (b : Byte) : (s.wrByte a b).stale = s.stale := rfl
@[simp] theorem State.wrByte_outst (s : State) (a : Nat) (b : Byte) : (s.wrByte a b).outst = s.outst := rfl
@[simp] theorem State.wrByte_bcasts (s : State) (a : Nat) (b : Byte) : (s.wrByte a b).bcasts = s.bcasts := rfl
@[simp] theorem State.wrByte_nextId (s : State) (a : Nat) (b : Byte) : (s.wrByte a b).nextId = s.nextId := rfl
@[simp] theorem State.wrByte_layout (s : State) (a : Nat) (b : Byte) : (s.wrByte a b).layout = s.layout := rfl
@[simp] theorem State.wrByte_remap (s : State) (a : Nat) (b : Byte) : (s.wrByte a b).remap = s.remap := rfl
@[simp] theorem State.wrByte_rstale (s : State) (a : Nat) (b : Byte) : (s.wrByte a b).rstale = s.rstale := rfl
@[simp] theorem State.wrByte_dirPages (s : State) (a : Nat) (b : Byte) : (s.wrByte a b).dirPages = s.dirPages := rfl
@[simp] theorem State.wrByte_images (s : State) (a : Nat) (b : Byte) : (s.wrByte a b).images = s.images := rfl
@[simp] theorem State.wrByte_farUse (s : State) (a : Nat) (b : Byte) : (s.wrByte a b).farUse = s.farUse := rfl
@[simp] theorem State.wrByte_nearSys (s : State) (a : Nat) (b : Byte) : (s.wrByte a b).nearSys = s.nearSys := rfl
@[simp] theorem State.wrByte_near (s : State) (a : Nat) (b : Byte) : (s.wrByte a b).near = s.near := rfl
@[simp] theorem State.wrByte_homeLog (s : State) (a : Nat) (b : Byte) : (s.wrByte a b).homeLog = s.homeLog := rfl
@[simp] theorem State.wrByte_reports (s : State) (a : Nat) (b : Byte) : (s.wrByte a b).reports = s.reports := rfl
@[simp] theorem State.wrByte_slots (s : State) (a : Nat) (b : Byte) : (s.wrByte a b).slots = s.slots := rfl
@[simp] theorem State.wrByte_homes (s : State) (a : Nat) (b : Byte) : (s.wrByte a b).homes = s.homes := rfl
@[simp] theorem State.wrByte_hagts (s : State) (a : Nat) (b : Byte) : (s.wrByte a b).hagts = s.hagts := rfl
@[simp] theorem State.wrByte_coord (s : State) (a : Nat) (b : Byte) : (s.wrByte a b).coord = s.coord := rfl
@[simp] theorem State.wrByte_tolls (s : State) (a : Nat) (b : Byte) : (s.wrByte a b).tolls = s.tolls := rfl
@[simp] theorem State.wrByte_dvfs (s : State) (a : Nat) (b : Byte) : (s.wrByte a b).dvfs = s.dvfs := rfl
@[simp] theorem State.wrByte_temps (s : State) (a : Nat) (b : Byte) : (s.wrByte a b).temps = s.temps := rfl
@[simp] theorem State.wrByte_thermAt (s : State) (a : Nat) (b : Byte) : (s.wrByte a b).thermAt = s.thermAt := rfl
@[simp] theorem State.wrByte_hotAt (s : State) (a : Nat) (b : Byte) : (s.wrByte a b).hotAt = s.hotAt := rfl
@[simp] theorem State.wrByte_poolCut (s : State) (a : Nat) (b : Byte) : (s.wrByte a b).poolCut = s.poolCut := rfl
@[simp] theorem State.wrByte_downDom (s : State) (a : Nat) (b : Byte) : (s.wrByte a b).downDom = s.downDom := rfl
@[simp] theorem State.wrByte_engs (s : State) (a : Nat) (b : Byte) : (s.wrByte a b).engs = s.engs := rfl
@[simp] theorem State.wrByte_fwds (s : State) (a : Nat) (b : Byte) : (s.wrByte a b).fwds = s.fwds := rfl
@[simp] theorem State.wrByte_joins (s : State) (a : Nat) (b : Byte) : (s.wrByte a b).joins = s.joins := rfl
@[simp] theorem State.wrByte_ledgQ (s : State) (a : Nat) (b : Byte) : (s.wrByte a b).ledgQ = s.ledgQ := rfl
@[simp] theorem State.wrByte_reqs (s : State) (a : Nat) (b : Byte) : (s.wrByte a b).reqs = s.reqs := rfl
@[simp] theorem State.wrByte_reqAt (s : State) (a : Nat) (b : Byte) : (s.wrByte a b).reqAt = s.reqAt := rfl
@[simp] theorem State.wrByte_busyAt (s : State) (a : Nat) (b : Byte) : (s.wrByte a b).busyAt = s.busyAt := rfl
@[simp] theorem State.wrByte_bucket (s : State) (a : Nat) (b : Byte) : (s.wrByte a b).bucket = s.bucket := rfl
@[simp] theorem State.wrByte_loans (s : State) (a : Nat) (b : Byte) : (s.wrByte a b).loans = s.loans := rfl
@[simp] theorem State.wrByte_thermFloor (s : State) (a : Nat) (b : Byte) : (s.wrByte a b).thermFloor = s.thermFloor := rfl
@[simp] theorem State.wrByte_thermOn (s : State) (a : Nat) (b : Byte) : (s.wrByte a b).thermOn = s.thermOn := rfl
@[simp] theorem State.wrByte_fuses (s : State) (a : Nat) (b : Byte) : (s.wrByte a b).fuses = s.fuses := rfl
@[simp] theorem State.wrByte_flash (s : State) (a : Nat) (b : Byte) : (s.wrByte a b).flash = s.flash := rfl
@[simp] theorem State.wrByte_dse (s : State) (a : Nat) (b : Byte) : (s.wrByte a b).dse = s.dse := rfl
@[simp] theorem State.wrByte_pins (s : State) (a : Nat) (b : Byte) : (s.wrByte a b).pins = s.pins := rfl
@[simp] theorem State.wrByte_ras (s : State) (a : Nat) (b : Byte) : (s.wrByte a b).ras = s.ras := rfl
@[simp] theorem State.wrByte_tagLfsr (s : State) (a : Nat) (b : Byte) : (s.wrByte a b).tagLfsr = s.tagLfsr := rfl
@[simp] theorem State.wrByte_tagT0 (s : State) (a : Nat) (b : Byte) : (s.wrByte a b).tagT0 = s.tagT0 := rfl
@[simp] theorem State.wrByte_ports (s : State) (a : Nat) (b : Byte) : (s.wrByte a b).ports = s.ports := rfl
@[simp] theorem State.wrByte_iots (s : State) (a : Nat) (b : Byte) : (s.wrByte a b).iots = s.iots := rfl
@[simp] theorem State.wrByte_csrRsp (s : State) (a : Nat) (b : Byte) : (s.wrByte a b).csrRsp = s.csrRsp := rfl
@[simp] theorem State.wrByte_dvfsAt (s : State) (a : Nat) (b : Byte) : (s.wrByte a b).dvfsAt = s.dvfsAt := rfl
@[simp] theorem State.wrByte_dvfsNext (s : State) (a : Nat) (b : Byte) : (s.wrByte a b).dvfsNext = s.dvfsNext := rfl

/-! ### State.setPoison -/

@[simp] theorem State.setPoison_pending (s : State) (l : Nat) (b : Bool) : (s.setPoison l b).pending = s.pending := rfl
@[simp] theorem State.setPoison_free (s : State) (l : Nat) (b : Bool) : (s.setPoison l b).free = s.free := rfl
@[simp] theorem State.setPoison_ctime (s : State) (l : Nat) (b : Bool) : (s.setPoison l b).ctime = s.ctime := rfl
@[simp] theorem State.setPoison_csr (s : State) (l : Nat) (b : Bool) : (s.setPoison l b).csr = s.csr := rfl
@[simp] theorem State.setPoison_cfg (s : State) (l : Nat) (b : Bool) : (s.setPoison l b).cfg = s.cfg := rfl
@[simp] theorem State.setPoison_snap (s : State) (l : Nat) (b : Bool) : (s.setPoison l b).snap = s.snap := rfl
@[simp] theorem State.setPoison_rej (s : State) (l : Nat) (b : Bool) : (s.setPoison l b).rej = s.rej := rfl
@[simp] theorem State.setPoison_cores (s : State) (l : Nat) (b : Bool) : (s.setPoison l b).cores = s.cores := rfl
@[simp] theorem State.setPoison_mem (s : State) (l : Nat) (b : Bool) : (s.setPoison l b).mem = s.mem := rfl
@[simp] theorem State.setPoison_l2 (s : State) (l : Nat) (b : Bool) : (s.setPoison l b).l2 = s.l2 := rfl
@[simp] theorem State.setPoison_dir (s : State) (l : Nat) (b : Bool) : (s.setPoison l b).dir = s.dir := rfl
@[simp] theorem State.setPoison_dtags (s : State) (l : Nat) (b : Bool) : (s.setPoison l b).dtags = s.dtags := rfl
@[simp] theorem State.setPoison_plru (s : State) (l : Nat) (b : Bool) : (s.setPoison l b).plru = s.plru := rfl
@[simp] theorem State.setPoison_nru (s : State) (l : Nat) (b : Bool) : (s.setPoison l b).nru = s.nru := rfl
@[simp] theorem State.setPoison_pfs (s : State) (l : Nat) (b : Bool) : (s.setPoison l b).pfs = s.pfs := rfl
@[simp] theorem State.setPoison_net (s : State) (l : Nat) (b : Bool) : (s.setPoison l b).net = s.net := rfl
@[simp] theorem State.setPoison_held (s : State) (l : Nat) (b : Bool) : (s.setPoison l b).held = s.held := rfl
@[simp] theorem State.setPoison_marks (s : State) (l : Nat) (b : Bool) : (s.setPoison l b).marks = s.marks := rfl
@[simp] theorem State.setPoison_bufs (s : State) (l : Nat) (b : Bool) : (s.setPoison l b).bufs = s.bufs := rfl
@[simp] theorem State.setPoison_rrs (s : State) (l : Nat) (b : Bool) : (s.setPoison l b).rrs = s.rrs := rfl
@[simp] theorem State.setPoison_arrived (s : State) (l : Nat) (b : Bool) : (s.setPoison l b).arrived = s.arrived := rfl
@[simp] theorem State.setPoison_txwait (s : State) (l : Nat) (b : Bool) : (s.setPoison l b).txwait = s.txwait := rfl
@[simp] theorem State.setPoison_leaving (s : State) (l : Nat) (b : Bool) : (s.setPoison l b).leaving = s.leaving := rfl
@[simp] theorem State.setPoison_sweepAt (s : State) (l : Nat) (b : Bool) : (s.setPoison l b).sweepAt = s.sweepAt := rfl
@[simp] theorem State.setPoison_stale (s : State) (l : Nat) (b : Bool) : (s.setPoison l b).stale = s.stale := rfl
@[simp] theorem State.setPoison_outst (s : State) (l : Nat) (b : Bool) : (s.setPoison l b).outst = s.outst := rfl
@[simp] theorem State.setPoison_bcasts (s : State) (l : Nat) (b : Bool) : (s.setPoison l b).bcasts = s.bcasts := rfl
@[simp] theorem State.setPoison_nextId (s : State) (l : Nat) (b : Bool) : (s.setPoison l b).nextId = s.nextId := rfl
@[simp] theorem State.setPoison_layout (s : State) (l : Nat) (b : Bool) : (s.setPoison l b).layout = s.layout := rfl
@[simp] theorem State.setPoison_remap (s : State) (l : Nat) (b : Bool) : (s.setPoison l b).remap = s.remap := rfl
@[simp] theorem State.setPoison_rstale (s : State) (l : Nat) (b : Bool) : (s.setPoison l b).rstale = s.rstale := rfl
@[simp] theorem State.setPoison_dirPages (s : State) (l : Nat) (b : Bool) : (s.setPoison l b).dirPages = s.dirPages := rfl
@[simp] theorem State.setPoison_images (s : State) (l : Nat) (b : Bool) : (s.setPoison l b).images = s.images := rfl
@[simp] theorem State.setPoison_farUse (s : State) (l : Nat) (b : Bool) : (s.setPoison l b).farUse = s.farUse := rfl
@[simp] theorem State.setPoison_nearSys (s : State) (l : Nat) (b : Bool) : (s.setPoison l b).nearSys = s.nearSys := rfl
@[simp] theorem State.setPoison_near (s : State) (l : Nat) (b : Bool) : (s.setPoison l b).near = s.near := rfl
@[simp] theorem State.setPoison_homeLog (s : State) (l : Nat) (b : Bool) : (s.setPoison l b).homeLog = s.homeLog := rfl
@[simp] theorem State.setPoison_reports (s : State) (l : Nat) (b : Bool) : (s.setPoison l b).reports = s.reports := rfl
@[simp] theorem State.setPoison_slots (s : State) (l : Nat) (b : Bool) : (s.setPoison l b).slots = s.slots := rfl
@[simp] theorem State.setPoison_homes (s : State) (l : Nat) (b : Bool) : (s.setPoison l b).homes = s.homes := rfl
@[simp] theorem State.setPoison_hagts (s : State) (l : Nat) (b : Bool) : (s.setPoison l b).hagts = s.hagts := rfl
@[simp] theorem State.setPoison_coord (s : State) (l : Nat) (b : Bool) : (s.setPoison l b).coord = s.coord := rfl
@[simp] theorem State.setPoison_tolls (s : State) (l : Nat) (b : Bool) : (s.setPoison l b).tolls = s.tolls := rfl
@[simp] theorem State.setPoison_dvfs (s : State) (l : Nat) (b : Bool) : (s.setPoison l b).dvfs = s.dvfs := rfl
@[simp] theorem State.setPoison_temps (s : State) (l : Nat) (b : Bool) : (s.setPoison l b).temps = s.temps := rfl
@[simp] theorem State.setPoison_thermAt (s : State) (l : Nat) (b : Bool) : (s.setPoison l b).thermAt = s.thermAt := rfl
@[simp] theorem State.setPoison_hotAt (s : State) (l : Nat) (b : Bool) : (s.setPoison l b).hotAt = s.hotAt := rfl
@[simp] theorem State.setPoison_poolCut (s : State) (l : Nat) (b : Bool) : (s.setPoison l b).poolCut = s.poolCut := rfl
@[simp] theorem State.setPoison_downDom (s : State) (l : Nat) (b : Bool) : (s.setPoison l b).downDom = s.downDom := rfl
@[simp] theorem State.setPoison_engs (s : State) (l : Nat) (b : Bool) : (s.setPoison l b).engs = s.engs := rfl
@[simp] theorem State.setPoison_fwds (s : State) (l : Nat) (b : Bool) : (s.setPoison l b).fwds = s.fwds := rfl
@[simp] theorem State.setPoison_joins (s : State) (l : Nat) (b : Bool) : (s.setPoison l b).joins = s.joins := rfl
@[simp] theorem State.setPoison_ledgQ (s : State) (l : Nat) (b : Bool) : (s.setPoison l b).ledgQ = s.ledgQ := rfl
@[simp] theorem State.setPoison_reqs (s : State) (l : Nat) (b : Bool) : (s.setPoison l b).reqs = s.reqs := rfl
@[simp] theorem State.setPoison_reqAt (s : State) (l : Nat) (b : Bool) : (s.setPoison l b).reqAt = s.reqAt := rfl
@[simp] theorem State.setPoison_busyAt (s : State) (l : Nat) (b : Bool) : (s.setPoison l b).busyAt = s.busyAt := rfl
@[simp] theorem State.setPoison_bucket (s : State) (l : Nat) (b : Bool) : (s.setPoison l b).bucket = s.bucket := rfl
@[simp] theorem State.setPoison_loans (s : State) (l : Nat) (b : Bool) : (s.setPoison l b).loans = s.loans := rfl
@[simp] theorem State.setPoison_thermFloor (s : State) (l : Nat) (b : Bool) : (s.setPoison l b).thermFloor = s.thermFloor := rfl
@[simp] theorem State.setPoison_thermOn (s : State) (l : Nat) (b : Bool) : (s.setPoison l b).thermOn = s.thermOn := rfl
@[simp] theorem State.setPoison_fuses (s : State) (l : Nat) (b : Bool) : (s.setPoison l b).fuses = s.fuses := rfl
@[simp] theorem State.setPoison_flash (s : State) (l : Nat) (b : Bool) : (s.setPoison l b).flash = s.flash := rfl
@[simp] theorem State.setPoison_dse (s : State) (l : Nat) (b : Bool) : (s.setPoison l b).dse = s.dse := rfl
@[simp] theorem State.setPoison_pins (s : State) (l : Nat) (b : Bool) : (s.setPoison l b).pins = s.pins := rfl
@[simp] theorem State.setPoison_ras (s : State) (l : Nat) (b : Bool) : (s.setPoison l b).ras = s.ras := rfl
@[simp] theorem State.setPoison_tagLfsr (s : State) (l : Nat) (b : Bool) : (s.setPoison l b).tagLfsr = s.tagLfsr := rfl
@[simp] theorem State.setPoison_tagT0 (s : State) (l : Nat) (b : Bool) : (s.setPoison l b).tagT0 = s.tagT0 := rfl
@[simp] theorem State.setPoison_ports (s : State) (l : Nat) (b : Bool) : (s.setPoison l b).ports = s.ports := rfl
@[simp] theorem State.setPoison_iots (s : State) (l : Nat) (b : Bool) : (s.setPoison l b).iots = s.iots := rfl
@[simp] theorem State.setPoison_csrRsp (s : State) (l : Nat) (b : Bool) : (s.setPoison l b).csrRsp = s.csrRsp := rfl
@[simp] theorem State.setPoison_dvfsAt (s : State) (l : Nat) (b : Bool) : (s.setPoison l b).dvfsAt = s.dvfsAt := rfl
@[simp] theorem State.setPoison_dvfsNext (s : State) (l : Nat) (b : Bool) : (s.setPoison l b).dvfsNext = s.dvfsNext := rfl

/-! ### Core.setSr -/

@[simp] theorem Core.setSr_run (k : Core) (n : Nat) (v : Word) : (k.setSr n v).run = k.run := rfl
@[simp] theorem Core.setSr_pc (k : Core) (n : Nat) (v : Word) : (k.setSr n v).pc = k.pc := rfl
@[simp] theorem Core.setSr_g (k : Core) (n : Nat) (v : Word) : (k.setSr n v).g = k.g := rfl
@[simp] theorem Core.setSr_bank (k : Core) (n : Nat) (v : Word) : (k.setSr n v).bank = k.bank := rfl
@[simp] theorem Core.setSr_fpcsr (k : Core) (n : Nat) (v : Word) : (k.setSr n v).fpcsr = k.fpcsr := rfl
@[simp] theorem Core.setSr_v (k : Core) (n : Nat) (v : Word) : (k.setSr n v).v = k.v := rfl
@[simp] theorem Core.setSr_m (k : Core) (n : Nat) (v : Word) : (k.setSr n v).m = k.m := rfl
@[simp] theorem Core.setSr_resv (k : Core) (n : Nat) (v : Word) : (k.setSr n v).resv = k.resv := rfl
@[simp] theorem Core.setSr_hold (k : Core) (n : Nat) (v : Word) : (k.setSr n v).hold = k.hold := rfl
@[simp] theorem Core.setSr_fram (k : Core) (n : Nat) (v : Word) : (k.setSr n v).fram = k.fram := rfl
@[simp] theorem Core.setSr_tlb (k : Core) (n : Nat) (v : Word) : (k.setSr n v).tlb = k.tlb := rfl
@[simp] theorem Core.setSr_s2tlb (k : Core) (n : Nat) (v : Word) : (k.setSr n v).s2tlb = k.s2tlb := rfl
@[simp] theorem Core.setSr_hints (k : Core) (n : Nat) (v : Word) : (k.setSr n v).hints = k.hints := rfl
@[simp] theorem Core.setSr_sbuf (k : Core) (n : Nat) (v : Word) : (k.setSr n v).sbuf = k.sbuf := rfl
@[simp] theorem Core.setSr_ctr (k : Core) (n : Nat) (v : Word) : (k.setSr n v).ctr = k.ctr := rfl
@[simp] theorem Core.setSr_hist (k : Core) (n : Nat) (v : Word) : (k.setSr n v).hist = k.hist := rfl
@[simp] theorem Core.setSr_rstack (k : Core) (n : Nat) (v : Word) : (k.setSr n v).rstack = k.rstack := rfl
@[simp] theorem Core.setSr_btb (k : Core) (n : Nat) (v : Word) : (k.setSr n v).btb = k.btb := rfl
@[simp] theorem Core.setSr_zb (k : Core) (n : Nat) (v : Word) : (k.setSr n v).zb = k.zb := rfl
@[simp] theorem Core.setSr_swait (k : Core) (n : Nat) (v : Word) : (k.setSr n v).swait = k.swait := rfl
@[simp] theorem Core.setSr_errStore (k : Core) (n : Nat) (v : Word) : (k.setSr n v).errStore = k.errStore := rfl
@[simp] theorem Core.setSr_errCore (k : Core) (n : Nat) (v : Word) : (k.setSr n v).errCore = k.errCore := rfl
@[simp] theorem Core.setSr_bcasts (k : Core) (n : Nat) (v : Word) : (k.setSr n v).bcasts = k.bcasts := rfl
@[simp] theorem Core.setSr_heavy (k : Core) (n : Nat) (v : Word) : (k.setSr n v).heavy = k.heavy := rfl
@[simp] theorem Core.setSr_sampQ (k : Core) (n : Nat) (v : Word) : (k.setSr n v).sampQ = k.sampQ := rfl
@[simp] theorem Core.setSr_sampDrop (k : Core) (n : Nat) (v : Word) : (k.setSr n v).sampDrop = k.sampDrop := rfl
@[simp] theorem Core.setSr_heldMsi (k : Core) (n : Nat) (v : Word) : (k.setSr n v).heldMsi = k.heldMsi := rfl
@[simp] theorem Core.setSr_far (k : Core) (n : Nat) (v : Word) : (k.setSr n v).far = k.far := rfl
@[simp] theorem Core.setSr_drains (k : Core) (n : Nat) (v : Word) : (k.setSr n v).drains = k.drains := rfl

/-! ### Core.wv -/

@[simp] theorem Core.wv_run (k : Core) (r : Nat) (x : VWord) : (k.wv r x).run = k.run := rfl
@[simp] theorem Core.wv_pc (k : Core) (r : Nat) (x : VWord) : (k.wv r x).pc = k.pc := rfl
@[simp] theorem Core.wv_g (k : Core) (r : Nat) (x : VWord) : (k.wv r x).g = k.g := rfl
@[simp] theorem Core.wv_bank (k : Core) (r : Nat) (x : VWord) : (k.wv r x).bank = k.bank := rfl
@[simp] theorem Core.wv_fpcsr (k : Core) (r : Nat) (x : VWord) : (k.wv r x).fpcsr = k.fpcsr := rfl
@[simp] theorem Core.wv_sr (k : Core) (r : Nat) (x : VWord) : (k.wv r x).sr = k.sr := rfl
@[simp] theorem Core.wv_m (k : Core) (r : Nat) (x : VWord) : (k.wv r x).m = k.m := rfl
@[simp] theorem Core.wv_resv (k : Core) (r : Nat) (x : VWord) : (k.wv r x).resv = k.resv := rfl
@[simp] theorem Core.wv_hold (k : Core) (r : Nat) (x : VWord) : (k.wv r x).hold = k.hold := rfl
@[simp] theorem Core.wv_fram (k : Core) (r : Nat) (x : VWord) : (k.wv r x).fram = k.fram := rfl
@[simp] theorem Core.wv_tlb (k : Core) (r : Nat) (x : VWord) : (k.wv r x).tlb = k.tlb := rfl
@[simp] theorem Core.wv_s2tlb (k : Core) (r : Nat) (x : VWord) : (k.wv r x).s2tlb = k.s2tlb := rfl
@[simp] theorem Core.wv_hints (k : Core) (r : Nat) (x : VWord) : (k.wv r x).hints = k.hints := rfl
@[simp] theorem Core.wv_sbuf (k : Core) (r : Nat) (x : VWord) : (k.wv r x).sbuf = k.sbuf := rfl
@[simp] theorem Core.wv_ctr (k : Core) (r : Nat) (x : VWord) : (k.wv r x).ctr = k.ctr := rfl
@[simp] theorem Core.wv_hist (k : Core) (r : Nat) (x : VWord) : (k.wv r x).hist = k.hist := rfl
@[simp] theorem Core.wv_rstack (k : Core) (r : Nat) (x : VWord) : (k.wv r x).rstack = k.rstack := rfl
@[simp] theorem Core.wv_btb (k : Core) (r : Nat) (x : VWord) : (k.wv r x).btb = k.btb := rfl
@[simp] theorem Core.wv_zb (k : Core) (r : Nat) (x : VWord) : (k.wv r x).zb = k.zb := rfl
@[simp] theorem Core.wv_swait (k : Core) (r : Nat) (x : VWord) : (k.wv r x).swait = k.swait := rfl
@[simp] theorem Core.wv_errStore (k : Core) (r : Nat) (x : VWord) : (k.wv r x).errStore = k.errStore := rfl
@[simp] theorem Core.wv_errCore (k : Core) (r : Nat) (x : VWord) : (k.wv r x).errCore = k.errCore := rfl
@[simp] theorem Core.wv_bcasts (k : Core) (r : Nat) (x : VWord) : (k.wv r x).bcasts = k.bcasts := rfl
@[simp] theorem Core.wv_heavy (k : Core) (r : Nat) (x : VWord) : (k.wv r x).heavy = k.heavy := rfl
@[simp] theorem Core.wv_sampQ (k : Core) (r : Nat) (x : VWord) : (k.wv r x).sampQ = k.sampQ := rfl
@[simp] theorem Core.wv_sampDrop (k : Core) (r : Nat) (x : VWord) : (k.wv r x).sampDrop = k.sampDrop := rfl
@[simp] theorem Core.wv_heldMsi (k : Core) (r : Nat) (x : VWord) : (k.wv r x).heldMsi = k.heldMsi := rfl
@[simp] theorem Core.wv_far (k : Core) (r : Nat) (x : VWord) : (k.wv r x).far = k.far := rfl
@[simp] theorem Core.wv_drains (k : Core) (r : Nat) (x : VWord) : (k.wv r x).drains = k.drains := rfl

/-! ### Core.adv -/

@[simp] theorem Core.adv_run (k : Core) : (k.adv).run = k.run := rfl
@[simp] theorem Core.adv_g (k : Core) : (k.adv).g = k.g := rfl
@[simp] theorem Core.adv_bank (k : Core) : (k.adv).bank = k.bank := rfl
@[simp] theorem Core.adv_fpcsr (k : Core) : (k.adv).fpcsr = k.fpcsr := rfl
@[simp] theorem Core.adv_sr (k : Core) : (k.adv).sr = k.sr := rfl
@[simp] theorem Core.adv_v (k : Core) : (k.adv).v = k.v := rfl
@[simp] theorem Core.adv_m (k : Core) : (k.adv).m = k.m := rfl
@[simp] theorem Core.adv_resv (k : Core) : (k.adv).resv = k.resv := rfl
@[simp] theorem Core.adv_hold (k : Core) : (k.adv).hold = k.hold := rfl
@[simp] theorem Core.adv_fram (k : Core) : (k.adv).fram = k.fram := rfl
@[simp] theorem Core.adv_tlb (k : Core) : (k.adv).tlb = k.tlb := rfl
@[simp] theorem Core.adv_s2tlb (k : Core) : (k.adv).s2tlb = k.s2tlb := rfl
@[simp] theorem Core.adv_hints (k : Core) : (k.adv).hints = k.hints := rfl
@[simp] theorem Core.adv_sbuf (k : Core) : (k.adv).sbuf = k.sbuf := rfl
@[simp] theorem Core.adv_ctr (k : Core) : (k.adv).ctr = k.ctr := rfl
@[simp] theorem Core.adv_hist (k : Core) : (k.adv).hist = k.hist := rfl
@[simp] theorem Core.adv_rstack (k : Core) : (k.adv).rstack = k.rstack := rfl
@[simp] theorem Core.adv_btb (k : Core) : (k.adv).btb = k.btb := rfl
@[simp] theorem Core.adv_zb (k : Core) : (k.adv).zb = k.zb := rfl
@[simp] theorem Core.adv_swait (k : Core) : (k.adv).swait = k.swait := rfl
@[simp] theorem Core.adv_errStore (k : Core) : (k.adv).errStore = k.errStore := rfl
@[simp] theorem Core.adv_errCore (k : Core) : (k.adv).errCore = k.errCore := rfl
@[simp] theorem Core.adv_bcasts (k : Core) : (k.adv).bcasts = k.bcasts := rfl
@[simp] theorem Core.adv_heavy (k : Core) : (k.adv).heavy = k.heavy := rfl
@[simp] theorem Core.adv_sampQ (k : Core) : (k.adv).sampQ = k.sampQ := rfl
@[simp] theorem Core.adv_sampDrop (k : Core) : (k.adv).sampDrop = k.sampDrop := rfl
@[simp] theorem Core.adv_heldMsi (k : Core) : (k.adv).heldMsi = k.heldMsi := rfl
@[simp] theorem Core.adv_far (k : Core) : (k.adv).far = k.far := rfl
@[simp] theorem Core.adv_drains (k : Core) : (k.adv).drains = k.drains := rfl

/-! ### Core.jump -/

@[simp] theorem Core.jump_run (k : Core) (t : Word) : (k.jump t).run = k.run := rfl
@[simp] theorem Core.jump_g (k : Core) (t : Word) : (k.jump t).g = k.g := rfl
@[simp] theorem Core.jump_bank (k : Core) (t : Word) : (k.jump t).bank = k.bank := rfl
@[simp] theorem Core.jump_fpcsr (k : Core) (t : Word) : (k.jump t).fpcsr = k.fpcsr := rfl
@[simp] theorem Core.jump_sr (k : Core) (t : Word) : (k.jump t).sr = k.sr := rfl
@[simp] theorem Core.jump_v (k : Core) (t : Word) : (k.jump t).v = k.v := rfl
@[simp] theorem Core.jump_m (k : Core) (t : Word) : (k.jump t).m = k.m := rfl
@[simp] theorem Core.jump_resv (k : Core) (t : Word) : (k.jump t).resv = k.resv := rfl
@[simp] theorem Core.jump_hold (k : Core) (t : Word) : (k.jump t).hold = k.hold := rfl
@[simp] theorem Core.jump_fram (k : Core) (t : Word) : (k.jump t).fram = k.fram := rfl
@[simp] theorem Core.jump_tlb (k : Core) (t : Word) : (k.jump t).tlb = k.tlb := rfl
@[simp] theorem Core.jump_s2tlb (k : Core) (t : Word) : (k.jump t).s2tlb = k.s2tlb := rfl
@[simp] theorem Core.jump_hints (k : Core) (t : Word) : (k.jump t).hints = k.hints := rfl
@[simp] theorem Core.jump_sbuf (k : Core) (t : Word) : (k.jump t).sbuf = k.sbuf := rfl
@[simp] theorem Core.jump_ctr (k : Core) (t : Word) : (k.jump t).ctr = k.ctr := rfl
@[simp] theorem Core.jump_hist (k : Core) (t : Word) : (k.jump t).hist = k.hist := rfl
@[simp] theorem Core.jump_rstack (k : Core) (t : Word) : (k.jump t).rstack = k.rstack := rfl
@[simp] theorem Core.jump_btb (k : Core) (t : Word) : (k.jump t).btb = k.btb := rfl
@[simp] theorem Core.jump_zb (k : Core) (t : Word) : (k.jump t).zb = k.zb := rfl
@[simp] theorem Core.jump_swait (k : Core) (t : Word) : (k.jump t).swait = k.swait := rfl
@[simp] theorem Core.jump_errStore (k : Core) (t : Word) : (k.jump t).errStore = k.errStore := rfl
@[simp] theorem Core.jump_errCore (k : Core) (t : Word) : (k.jump t).errCore = k.errCore := rfl
@[simp] theorem Core.jump_bcasts (k : Core) (t : Word) : (k.jump t).bcasts = k.bcasts := rfl
@[simp] theorem Core.jump_heavy (k : Core) (t : Word) : (k.jump t).heavy = k.heavy := rfl
@[simp] theorem Core.jump_sampQ (k : Core) (t : Word) : (k.jump t).sampQ = k.sampQ := rfl
@[simp] theorem Core.jump_sampDrop (k : Core) (t : Word) : (k.jump t).sampDrop = k.sampDrop := rfl
@[simp] theorem Core.jump_heldMsi (k : Core) (t : Word) : (k.jump t).heldMsi = k.heldMsi := rfl
@[simp] theorem Core.jump_far (k : Core) (t : Word) : (k.jump t).far = k.far := rfl
@[simp] theorem Core.jump_drains (k : Core) (t : Word) : (k.jump t).drains = k.drains := rfl

/-! ### Reading after an update -/

theorem State.core_setCore (s : State) (c : Nat) (k : Core) (c' : Nat) :
    (s.setCore c k).core c' = if c' = c then k else s.core c' := by
  simp only [State.core, State.setCore, Map.get_set]

@[simp] theorem State.core_setCore_same (s : State) (c : Nat) (k : Core) : (s.setCore c k).core c = k := by
  simp [State.core_setCore]

theorem State.core_modCore (s : State) (c : Nat) (f : Core → Core) (c' : Nat) :
    (s.modCore c f).core c' = if c' = c then f (s.core c) else s.core c' := State.core_setCore _ _ _ _

@[simp] theorem State.core_modCore_same (s : State) (c : Nat) (f : Core → Core) : (s.modCore c f).core c = f (s.core c) := by
  simp [State.core_modCore]

@[simp] theorem State.core_wrCsr (s : State) (a : Nat) (v : Word) (c : Nat) : (s.wrCsr a v).core c = s.core c := rfl
@[simp] theorem State.core_putFld (s : State) (a hi lo v c : Nat) : (s.putFld a hi lo v).core c = s.core c := rfl
@[simp] theorem State.core_putFlag (s : State) (a n : Nat) (b : Bool) (c : Nat) : (s.putFlag a n b).core c = s.core c := rfl
@[simp] theorem State.core_bump (s : State) (c : Nat) : s.bump.core c = s.core c := rfl
@[simp] theorem State.core_wrByte (s : State) (a : Nat) (b : Byte) (c : Nat) : (s.wrByte a b).core c = s.core c := rfl

theorem State.rdByte_wrByte (s : State) (a : Nat) (b : Byte) (x : Nat) :
    (s.wrByte a b).rdByte x = if x = a then b else s.rdByte x := by
  simp only [State.rdByte, State.wrByte, Map.get_set]

@[simp] theorem State.rdCsr_setCore (s : State) (c : Nat) (k : Core) (a : Nat) : (s.setCore c k).rdCsr a = s.rdCsr a := rfl
@[simp] theorem State.rdCsr_modCore (s : State) (c : Nat) (f : Core → Core) (a : Nat) : (s.modCore c f).rdCsr a = s.rdCsr a := rfl
@[simp] theorem State.rdCsr_bump (s : State) (a : Nat) : s.bump.rdCsr a = s.rdCsr a := rfl
@[simp] theorem State.rdCsr_wrByte (s : State) (x : Nat) (b : Byte) (a : Nat) : (s.wrByte x b).rdCsr a = s.rdCsr a := rfl

/-- A write of a CSR other than DSE_STATUS leaves the profile. -/
theorem State.profile_wrCsr (s : State) (a : Nat) (v : Word) (h : a ≠ dseBase) : (s.wrCsr a v).profile = s.profile := by
  simp only [State.profile, State.wrCsr]
  rw [Map.get_set_ne 0 _ _ _ _ (Ne.symm h)]

/-- A CSR reads as written, and the others as before. -/
theorem State.rdCsr_wrCsr (s : State) (a : Nat) (v : Word) (h : a ≠ dseBase) (b : Nat) :
    (s.wrCsr a v).rdCsr b = if b = a then v else s.rdCsr b := by
  unfold State.rdCsr
  rw [State.profile_wrCsr s a v h]
  by_cases hb : b = a
  · subst hb; simp [State.wrCsr]
  · simp only [State.wrCsr, if_neg hb]
    exact Map.get_set_ne _ _ _ _ _ hb

theorem Core.srv_setSr (k : Core) (n : Nat) (v : Word) (j : Nat) : (k.setSr n v).srv j = if j = n then v else k.srv j := by
  unfold Core.srv Core.setSr
  by_cases h : j = n
  · subst h; simp
  · simp only [if_neg h]
    exact Map.get_set_ne _ _ _ _ _ h

@[simp] theorem Core.srv_adv (k : Core) (n : Nat) : k.adv.srv n = k.srv n := rfl
@[simp] theorem Core.srv_jump (k : Core) (t : Word) (n : Nat) : (k.jump t).srv n = k.srv n := rfl

end Sys2Proof.Machine
end

