-- ==== Sys2Proof/Laws/Count.lean ====
section
/-! SUPPORT. Counting retired work (R372 to R378) touches what State.Counted and Core.Counted name, and nothing else. -/

namespace Sys2Proof.Machine
open Sys2Proof

theorem Core.Counted.refl (k : Core) : k.Counted k := ⟨rfl, fun _ _ => rfl⟩

theorem Core.Counted.trans {k t u : Core} (h : k.Counted t) (h' : t.Counted u) : k.Counted u := by
  refine ⟨?_, fun n hn => (h'.sr n hn).trans (h.sr n hn)⟩
  have h1 := h.rest
  have h2 := h'.rest
  cases k; cases t; cases u
  simp only [Core.mk.injEq] at *
  simp_all

theorem Core.counted_setSr (k : Core) {n : Nat} (v : Word) (hn : countSr n = true) : k.Counted (k.setSr n v) := by
  refine ⟨rfl, fun j hj => ?_⟩
  rw [Core.srv_setSr, if_neg]
  rintro rfl
  simp_all

/-- A core's lowest CSR address in the tile blocks lies below the DSE block. -/
theorem State.tileOf_lt (s : State) (c : Nat) : s.tileOf c + 0x100000 ≤ dseBase := by
  have h : s.phys c < 2048 := Nat.mod_lt _ (by decide)
  simp only [State.tileOf, tileBase, dseBase]
  omega

theorem State.posOf_lt (s : State) (c : Nat) : s.posOf c < 2 := Nat.mod_lt _ (by decide)

theorem State.slotAddr_lt (s : State) (c : Nat) {sl w : Nat} (hs : sl < 16) (hw : w < 8) : s.slotAddr c sl (8 * w) < dseBase := by
  have h := s.tileOf_lt c
  have h' := s.posOf_lt c
  simp only [State.slotAddr]
  omega

theorem State.countCsr_lt {s : State} {c a : Nat} (h : s.countCsr c a) : a < dseBase := by
  rcases h with rfl | ⟨sl, w, hs, hw, rfl⟩
  · have := s.tileOf_lt c
    omega
  · exact s.slotAddr_lt c hs hw

theorem State.countCsr_congr {s t : State} {c : Nat} (h : t.phys c = s.phys c) (a : Nat) :
    t.countCsr c a ↔ s.countCsr c a := by
  simp only [State.countCsr, State.slotAddr, State.tileOf, State.posOf, h]

theorem State.Counted.phys {s t : State} {c : Nat} (h : s.Counted t c) (c' : Nat) : t.phys c' = s.phys c' := by
  unfold State.phys
  rw [h.csr]
  intro h'
  have := State.countCsr_lt h'
  omega

theorem State.Counted.refl (s : State) (c : Nat) : s.Counted s c := ⟨rfl, fun _ _ => rfl, fun _ _ => rfl⟩

theorem State.Counted.trans {s t u : State} {c : Nat} (h : s.Counted t c) (h' : t.Counted u c) : s.Counted u c := by
  refine ⟨?_, fun c' hc => (h'.others c' hc).trans (h.others c' hc), fun a ha => ?_⟩
  · have h1 := h.rest
    have h2 := h'.rest
    cases s; cases t; cases u
    simp only [State.mk.injEq] at *
    simp_all
  · rw [h'.csr a, h.csr a ha]
    rwa [State.countCsr_congr (h.phys c)]

/-- A change of core c alone. -/
theorem State.counted_modCore (s : State) (c : Nat) (f : Core → Core) : s.Counted (s.modCore c f) c :=
  ⟨rfl, fun c' hc => by rw [State.core_modCore, if_neg hc], fun _ _ => rfl⟩

theorem State.counted_bump (s : State) (c : Nat) : s.Counted s.bump c := ⟨rfl, fun _ _ => rfl, fun _ _ => rfl⟩

theorem State.counted_wrCsr (s : State) (c : Nat) {a : Nat} (v : Word) (h : s.countCsr c a) : s.Counted (s.wrCsr a v) c := by
  refine ⟨rfl, fun _ _ => rfl, fun b hb => ?_⟩
  have := State.countCsr_lt h
  rw [State.rdCsr_wrCsr s a v (by omega), if_neg]
  rintro rfl
  exact hb h

/-- What counting does to state and core. -/
def State.OnlyCounts (s t : State) (c : Nat) : Prop := s.Counted t c ∧ (s.core c).Counted (t.core c)

theorem State.OnlyCounts.refl (s : State) (c : Nat) : s.OnlyCounts s c := ⟨.refl s c, .refl _⟩

theorem State.OnlyCounts.trans {s t u : State} {c : Nat} (h : s.OnlyCounts t c) (h' : t.OnlyCounts u c) : s.OnlyCounts u c :=
  ⟨h.1.trans h'.1, h.2.trans h'.2⟩

theorem State.onlyCounts_modCore (s : State) (c : Nat) (f : Core → Core) (h : (s.core c).Counted (f (s.core c))) :
    s.OnlyCounts (s.modCore c f) c :=
  ⟨s.counted_modCore c f, by rwa [State.core_modCore_same]⟩

theorem State.onlyCounts_bump (s : State) (c : Nat) : s.OnlyCounts s.bump c := ⟨s.counted_bump c, .refl _⟩

theorem State.onlyCounts_wrCsr (s : State) (c : Nat) {a : Nat} (v : Word) (h : s.countCsr c a) : s.OnlyCounts (s.wrCsr a v) c :=
  ⟨s.counted_wrCsr c v h, .refl _⟩

theorem Core.counted_pushSample (k : Core) (r : List Word) : k.Counted (k.pushSample r) := by
  unfold Core.pushSample
  simp only
  split
  · have h := k.counted_setSr (n := 0x334) (BitVec.ofNat 64 (satN 32 ((k.srv 0x334).toNat + 1))) (by decide)
    exact ⟨rfl, h.sr⟩
  · exact ⟨rfl, fun _ _ => rfl⟩

theorem State.onlyCounts_preciseSample (s : State) (c n pl : Nat) (v : Bool) (x : Samp) :
    s.OnlyCounts (s.preciseSample c n pl v x) c := by
  unfold State.preciseSample
  simp only
  split
  · exact (s.onlyCounts_bump c).trans (State.onlyCounts_modCore _ c _ (Core.counted_pushSample _ _))
  · exact .refl s c

theorem Core.counted_setPend (k : Core) {v : Nat} (h : v < 512) : k.Counted (k.setPend v) :=
  k.counted_setSr _ (by simp only [countSr, Bool.or_eq_true, Bool.and_eq_true, decide_eq_true_eq]; omega)

theorem bitsN_lt (x : Word) (hi lo : Nat) : bitsN x hi lo < 2 ^ (hi + 1 - lo) := Nat.mod_lt _ (Nat.two_pow_pos _)

theorem State.onlyCounts_ovfInt (s : State) (c n : Nat) : s.OnlyCounts (s.ovfInt c n) c := by
  have hp : s.OnlyCounts (s.modCore c (fun k => k.setPend (bitsN (k.srv 0x301) 10 2))) c :=
    s.onlyCounts_modCore c _ (Core.counted_setPend _ (bitsN_lt _ 10 2))
  unfold State.ovfInt
  simp only
  split
  · rename_i sl hsl
    split
    · refine s.onlyCounts_wrCsr c _ (Or.inr ⟨sl, _, ?_, ?_, rfl⟩)
      · unfold Core.slotCur at hsl
        split at hsl
        · injection hsl with hsl
          rw [← hsl]
          exact bitsN_lt _ 3 0
        · cases hsl
      · have := bitsN_lt ((s.core c).srv 0x318) 25 17
        omega
    · exact hp
  · exact hp

theorem State.OnlyCounts.ite {s t u : State} {c : Nat} {b : Prop} [Decidable b] (h : s.OnlyCounts t c) (h' : s.OnlyCounts u c) :
    s.OnlyCounts (if b then t else u) c := by
  split <;> assumption

/-- What a wrapped counter does to status and interrupt is counting. -/
theorem State.onlyCounts_wrapped (s : State) (c n : Nat) : s.OnlyCounts (s.wrapped c n) c := by
  have h2 := s.onlyCounts_modCore c (fun k => k.setSr 0x302 (putB (k.srv 0x302) n true)) (Core.counted_setSr _ _ (by decide))
  have h4 (u : State) : u.OnlyCounts (u.modCore c (fun k => k.setSr 0x301 (putB (k.srv 0x301) 0 false))) c :=
    u.onlyCounts_modCore c _ (Core.counted_setSr _ _ (by decide))
  unfold State.wrapped
  have h3 := h2.trans (State.OnlyCounts.ite (b := bitB ((s.core c).srv (0x310 + n)) 14 = true)
    (State.onlyCounts_ovfInt _ c n) (.refl _ c))
  exact h3.trans (State.OnlyCounts.ite (b := bitB ((s.core c).srv 0x301) 11 = true) (h4 _) (.refl _ c))

theorem State.onlyCounts_counter (s : State) (c : Nat) {n : Nat} (hn : n < 8) (f : Core → Word) :
    s.OnlyCounts (s.modCore c (fun k => k.setSr (0x308 + n) (f k))) c :=
  s.onlyCounts_modCore c _ (Core.counted_setSr _ _
    (by simp only [countSr, Bool.or_eq_true, Bool.and_eq_true, decide_eq_true_eq]; omega))

theorem State.onlyCounts_bumpCounter (s : State) (c : Nat) {n : Nat} (hn : n < 8) (pl : Nat) (v : Bool) (x : Samp) :
    s.OnlyCounts (s.bumpCounter c n pl v x) c := by
  have h1 := s.onlyCounts_counter c hn (fun _ => (s.core c).srv (0x308 + n) + 1)
  unfold State.bumpCounter
  refine State.OnlyCounts.ite ?_ h1
  have h5 := h1.trans (State.onlyCounts_wrapped _ c n)
  exact State.OnlyCounts.ite ((h5.trans (State.onlyCounts_counter _ c hn _)).trans (State.onlyCounts_preciseSample _ c n pl v x)) h5

theorem State.onlyCounts_growCounter (s : State) (c : Nat) {n : Nat} (hn : n < 8) (b : Nat) :
    s.OnlyCounts (s.growCounter c n b) c := by
  have h1 (w : Word) := s.onlyCounts_counter c hn (fun _ => w)
  unfold State.growCounter
  exact State.OnlyCounts.ite ((h1 _).trans (State.onlyCounts_wrapped _ c n)) (h1 _)

theorem State.onlyCounts_growFrom (s : State) (c pl : Nat) (v : Bool) (b : Nat) (l : List Nat) (hl : ∀ n ∈ l, n < 8) :
    s.OnlyCounts (s.growFrom c pl v b l) c := by
  induction l generalizing s with
  | nil => exact .refl s c
  | cons n l ih =>
    simp only [State.growFrom]
    refine State.OnlyCounts.trans ?_ (ih _ (fun m hm => hl m (by simp [hm])))
    split
    · exact s.onlyCounts_growCounter c (hl n (by simp)) b
    · exact .refl s c

theorem State.onlyCounts_countFrom (s : State) (c : Nat) (evs : List Nat) (pl : Nat) (v : Bool) (x : Samp) (l : List Nat)
    (hl : ∀ n ∈ l, n < 8) : s.OnlyCounts (s.countFrom c evs pl v x l) c := by
  induction l generalizing s with
  | nil => exact .refl s c
  | cons n l ih =>
    simp only [State.countFrom]
    refine State.OnlyCounts.trans ?_ (ih _ (fun m hm => hl m (by simp [hm])))
    split
    · exact s.onlyCounts_bumpCounter c (hl n (by simp)) pl v x
    · exact .refl s c

/-- Counting events touches only what it may. -/
theorem State.onlyCounts_count (s : State) (c : Nat) (evs : List Nat) (pl : Nat) (v : Bool) (x : Samp) :
    s.OnlyCounts (s.count c evs pl v x) c := by
  unfold State.count
  have hr : ∀ n ∈ List.range 8, n < 8 := fun n hn => List.mem_range.mp hn
  have h := s.onlyCounts_countFrom c evs pl v x _ hr
  exact State.OnlyCounts.ite (.refl s c)
    (State.OnlyCounts.ite ((h.trans (State.onlyCounts_growFrom _ c pl v _ _ hr)).trans (State.onlyCounts_bump _ c)) h)

theorem State.counted_commit (s : State) (c : Nat) : s.Counted (s.commit c) c := by
  unfold State.commit
  split
  · exact s.counted_wrCsr c _ (Or.inl rfl)
  · exact .refl s c

theorem State.core_commit (s : State) (c c' : Nat) : (s.commit c).core c' = s.core c' := by
  unfold State.commit
  split
  · exact State.core_putFld ..
  · rfl

/-- Retirement: only counting, beside the hold on a load-linked's line (R142). -/
theorem State.retire_counts (s : State) (c : Nat) (evs : List Nat) (plain : Bool) (x : Samp) :
    s.Counted (s.retire c evs plain x) c ∧ ((s.core c).holdStep plain).Counted ((s.retire c evs plain x).core c) := by
  unfold State.retire
  have h := State.onlyCounts_count ((s.commit c).modCore c (fun k => k.holdStep plain)) c (evInst :: evs) (s.core c).pl
    (s.core c).vf x
  refine ⟨((s.counted_commit c).trans (State.counted_modCore _ c _)).trans h.1, ?_⟩
  have h2 := h.2
  rw [State.core_modCore_same, State.core_commit] at h2
  exact h2

/-- An instruction whose effect is a change f of its core. -/
theorem State.fin_counts (s : State) (c : Nat) (evs : List Nat) (plain : Bool) (f : Core → Core) :
    s.Counted (s.fin c evs plain f) c ∧ ((f (s.core c)).adv.holdStep plain).Counted ((s.fin c evs plain f).core c) := by
  unfold State.fin
  have h := State.retire_counts (s.modCore c (fun k => (f k).adv)) c evs plain { pc := (s.core c).pc }
  refine ⟨(s.counted_modCore c _).trans h.1, ?_⟩
  have h2 := h.2
  rw [State.core_modCore_same] at h2
  exact h2

end Sys2Proof.Machine
end

