-- ==== Sys2Proof/Laws/Fields.lean ====
section
/-! SUPPORT. Fields of words and of chip CSRs: what a field reads after it, or another one, was written. -/

namespace Sys2Proof

theorem getLsbD_maskW (hi lo i : Nat) (h : i < 64) : (maskW hi lo).getLsbD i = (decide (lo ≤ i) && decide (i ≤ hi)) := by
  unfold maskW
  rw [BitVec.getLsbD_ofNat, Nat.testBit_mul_two_pow, Nat.testBit_two_pow_sub_one]
  by_cases a : lo ≤ i <;> by_cases b : i ≤ hi <;> simp [a, b, h] <;> omega

/-- Each bit of a word whose field was replaced. -/
theorem getLsbD_putW (x : Word) (hi lo v i : Nat) (h : i < 64) :
    (putW x hi lo v).getLsbD i = if lo ≤ i ∧ i ≤ hi then v.testBit (i - lo) else x.getLsbD i := by
  unfold putW
  rw [BitVec.getLsbD_or, BitVec.getLsbD_and, BitVec.getLsbD_and, BitVec.getLsbD_not, getLsbD_maskW _ _ _ h, BitVec.getLsbD_ofNat,
    Nat.testBit_mul_two_pow]
  by_cases a : lo ≤ i <;> by_cases b : i ≤ hi <;> simp [a, b, h]

theorem testBit_bitsN (x : Word) (hi lo i : Nat) : (bitsN x hi lo).testBit i = (decide (i < hi + 1 - lo) && x.getLsbD (lo + i)) := by
  unfold bitsN
  rw [Nat.testBit_mod_two_pow, Nat.testBit_div_two_pow, Nat.add_comm i lo]
  rfl

/-- A field read where it was written. -/
theorem bitsN_putW (x : Word) {hi lo : Nat} (v : Nat) (h : hi < 64) : bitsN (putW x hi lo v) hi lo = v % 2 ^ (hi + 1 - lo) := by
  refine Nat.eq_of_testBit_eq (fun i => ?_)
  rw [testBit_bitsN, Nat.testBit_mod_two_pow]
  by_cases a : i < hi + 1 - lo
  · rw [getLsbD_putW _ _ _ _ _ (by omega), if_pos ⟨by omega, by omega⟩, show lo + i - lo = i by omega]
  · simp [a]

/-- A field read after another one was written. -/
theorem bitsN_putW_ne (x : Word) {hi lo hi' lo' : Nat} (v : Nat) (h : hi < 64) (d : hi < lo' ∨ hi' < lo) :
    bitsN (putW x hi' lo' v) hi lo = bitsN x hi lo := by
  refine Nat.eq_of_testBit_eq (fun i => ?_)
  rw [testBit_bitsN, testBit_bitsN]
  by_cases a : i < hi + 1 - lo
  · rw [getLsbD_putW _ _ _ _ _ (by omega), if_neg (by omega)]
  · simp [a]

/-- A bit read where it was written, and after a field without it was written. -/
theorem bitB_putB (x : Word) {n : Nat} (b : Bool) (h : n < 64) : bitB (putB x n b) n = b := by
  show (putW x n n _).getLsbD n = b
  rw [getLsbD_putW _ _ _ _ _ h, if_pos ⟨Nat.le_refl n, Nat.le_refl n⟩, Nat.sub_self]
  cases b <;> rfl
theorem bitB_putW_ne (x : Word) {hi lo n : Nat} (v : Nat) (h : n < 64) (d : n < lo ∨ hi < n) : bitB (putW x hi lo v) n = bitB x n := by
  show (putW x hi lo v).getLsbD n = x.getLsbD n
  rw [getLsbD_putW _ _ _ _ _ h, if_neg (by omega)]
theorem bitsN_putB_ne (x : Word) {hi lo n : Nat} (b : Bool) (h : hi < 64) (d : n < lo ∨ hi < n) : bitsN (putB x n b) hi lo = bitsN x hi lo :=
  bitsN_putW_ne x _ h (by omega)
theorem bitB_putB_ne (x : Word) {m n : Nat} (b : Bool) (h : n < 64) (d : n ≠ m) : bitB (putB x m b) n = bitB x n :=
  bitB_putW_ne x _ h (by omega)

namespace Machine

/-! ## Chip CSRs -/

theorem State.rdCsr_putFld (s : State) {a : Nat} (hi lo v b : Nat) (h : a ≠ dseBase) :
    (s.putFld a hi lo v).rdCsr b = if b = a then putW (s.rdCsr a) hi lo v else s.rdCsr b := s.rdCsr_wrCsr a _ h b
theorem State.rdCsr_putFlag (s : State) {a : Nat} (n : Nat) (v : Bool) (b : Nat) (h : a ≠ dseBase) :
    (s.putFlag a n v).rdCsr b = if b = a then putB (s.rdCsr a) n v else s.rdCsr b := s.rdCsr_wrCsr a _ h b

theorem State.fld_putFld (s : State) {a hi : Nat} (lo v : Nat) (h : a ≠ dseBase) (hh : hi < 64) :
    (s.putFld a hi lo v).fld a hi lo = v % 2 ^ (hi + 1 - lo) := by
  unfold State.fld
  rw [State.rdCsr_putFld _ _ _ _ _ h, if_pos rfl, bitsN_putW _ _ hh]
theorem State.flag_putFlag (s : State) {a n : Nat} (v : Bool) (h : a ≠ dseBase) (hn : n < 64) : (s.putFlag a n v).flag a n = v := by
  unfold State.flag
  rw [State.rdCsr_putFlag _ _ _ _ h, if_pos rfl, bitB_putB _ _ hn]

end Machine
end Sys2Proof
end

