-- ==== Sys2Proof/Laws/Instr.lean ====
section
/-! SUPPORT. What the shared shapes of instructions do, once for each shape. -/

namespace Sys2Proof.Machine
open Sys2Proof

/-- An instruction of a core that retires its next instruction has its own effect. -/
theorem State.run_of_runs {s : State} {c : Nat} (h : s.Runs c) (t : State) : s.run c t = t := by
  have hd : s.dueTrap c = none := Option.isNone_iff_eq_none.1 h.noTrap
  simp [State.run, h.running, h.free, hd]

/-- An instruction of a core that retires none changes nothing. -/
theorem State.run_of_stopped {s : State} {c : Nat} (h : (s.core c).run ≠ .running) (t : State) : s.run c t = s :=
  if_neg (fun x => h x.1)

/-- A trap that is due is taken in place of an instruction (R211). -/
theorem State.run_of_due {s u : State} {c : Nat} (hr : (s.core c).run = .running) (hf : (s.core c).far = none)
    (hd : s.dueTrap c = some u) (t : State) : s.run c t = u := by
  simp [State.run, hr, hf, hd]

/-- An instruction that retires with a change f of its core alone. -/
theorem completes_fin {i : Instr} {s : State} {c : Nat} (evs : List Nat) (plain : Bool) (f : Core → Core)
    (h : s.Runs c) (hi : exec i s = .next (s.run c (s.fin c evs plain f))) :
    Completes i s c ((f (s.core c)).adv.holdStep plain) :=
  ⟨_, by rw [hi, State.run_of_runs h], (s.fin_counts c evs plain f).1, (s.fin_counts c evs plain f).2⟩

/-- An integer instruction: rd takes f of the core. -/
theorem completes_alu {i : Instr} {s : State} {c rd : Nat} (f : Core → Word) (h : s.Runs c) (hi : exec i s = s.alu c rd f) :
    Completes i s c ((s.core c).put rd (f (s.core c))) :=
  completes_fin [] true (fun k => k.wr rd (f k)) h hi

end Sys2Proof.Machine
end

