-- ==== Sys2Proof/Laws/Memory.lean ====
section
/-! SUPPORT. The memory operations: each keeps the canonical form of the memory list, a read after a write gives the
bytes written, and every other byte stays. -/

namespace Sys2Proof.Machine
open Sys2Proof

/-! ## The canonical form -/

theorem State.inv_wrByte {s : State} (a : Nat) (b : Byte) (h : s.Inv) : (s.wrByte a b).Inv :=
  Map.wf_set (0 : BitVec 8) a b h

theorem State.inv_wrCells {s : State} (l : List (Nat × Byte)) (h : s.Inv) : (s.wrCells l).Inv := by
  induction l generalizing s with
  | nil => exact h
  | cons e l ih => exact ih (s.inv_wrByte e.1 e.2 h)

theorem State.inv_wrN {s : State} (a v n : Nat) (h : s.Inv) : (s.wrN a v n).Inv := s.inv_wrCells _ h

theorem State.inv_wrLine {s : State} (line : Nat) (d : Line) (h : s.Inv) : (s.wrLine line d).Inv := s.inv_wrCells _ h

/-- Bytes dropped from the list, as a frame's are when it is reclaimed. -/
theorem State.inv_filter {s t : State} (p : Nat × Byte → Bool) (e : t.mem = s.mem.filter p) (h : s.Inv) : t.Inv := by
  unfold State.Inv at *
  rw [e]
  exact Map.wf_filter _ p h

theorem State.inv_of_mem {s t : State} (e : t.mem = s.mem) (h : s.Inv) : t.Inv := by
  unfold State.Inv at *
  rw [e]
  exact h

theorem State.inv_nil {s : State} (e : s.mem = []) : s.Inv := by
  unfold State.Inv
  rw [e]
  rfl

theorem State.inv_reset : State.reset.Inv := State.inv_nil rfl

/-! ## Nothing but memory changes -/

theorem State.wrCells_rest (s : State) (l : List (Nat × Byte)) : { s.wrCells l with mem := s.mem } = s := by
  induction l generalizing s with
  | nil => rfl
  | cons e l ih => exact (congrArg (fun t : State => { t with mem := s.mem }) (ih (s.wrByte e.1 e.2))).trans rfl

theorem State.wrN_rest (s : State) (a v n : Nat) : { s.wrN a v n with mem := s.mem } = s := s.wrCells_rest _

/-! ## Reading after writing -/

theorem State.rdByte_wrCells_ne {s : State} {l : List (Nat × Byte)} {x : Nat} (h : ∀ e ∈ l, e.1 ≠ x) :
    (s.wrCells l).rdByte x = s.rdByte x := by
  induction l generalizing s with
  | nil => rfl
  | cons e l ih =>
    refine (ih (fun y hy => h y (List.mem_cons_of_mem _ hy))).trans ?_
    rw [State.rdByte_wrByte, if_neg (Ne.symm (h e List.mem_cons_self))]

theorem cellsOf_range {a v n : Nat} {e : Nat × Byte} (h : e ∈ cellsOf a v n) : a ≤ e.1 ∧ e.1 < a + n := by
  induction n generalizing a v with
  | zero => exact absurd h List.not_mem_nil
  | succ n ih =>
    rcases List.mem_cons.1 h with rfl | h'
    · exact ⟨Nat.le_refl a, Nat.lt_add_of_pos_right (Nat.succ_pos n)⟩
    · have := ih h'
      omega

/-- A byte outside the bytes written stays. -/
theorem State.rdByte_wrN_ne {s : State} {a v n x : Nat} (h : x < a ∨ a + n ≤ x) : (s.wrN a v n).rdByte x = s.rdByte x :=
  State.rdByte_wrCells_ne (fun e he => by have := cellsOf_range he; omega)

/-- A byte that was written reads as the number's byte, the low one at the lowest address. -/
theorem State.rdByte_wrN {s : State} {a v n i : Nat} (h : i < n) :
    (s.wrN a v n).rdByte (a + i) = BitVec.ofNat 8 (v / 256 ^ i) := by
  induction n generalizing s a v i with
  | zero => omega
  | succ n ih =>
    show ((s.wrByte a (BitVec.ofNat 8 v)).wrN (a + 1) (v / 256) n).rdByte (a + i) = _
    cases i with
    | zero =>
      rw [State.rdByte_wrN_ne (Or.inl (by omega)), State.rdByte_wrByte]
      simp
    | succ i =>
      rw [show a + (i + 1) = a + 1 + i by omega, ih (by omega), Nat.div_div_eq_div_mul, Nat.pow_succ, Nat.mul_comm]

theorem State.rdN_congr {s t : State} {a n : Nat} (h : ∀ x, a ≤ x → x < a + n → t.rdByte x = s.rdByte x) : t.rdN a n = s.rdN a n := by
  induction n generalizing a with
  | zero => rfl
  | succ n ih =>
    show (t.rdByte a).toNat + 256 * t.rdN (a + 1) n = (s.rdByte a).toNat + 256 * s.rdN (a + 1) n
    rw [h a (Nat.le_refl a) (by omega), ih (fun x h1 h2 => h x (by omega) (by omega))]

/-- A number read after a number was written beside it. -/
theorem State.rdN_wrN_ne {s : State} {a v n b m : Nat} (h : b + m ≤ a ∨ a + n ≤ b) : (s.wrN a v n).rdN b m = s.rdN b m :=
  State.rdN_congr (fun x _ _ => State.rdByte_wrN_ne (by omega))

/-- A number read where it was written. -/
theorem State.rdN_wrN (s : State) (a v n : Nat) : (s.wrN a v n).rdN a n = v % 256 ^ n := by
  induction n generalizing s a v with
  | zero => simp [State.rdN, Nat.mod_one]
  | succ n ih =>
    have h0 : (s.wrN a v (n + 1)).rdByte a = BitVec.ofNat 8 v := by
      have := State.rdByte_wrN (s := s) (a := a) (v := v) (n := n + 1) (i := 0) (by omega)
      simpa using this
    have h1 : (s.wrN a v (n + 1)).rdN (a + 1) n = v / 256 % 256 ^ n := ih (s.wrByte a (BitVec.ofNat 8 v)) (a + 1) (v / 256)
    show ((s.wrN a v (n + 1)).rdByte a).toNat + 256 * (s.wrN a v (n + 1)).rdN (a + 1) n = _
    rw [h0, h1, BitVec.toNat_ofNat, show (256 : Nat) ^ (n + 1) = 256 * 256 ^ n from Nat.pow_succ', Nat.mod_mul]

end Sys2Proof.Machine
end

