-- ==== Sys2Proof/Tests/Slice0.lean ====
section
/-! SUPPORT. The model's own tests: ill-formed terms that well-formedness refuses, and, for the statements, small states
and operands that meet their hypotheses, with what the command then leaves. Expected values come from the spec's words. -/

namespace Sys2Proof.Tests
open Sys2Proof Sys2Proof.Machine

-- One theorem at a time: each kernel evaluation then has the memory to itself.
set_option Elab.async false

/-- The state that a command leaves. -/
def tRun (i : Instr) (s : State) : State :=
  match exec i s with
  | .next t => t
  | _ => s
/-- Whether a command leaves the state as it was. -/
def tSame (i : Instr) (s : State) : Bool :=
  match exec i s with
  | .next t => decide (t = s)
  | _ => false

/-! ## Well-formed commands -/

def wq : Requester := { pl := 3, v := false, svc := false, dse := true, router := 575, agent := 0 }
def wqBad : Requester := { wq with pl := 4 }
def wa : CsrReq := { pa := 0, size := 8, value := 0, req := wq }
def waBad : CsrReq := { wa with size := 3 }
def wp : Pkt := { op := .RdS, src := ⟨1, 0⟩, dst := ⟨2, 2⟩, txid := 0, addr := 0 }
def wi : Inbound := { port := 0, rid := 0, tag := 0, kind := .read, addr := 0, len := 8, bytes := [], ep := false, pfx := false, atf := 0 }
def wt : TrainEnv := { ok := true, speed := 1, width := 1, lanes := 255, type3 := true, capacity := 0 }
def wc : ChanEnv := { density := 0, ranks := 4, pass := [0, 1, 2, 3] }
def wd : DramEnv := ⟨⟨[], []⟩, ⟨[], []⟩⟩
def wr : FaultRep := { unit := 1, index := 0, loc := 0, sev := 0, detail := 0, time := 0 }

theorem test_wf_accepts : ([.registerWrite wa, .lock 0 0 wq, .rds wp, .inboundRequest wi, .faultReport wr, .linkTrained 0 wt,
    .vcmpeq 0 1 0 0 0 0 false, .fadd 0 0 0 0 false 5, .ll 0 0 0 2 false, .slliw 0 0 0 31] : List Instr).all Instr.wf = true := by
  decide +kernel


/-! ## Small states -/

/-- Core 5 runs at the reset entry, with values in g1 to g9. -/
def tK : Core := { Core.reset with run := .running, g := [(1, 5), (2, 0xFFFFFFFFFFFFFFFF), (3, 0x8000000000000000),
  (4, 0x80000000), (5, 0x123456789ABCDEF0), (6, 0x00F0), (7, 7), (8, 64), (9, 0xFFFFFFFF80000000)] }
/-- The part after reset with core 5 as given. -/
def tWith (k : Core) : State := State.reset.setCore 5 k
def tS : State := tWith tK

/-- Whether i answers a next state in which core 5 is k up to counting, and nothing else has changed. -/
def tDone (i : Instr) (s : State) (k : Core) : Bool :=
  match exec i s with
  | .next t =>
    let u := t.core 5
    decide ({ t with cores := s.cores, csr := s.csr, free := s.free, nru := s.nru } = s) &&
      decide ({ u with sr := k.sr, sampQ := k.sampQ, sampDrop := k.sampDrop } = k) && decide (t.csr = s.csr)
  | _ => false
/-- Whether i writes v to rd and nothing else. -/
def tPuts (i : Instr) (rd : Nat) (v : Word) : Bool := tDone i tS (tK.put rd v)

theorem test_runs : tS.Runs 5 := ⟨by decide +kernel, by decide +kernel, by decide +kernel⟩

/-- Core 5 at PL3 (untranslated), with addresses in g11 to g15; frame 0 is near memory, and its bytes at 0x1000 are listed. -/
def tKm : Core := { tK with g := tK.g ++ [(11, 0x1000), (12, 0x1008), (13, 0x1001), (14, 0x3E), (15, 0xF00F000000000)] }
def tBytes : Map Byte := [(0x1000, 0x80), (0x1001, 0x81), (0x1002, 0x82), (0x1003, 0x83), (0x1007, 0x87), (0x1008, 0x88)]
def tMem0 : State := { (tWith tKm).wrCsr (dseBase + 0x10000 + 8 * 5) 0x1005 with remap := [(0, 1)], mem := tBytes }
/-- The same, with the lines of 0, 0x40 and 0x1000 in state E in its L2. -/
def tMem : State := [0, 1, 0x40].foldl (fun s l => s.setL2 (s.phys 5) l { L2Line.empty with st := .E }) tMem0
/-- What xlate answers for an untranslated access of core 5 to n bytes at a. -/
def tX (a n : Nat) : Xl := match tKm.xlate accLoad (BitVec.ofNat 64 a) n with
  | .ok x => x
  | .error _ => { pas := [], se := false, pages := [] }
/-- What i leaves in g10 of core 5. -/
def t10 (i : Instr) (s : State) : Word := ((tRun i s).core 5).rd 10
/-- The core after an instruction with no destination. -/
def tNext (k : Core) : Core := { k with pc := k.pc + 4, hold := none }
/-- Core 5 at a level, outside the guest, with its vector bases. -/
def tAt (pl : Nat) : Core := { tK with sr := [(0, BitVec.ofNat 64 pl), (0x15, 0x11000), (0x25, 0x22000), (0x35, 0x33000)] }
/-- Frame 0 in near memory, frame 12 (home function 0) in far memory on port 3, and command slots at 0x2000. -/
def tSor : State := { State.reset with remap := [(0, mkEntry 1 0 5), (12, mkEntry 2 3 7)], farUse := [(3 * 2 ^ 21 + 7, .plain)], ctime := 9 }
/-- Whether i sends packets of these opcodes to these agents, from a state with none in flight. -/
def tSends (i : Instr) (s : State) (ps : List (Op × Agt)) : Bool :=
  let t := tRun i s
  decide (t.net.map (fun x => x.op) = ps.map (fun x => x.1)) && decide (t.net.map (fun x => x.dst) = ps.map (fun x => x.2))
/-- The status that i answers. -/
def tStatus (i : Instr) (s : State) : Option Nat := ((tRun i s).net.head?).map (fun x => x.status)
/-- The agents of the slice of line 0x40 and of the home agent of frame 0. -/
def tTheSlice : Agt := ⟨67, 2⟩
def tTheHome : Agt := ⟨288, 0⟩
/-- A packet to the L2 of physical core 5, to the slice of line 0x40, or to the home agent of frame 0. -/
def tToL2 (op : Op) : Pkt := { op := op, src := tTheSlice, dst := physAgt 5, txid := 9, addr := 0x1000 }
def tToSlice (op : Op) : Pkt := { op := op, src := physAgt 5, dst := tTheSlice, txid := 9, addr := 0x1000 }
def tToHome (op : Op) : Pkt := { op := op, src := tTheSlice, dst := tTheHome, txid := 9, addr := 0x1000, data := 0xCD, mask := 2 }
/-- tMem0 with the L2 of physical core 5 holding line 0x40 so. -/
def tL2 (x : L2Line) : State := tMem0.setL2 5 0x40 x
def tDir0 (d : DirLine) : State := tMem0.setDline 0x40 d
def tWay (w : Way) : DirLine := { DirLine.empty with way := w }
/-- Port 3 as a CXL memory port with its link in a state. -/
def tPort (m l : Nat) : State := (tMem0.putFld (prtBase 3) 1 0 m).putFld (prtBase 3 + 8) 3 0 l
def tPrd (op : Op) : Pkt := { op := op, src := ⟨288, 0⟩, dst := portAgt 3, txid := 6, addr := 0x1000 }
theorem test_wf_refuses_1 : ([
    .registerWrite waBad,
    .rejectClear waBad,
    .shadowRead waBad,
    .reservedAccess waBad false,
    .dseWarm 0 wqBad,
    .coreReset 0 0 wqBad,
    .stage3 [] [{ wr with unit := 256 }],
    .stage5 [] [],
    .stage6 (List.replicate 65 0),
    .copyPassEnd 0 ⟨[], [32768]⟩,
    .sorCmdTail 0 0 wqBad,
    .sorCmdBase 0 0 wqBad,
    .sorCmdSize 0 0 wqBad,
    .sorElrHead 0 wqBad,
    .sorElrBase 0 wqBad,
    .sorElrSize 0 wqBad,
    .sorElrReturn 0 wqBad,
    .portEvacuation 0 wqBad,
    .channelEvacuation 0 wqBad,
    .nmcRegionWrite 0 0 0 wqBad,
    .nearReadDone 0 0 32768 wd,
    .nmcSpareStart 0 0 wqBad,
    .rowSpareDone 0 true [(0, wd), (0, wd)],
    .lock 0 0 wqBad,
    .unlock 0 0 wqBad] : List Instr).all (fun i => !i.wf) = true := by decide +kernel

theorem test_wf_refuses_2 : ([
    .unlockAll 0 0 wqBad,
    .l2Disable 0 0 0 wqBad,
    .l2WayDisable 0 0 0 wqBad,
    .l3Disable 0 0 wqBad,
    .l3WayDisable 0 0 wqBad,
    .packetAtRouter 0 { wp with txid := 4096 } .clean,
    .rds { wp with op := .unlisted 99 },
    .rdx { wp with op := .unlisted 99 },
    .upg { wp with op := .unlisted 99 },
    .rdz { wp with op := .unlisted 99 },
    .rdnc { wp with op := .unlisted 99 },
    .wrf { wp with op := .unlisted 99 },
    .wrp { wp with op := .unlisted 99 },
    .fatom { wp with op := .unlisted 99 },
    .flush { wp with op := .unlisted 99 },
    .clean { wp with op := .unlisted 99 },
    .puts { wp with op := .unlisted 99 },
    .pute { wp with op := .unlisted 99 },
    .putm { wp with op := .unlisted 99 },
    .hrd { wp with op := .unlisted 99 },
    .hwrf { wp with op := .unlisted 99 },
    .hwrp { wp with op := .unlisted 99 },
    .hatom { wp with op := .unlisted 99 },
    .hput { wp with op := .unlisted 99 }] : List Instr).all (fun i => !i.wf) = true := by decide +kernel

theorem test_wf_refuses_3 : ([
    .serd { wp with op := .SeRd } wqBad,
    .sewr { wp with op := .SeWr } wqBad,
    .msiwr { wp with op := .unlisted 99 },
    .prd { wp with op := .unlisted 99 },
    .pwrf { wp with op := .unlisted 99 },
    .pwrp { wp with op := .unlisted 99 },
    .patom { wp with op := .unlisted 99 },
    .snps { wp with op := .unlisted 99 },
    .snpx { wp with op := .unlisted 99 },
    .inv { wp with op := .unlisted 99 },
    .data { wp with op := .unlisted 99 },
    .grant { wp with op := .unlisted 99 },
    .cmp { wp with op := .unlisted 99 },
    .wbgo { wp with op := .unlisted 99 },
    .wbstale { wp with op := .unlisted 99 },
    .wback { wp with op := .unlisted 99 },
    .wbdata { wp with op := .unlisted 99 },
    .putcancel { wp with op := .unlisted 99 },
    .snprsp { wp with op := .unlisted 99 },
    .snpdata { wp with op := .unlisted 99 },
    .invack { wp with op := .unlisted 99 },
    .back { wp with op := .unlisted 99 },
    .rwrite { wp with op := .unlisted 99 },
    .rwack { wp with op := .unlisted 99 }] : List Instr).all (fun i => !i.wf) = true := by decide +kernel

theorem test_wf_refuses_4 : ([
    .mark { wp with op := .unlisted 99 },
    .markAck { wp with op := .unlisted 99 },
    .slliw 0 0 0 32,
    .srliw 0 0 0 32,
    .sraiw 0 0 0 32,
    .ll 0 0 0 1 false,
    .sc 0 0 0 0 1 false,
    .aadd 0 0 0 0 1 false false,
    .aswap 0 0 0 0 1 false false,
    .acas 0 0 0 0 1 false false,
    .amin 0 0 0 0 1 false false,
    .amax 0 0 0 0 1 false false,
    .aminu 0 0 0 0 1 false false,
    .amaxu 0 0 0 0 1 false false,
    .fadd 0 0 0 0 false 6,
    .fsub 0 0 0 0 false 6,
    .fmul 0 0 0 0 false 6,
    .fdiv 0 0 0 0 false 6,
    .fsqrt 0 0 0 false 6,
    .fmadd 0 0 0 0 false 6,
    .fmsub 0 0 0 0 false 6,
    .fnmadd 0 0 0 0 false 6,
    .ftoi 0 0 0 false 6,
    .ftou 0 0 0 false 6] : List Instr).all (fun i => !i.wf) = true := by decide +kernel

theorem test_wf_refuses_5 : ([
    .itof 0 0 0 false 6,
    .utof 0 0 0 false 6,
    .fnarrow 0 0 0 6,
    .tlbwr 0 0 0 2,
    .tlbrd 0 0 0 2,
    .tlbprb 0 0 0 2,
    .tlbinv 0 0 0 8,
    .tlbsync 0 2,
    .s2wr 0 0 0 1,
    .s2inv 0 0 0 8,
    .inboundRequest { wi with len := 0 },
    .iotCtxinv 0 0 wqBad,
    .vcmpeq 0 0 0 0 0 0 false,
    .vcmpne 0 0 0 0 0 0 false,
    .vcmplt 0 0 0 0 0 0 false,
    .vcmpltu 0 0 0 0 0 0 false,
    .vcmple 0 0 0 0 0 0 false,
    .vcmpleu 0 0 0 0 0 0 false,
    .vwmulL 0 0 0 0 0 3 false,
    .vwmulH 0 0 0 0 0 3 false,
    .vwmuluL 0 0 0 0 0 3 false,
    .vwmuluH 0 0 0 0 0 3 false,
    .vwmaccL 0 0 0 0 0 3 false,
    .vwmaccH 0 0 0 0 0 3 false] : List Instr).all (fun i => !i.wf) = true := by decide +kernel

theorem test_wf_refuses_6 : ([
    .vwmaccuL 0 0 0 0 0 3 false,
    .vwmaccuH 0 0 0 0 0 3 false,
    .vdot 0 0 0 0 0 2 false,
    .vdotu 0 0 0 0 0 2 false,
    .vdotsu 0 0 0 0 0 2 false,
    .vfadd 0 0 0 0 0 1 false,
    .vfsub 0 0 0 0 0 1 false,
    .vfmul 0 0 0 0 0 1 false,
    .vfmadd 0 0 0 0 0 1 false,
    .vfmin 0 0 0 0 0 1 false,
    .vfmax 0 0 0 0 0 1 false,
    .vfcmpeq 0 0 0 0 0 0 false,
    .vfcmplt 0 0 0 0 0 0 false,
    .vfcmple 0 0 0 0 0 0 false,
    .vitof 0 0 0 0 1 false,
    .vftoi 0 0 0 0 1 false,
    .vmand 0 0 0 0,
    .vmor 0 0 0 0,
    .vmxor 0 0 0 0,
    .vmandn 0 0 0 0,
    .vmmv 0 0 0,
    .vmcnt 0 0 0 0,
    .vmffm 0 0,
    .tileVpwrWrite 0 0 0 wqBad] : List Instr).all (fun i => !i.wf) = true := by decide +kernel

theorem test_wf_refuses_7 : ([
    .linkTrained 0 { wt with width := 3 },
    .configRequest { wp with op := .SeRd } wqBad,
    .peerWindowWrite 0 0 0 wqBad,
    .hotplugFrame 0 [],
    .dbSqTail 0 0 0 wqBad,
    .dbCqHead 0 0 0 wqBad,
    .keySnap 0 wqBad,
    .keyFreeze 0 wqBad,
    .keyThaw 0 wqBad,
    .keyCancel 0 wqBad,
    .dvfsRequest 0 0 wqBad,
    .domainDown 0 wqBad,
    .domainUp 0 wqBad { density := 0, ranks := 1, pass := [] } true,
    .dseRelease 0 wqBad,
    .portAdd (⟨0, true⟩) { wt with width := 3 },
    .smbusBlockWrite [],
    .spiTclaim 0 wqBad,
    .spiTrelease 0 wqBad,
    .faultReport { wr with sev := 4 },
    .requestTimeout { wp with txid := 4096 },
    .jtagInstruction 4] : List Instr).all (fun i => !i.wf) = true := by decide +kernel


/-! ## Integer instructions: values worked out by hand from Tables 6.4 to 6.6 and R178 -/

theorem test_registers : tK.rd 0 = 0 ∧ tK.wr 0 7 = tK ∧ (tK.wr 12 7).rd 12 = 7 ∧ (tK.wr 12 7).rd 1 = 5 ∧
    (let k : Core := { tK with sr := [(0, 0xB)] }; k.shb = true ∧ (k.wr 25 7).rd 25 = 7 ∧ (k.wr 25 7).g = tK.g) := by decide +kernel

theorem test_immediates :
    (tPuts (.addi 5 10 2 1) 10 0 && tPuts (.addi 5 10 1 (-6)) 10 (-1) && tPuts (.andi 5 10 5 (-1)) 10 0x123456789ABCDEF0 &&
      tPuts (.ori 5 10 1 (-1)) 10 0x1FFFF && tPuts (.xori 5 10 2 (-1)) 10 0xFFFFFFFFFFFE0000 &&
      tPuts (.slti 5 10 3 (-65536)) 10 1 && tPuts (.sltiu 5 10 3 (-1)) 10 1 && tPuts (.sltiu 5 10 2 (-1)) 10 0) = true := by
  decide +kernel

theorem test_load_immediates :
    (tPuts (.li 5 10 (-1)) 10 (-1) && tPuts (.lsi 5 1 3) 1 0x1400003 && tPuts (.pcoff 5 10 (-1)) 10 0xF00F000000000 &&
      tPuts (.pcoff 5 10 1) 10 0xF00F000000800) = true := by decide +kernel

theorem test_shifts :
    (tPuts (.slli 5 10 2 63) 10 0x8000000000000000 && tPuts (.srli 5 10 3 63) 10 1 && tPuts (.srai 5 10 3 63) 10 (-1) &&
      tPuts (.rori 5 10 1 1) 10 0x8000000000000002 && tPuts (.slliw 5 10 1 31) 10 0xFFFFFFFF80000000 &&
      tPuts (.srliw 5 10 9 31) 10 1 && tPuts (.sraiw 5 10 4 31) 10 (-1) && tPuts (.sll 5 10 1 8) 10 5 &&
      tPuts (.srl 5 10 3 2) 10 1 && tPuts (.sra 5 10 3 7) 10 0xFF00000000000000 && tPuts (.ror 5 10 1 1) 10 0x2800000000000000 &&
      tPuts (.sllw 5 10 1 2) 10 0xFFFFFFFF80000000 && tPuts (.srlw 5 10 4 7) 10 0x1000000 &&
      tPuts (.sraw 5 10 4 7) 10 0xFFFFFFFFFF000000) = true := by decide +kernel

theorem test_arithmetic :
    (tPuts (.add 5 10 2 1) 10 4 && tPuts (.sub 5 10 1 7) 10 (-2) && tPuts (.addw 5 10 4 2) 10 0x7FFFFFFF &&
      tPuts (.subw 5 10 1 4) 10 0xFFFFFFFF80000005 && tPuts (.and 5 10 1 7) 10 5 && tPuts (.or 5 10 1 7) 10 7 &&
      tPuts (.xor 5 10 1 7) 10 2 && tPuts (.andn 5 10 7 1) 10 2 && tPuts (.orn 5 10 1 2) 10 5 &&
      tPuts (.xnor 5 10 1 1) 10 (-1)) = true := by decide +kernel

theorem test_compares :
    (tPuts (.slt 5 10 3 1) 10 1 && tPuts (.sltu 5 10 3 1) 10 0 && tPuts (.min 5 10 3 1) 10 0x8000000000000000 &&
      tPuts (.max 5 10 3 1) 10 5 && tPuts (.minu 5 10 3 1) 10 5 && tPuts (.maxu 5 10 3 1) 10 0x8000000000000000 &&
      tPuts (.selz 5 7 1 0) 7 5 && tPuts (.selz 5 7 1 2) 7 7 && tPuts (.selnz 5 7 1 2) 7 5 && tPuts (.selnz 5 7 1 0) 7 7) = true := by
  decide +kernel

theorem test_unary :
    (tPuts (.clz 5 10 0) 10 64 && tPuts (.clz 5 10 6) 10 56 && tPuts (.ctz 5 10 0) 10 64 && tPuts (.ctz 5 10 6) 10 4 &&
      tPuts (.popc 5 10 2) 10 64 && tPuts (.bswap 5 10 5) 10 0xF0DEBC9A78563412 && tPuts (.sextb 5 10 6) 10 (-16) &&
      tPuts (.sexth 5 10 6) 10 0xF0 && tPuts (.sextw 5 10 4) 10 0xFFFFFFFF80000000 && tPuts (.zextw 5 10 9) 10 0x80000000) = true := by
  decide +kernel

theorem test_multiplication :
    (tPuts (.mul 5 10 2 2) 10 1 && tPuts (.mulh 5 10 2 1) 10 (-1) && tPuts (.mulhu 5 10 2 2) 10 0xFFFFFFFFFFFFFFFE &&
      tPuts (.mulhsu 5 10 2 2) 10 (-1) && tPuts (.mulw 5 10 4 7) 10 0xFFFFFFFF80000000) = true := by decide +kernel

theorem test_division :
    (tPuts (.div 5 10 1 0) 10 (-1) && tPuts (.rem 5 10 1 0) 10 5 && tPuts (.div 5 10 3 2) 10 0x8000000000000000 &&
      tPuts (.rem 5 10 3 2) 10 0 && tPuts (.rem 5 10 3 7) 10 (-1) && tPuts (.div 5 10 9 7) 10 (-306783378) &&
      tPuts (.divu 5 10 2 0) 10 (-1) && tPuts (.remu 5 10 2 8) 10 63) = true := by decide +kernel

theorem test_word_division :
    (tPuts (.divw 5 10 4 2) 10 0xFFFFFFFF80000000 && tPuts (.remw 5 10 4 2) 10 0 && tPuts (.divw 5 10 4 0) 10 (-1) &&
      tPuts (.remw 5 10 4 0) 10 0xFFFFFFFF80000000 && tPuts (.divuw 5 10 4 0) 10 (-1) &&
      tPuts (.remuw 5 10 4 0) 10 0xFFFFFFFF80000000 && tPuts (.divuw 5 10 4 7) 10 306783378) = true := by decide +kernel

/-! ## Control transfer, loads and stores, atomics -/

/-- Where core 5 is after i. -/
def tPc (i : Instr) : Word := ((tRun i tMem).core 5).pc

theorem test_branches :
    (decide (tPc (.beq 5 1 1 (-1)) = 0xF00F0000003FC) && decide (tPc (.beq 5 1 2 2) = 0xF00F000000404) &&
      decide (tPc (.bne 5 1 2 2) = 0xF00F000000408) && decide (tPc (.blt 5 2 1 2) = 0xF00F000000408) &&
      decide (tPc (.bge 5 2 1 2) = 0xF00F000000404) && decide (tPc (.bltu 5 2 1 2) = 0xF00F000000404) &&
      decide (tPc (.bgeu 5 1 1 2) = 0xF00F000000408) && decide (tPc (.j 5 (-2)) = 0xF00F0000003F8)) = true := by decide +kernel

theorem test_jumps :
    ((tRun (.jal 5 4) tMem).core 5).g = Map.set 0 tKm.g 30 0xF00F000000404 ∧ tPc (.jal 5 4) = 0xF00F000000410 ∧
    tPc (.jalr 5 11 11 8) = 0x1008 ∧ ((tRun (.jalr 5 11 11 8) tMem).core 5).rd 11 = 0xF00F000000404 ∧
    tRun (.jalr 5 10 13 0) tMem = tMem.trap 5 { code := 0x06, addr := 0x1001 } := by decide +kernel

theorem test_reads : tMem.Reads 5 accLoad 0x1000 8 (tX 0x1000 8) ∧ tMem.Reads 5 accLdaq 0x1000 8 (tX 0x1000 8) ∧
    tMem.Reads 5 accLL 0x1000 8 (tX 0x1000 8) := by
  refine ⟨⟨by rfl, ?_, by rfl, ?_, ?_⟩, ⟨by rfl, ?_, by rfl, ?_, ?_⟩, ⟨by rfl, ?_, by rfl, ?_, ?_⟩⟩ <;> decide +kernel


theorem test_loads :
    ([(.lb 5 10 11 0, 0xFFFFFFFFFFFFFF80), (.lbu 5 10 11 0, 0x80), (.lh 5 10 11 0, 0xFFFFFFFFFFFF8180), (.lhu 5 10 11 1, 0x8281),
      (.lw 5 10 11 0, 0xFFFFFFFF83828180), (.lwu 5 10 11 1, 0x838281), (.ld 5 10 11 0, 0x8700000083828180),
      (.ldaq 5 10 11 1, 0x8180), (.ll 5 10 11 2 false, 0xFFFFFFFF83828180)] : List (Instr × Word)).all
      (fun p => decide (t10 p.1 tMem = p.2) && decide (tPc p.1 = 0xF00F000000404)) = true := by decide +kernel

theorem test_linked_load : ((tRun (.ll 5 10 11 3 false) tMem0).core 5).resv = some 0x40 ∧
    ((tRun (.ll 5 10 11 3 false) tMem0).l2line (tMem0.phys 5) 0x40).st = .M := by decide +kernel

/-- What i adds to the store buffer of core 5. -/
def tSt (i : Instr) (kd : StKind) (pa : Nat) (bs : List Byte) : Bool :=
  let cells := (List.range bs.length).map (fun j => (pa + j, bs.getD j 0))
  let e : StEntry := { kind := kd, pa := pa, size := bs.length, cells := cells, pl := 3, v := false, tr := [], marks := [] }
  decide (((tRun i tMem).core 5).sbuf = [e]) && decide ((tRun i tMem).mem = tBytes)

theorem test_stores :
    (tSt (.sb 5 5 14 0) .plain 0x3E [0xF0] && tSt (.sh 5 5 14 1) .plain 0x3F [0xF0, 0xDE] &&
      tSt (.sw 5 5 14 (-2)) .plain 0x3C [0xF0, 0xDE, 0xBC, 0x9A] && tSt (.strl 5 11 5 1) .rel 0x1000 [0xF0, 0xDE] &&
      tSt (.sd 5 5 11 0) .plain 0x1000 [0xF0, 0xDE, 0xBC, 0x9A, 0x78, 0x56, 0x34, 0x12]) = true := by decide +kernel

/-- The same, with a reservation of the line of 0x1000. -/
def tResv : State := tMem.modCore 5 (fun k => { k with resv := some 0x40 })

theorem test_store_conditional : t10 (.sc 5 10 11 5 3 false) tMem = 1 ∧ (tRun (.sc 5 10 11 5 3 false) tMem).mem = tBytes ∧
    t10 (.sc 5 10 11 5 3 false) tResv = 0 ∧ (tRun (.sc 5 10 11 5 2 false) tResv).rdN 0x1000 8 = 0x870000009ABCDEF0 ∧
    ((tRun (.sc 5 10 11 5 3 false) tResv).core 5).resv = none := by decide +kernel

/-- tMem with the slice of the line of 0x1000 knowing core 5's L2 as its owner. -/
def tOwned : State := tMem.setDline 0x40 { DirLine.empty with st := .X (tMem.phys 5) }
/-- g10 and the 8 bytes at 0x1000 after i. -/
def tAtom (i : Instr) : Word × Nat := (t10 i tOwned, (tRun i tOwned).rdN 0x1000 8)

theorem test_far_atomics :
    tAtom (.aadd 5 10 11 1 2 false false) = (0xFFFFFFFF83828180, 0x8700000083828185) ∧
    tAtom (.aswap 5 10 11 1 3 true true) = (0x8700000083828180, 5) ∧
    tAtom (.acas 5 10 11 1 2 false false) = (0xFFFFFFFF83828180, 0x8700000083828180) ∧
    tAtom (.amin 5 10 11 1 2 false false) = (0xFFFFFFFF83828180, 0x8700000083828180) ∧
    tAtom (.amax 5 10 11 1 2 false false) = (0xFFFFFFFF83828180, 0x8700000000000005) ∧
    tAtom (.aminu 5 10 11 1 3 false false) = (0x8700000083828180, 5) ∧
    tAtom (.amaxu 5 10 11 2 3 false false) = (0x8700000083828180, 0xFFFFFFFFFFFFFFFF) := by decide +kernel

/-- A trap of core 5 for an access kind and an address, code 0x06 or 0x03. -/
def tTraps (i : Instr) (code acc : Nat) (a : Word) : Bool :=
  decide (tRun i tMem = tMem.trap 5 { code := code, addr := a, info := tinfoOf 0 acc false 0 })

theorem test_memory_exceptions :
    (tTraps (.ldaq 5 10 13 1) 6 1 0x1001 && tTraps (.strl 5 13 1 3) 6 2 0x1001 && tTraps (.ll 5 10 13 2 true) 6 3 0x1001 &&
      tTraps (.sc 5 10 13 1 2 true) 6 3 0x1001 && tTraps (.aadd 5 10 13 1 3 true true) 6 3 0x1001 &&
      tTraps (.aswap 5 10 13 1 3 true true) 6 3 0x1001 && tTraps (.acas 5 10 13 1 3 true true) 6 3 0x1001 &&
      tTraps (.amin 5 10 13 1 3 true true) 6 3 0x1001 && tTraps (.amax 5 10 13 1 3 true true) 6 3 0x1001 &&
      tTraps (.aminu 5 10 13 1 3 true true) 6 3 0x1001 && tTraps (.amaxu 5 10 13 1 3 true true) 6 3 0x1001 &&
      tTraps (.lb 5 10 2 0) 3 1 (-1) && tTraps (.lbu 5 10 2 0) 3 1 (-1) && tTraps (.lh 5 10 2 0) 3 1 (-1) &&
      tTraps (.lhu 5 10 2 0) 3 1 (-1) && tTraps (.lw 5 10 2 0) 3 1 (-1) && tTraps (.lwu 5 10 2 0) 3 1 (-1) &&
      tTraps (.ld 5 10 2 0) 3 1 (-1) && tTraps (.sb 5 10 2 0) 3 2 (-1) && tTraps (.sh 5 10 2 0) 3 2 (-1) &&
      tTraps (.sw 5 10 2 0) 3 2 (-1) && tTraps (.sd 5 10 2 0) 3 2 (-1)) = true := by decide +kernel

theorem test_xlate_errors : tKm.xlate accLoad (-1) 8 = .error { code := 0x03, addr := -1, info := tinfoOf 0 1 false 0 } ∧
    tKm.xlate accAtom 0x1001 8 = .error { code := 0x06, addr := 0x1001, info := tinfoOf 0 3 false 0 } := ⟨by rfl, by rfl⟩

theorem test_atomic_premises : ∃ x s1 o, tOwned.Runs 5 ∧ tKm.xlate accAtom 0x1000 8 = .ok x ∧ tKm.sbufClear 0x40 true = true ∧
    tOwned.atomHere 0x40 = true ∧ tOwned.poisoned 0x40 = false ∧
    tOwned.farAtomic (tOwned.phys 5) 0x1000 0 8 5 0 = (.ok s1, o) ∧ o = 0x8700000083828180 :=
  ⟨_, _, _, ⟨by decide +kernel, by decide +kernel, by decide +kernel⟩, rfl, by decide +kernel, by decide +kernel, by decide +kernel,
    rfl, by decide +kernel⟩

/-- Core 5 waits for a far atomic of 8 bytes whose answer has come: a status, whether it is poisoned, and the old value. -/
def tAnswered (a : Nat × Bool × Nat) : State := tMem.modCore 5 (fun k => { k with far := some { pa := 0x1000, size := 8, ans := some a, tr := [], marks := [] } })

theorem test_atomic_answers : tMem0.atomHere 0x40 = false ∧ (let t := tRun (.aadd 5 10 11 1 3 false false) tMem0
      (t.core 5).far.isSome = true ∧ (t.core 5).pc = tKm.pc ∧ t.mem = tBytes) ∧
    t10 (.aadd 5 10 11 1 3 false false) (tAnswered (0, false, 77)) = 77 ∧
    (tRun (.aadd 5 10 11 1 3 false false) (tAnswered (6, true, 0))) = tMem.trap 5 (busError 0x1000 6 3) := by decide +kernel

theorem test_conditional_premises : ∃ x s1, tResv.Runs 5 ∧ tKm.xlate accAtom 0x1000 8 = .ok x ∧ (tResv.core 5).resv = some 0x40 ∧
    tKm.sbufClear 0x40 false = true ∧ tResv.takeM (tResv.phys 5) 0x40 = .ok s1 :=
  ⟨_, _, ⟨by decide +kernel, by decide +kernel, by decide +kernel⟩, rfl, by decide +kernel, by decide +kernel, rfl⟩

theorem test_store_premises : ∃ x, tMem.Runs 5 ∧ tKm.xlate accStore 0x3E 2 = .ok x ∧ tKm.sbuf.length < 96 :=
  ⟨_, ⟨by decide +kernel, by decide +kernel, by decide +kernel⟩, rfl, by decide +kernel⟩

/-! ## Scalar floating point: 0.1 + 0.2, 1 / 3, sqrt 2 and their like, from IEEE 754-2019 -/

/-- Core 5 with g20 = 0.1, g21 = 0.2, g22 = 1.0, g23 = 3.0, g24 = 2.0, g25 = -2.0, g26 a signalling NaN, g27 1.5 and g28 -0.75
in binary32, g29 the largest finite value; fpcsr.RM as given. -/
def tKf (rm : Word) : Core := { tK with
  fpcsr := rm <<< 5, g := tK.g ++ [(20, 0x3FB999999999999A), (21, 0x3FC999999999999A), (22, 0x3FF0000000000000), (23, 0x4008000000000000), (24, 0x4000000000000000), (25, 0xC000000000000000), (26, 0x7FF0000000000001), (27, 0x3FC00000), (28, 0xBF400000), (29, 0x7FEFFFFFFFFFFFFF)] }
/-- Whether i writes v to g10 and raises flags f. -/
def tFp (i : Instr) (v : Word) (f : Nat) : Bool := tDone i (tWith (tKf 0)) ((tKf 0).putF 10 (v, f))

theorem test_rounding :
    (tFp (.fadd 5 10 20 21 false 0) 0x3FD3333333333334 16 && tFp (.fadd 5 10 20 21 false 5) 0x3FD3333333333333 16 &&
      tFp (.fsub 5 10 22 23 false 1) 0xC000000000000000 0 && tFp (.fmul 5 10 29 24 false 1) 0x7FF0000000000000 20 &&
      tFp (.fmul 5 10 29 24 false 5) 0x7FEFFFFFFFFFFFFF 20 && tFp (.fdiv 5 10 22 23 false 0) 0x3FD5555555555555 16 &&
      tFp (.fdiv 5 10 22 0 false 0) 0x7FF0000000000000 2 && tFp (.fsqrt 5 10 24 false 0) 0x3FF6A09E667F3BCD 16 &&
      tFp (.fsqrt 5 10 25 false 0) 0x7FF8000000000000 1 && tFp (.fadd 5 10 27 28 true 1) 0x3F400000 0) = true := by
  decide +kernel

theorem test_conversions :
    (tFp (.ftoi 5 10 25 false 0) (-2) 0 && tFp (.ftou 5 10 25 false 0) 0 1 && tFp (.ftoi 5 10 26 false 0) 0x8000000000000000 1 &&
      tFp (.ftoi 5 10 27 true 1) 2 16 && tFp (.itof 5 10 2 false 1) 0xBFF0000000000000 0 &&
      tFp (.utof 5 10 2 true 5) 0x5F7FFFFF 16 && tFp (.fnarrow 5 10 20 1) 0x3DCCCCCD 16 &&
      tFp (.fwiden 5 10 27) 0x3FF8000000000000 0) = true := by decide +kernel

theorem test_fused :
    (tDone (.fmadd 5 24 22 23 false 1) (tWith (tKf 0)) ((tKf 0).putF 24 (0x4014000000000000, 0)) &&
      tDone (.fmsub 5 24 22 23 false 1) (tWith (tKf 0)) ((tKf 0).putF 24 (0x3FF0000000000000, 0)) &&
      tDone (.fnmadd 5 24 22 23 false 1) (tWith (tKf 0)) ((tKf 0).putF 24 (0xBFF0000000000000, 0))) = true := by decide +kernel

theorem test_reserved_mode : tRun (.fadd 5 10 20 21 false 0) (tWith (tKf 5)) = (tWith (tKf 5)).trap 5 { code := 0x01 } ∧
    (tRun (.fmadd 5 10 20 21 false 6) (tWith (tKf 0))).core 5 = ((tWith (tKf 0)).trap 5 { code := 0x01 }).core 5 := by decide +kernel

theorem test_exact_floats :
    (tFp (.fmin 5 10 24 25 false) 0xC000000000000000 0 && tFp (.fmax 5 10 24 26 false) 0x4000000000000000 1 &&
      tFp (.feq 5 10 24 24 false) 1 0 && tFp (.feq 5 10 26 24 false) 0 1 && tFp (.flt 5 10 25 24 false) 1 0 &&
      tFp (.fle 5 10 24 25 false) 0 0 && tFp (.fkind 5 10 26 false) 5 0 && tFp (.fkind 5 10 28 true) 10 0 &&
      tFp (.fcpys 5 10 24 25 false) 0xC000000000000000 0 && tFp (.fcpysn 5 10 24 25 false) 0x4000000000000000 0 &&
      tFp (.fcpysx 5 10 25 25 false) 0x4000000000000000 0 && tFp (.frcsr 5 10) 0 0) = true := by decide +kernel

theorem test_fwcsr : tDone (.fwcsr 5 10 7) (tWith (tKf 3)) { (tKf 3).put 10 0x60 with fpcsr := 7 } = true := by decide +kernel

theorem test_nan_results : fAdd false 0 (.nan false) (.fin false 1 0) = (fNaN false, 0) ∧
    fFma true 0 (.inf false) (.fin true 1 0) (.inf false) true = (fNaN true, 1) ∧
    fAdd false 0 (.inf true) (.inf false) = (fNaN false, 1) ∧ fMul false 0 (.inf true) (.fin false 0 0) = (fNaN false, 1) ∧
    fDiv false 0 (.fin true 0 0) (.fin true 0 3) = (fNaN false, 1) ∧ fSqrt false 0 (.fin true 1 0) = (fNaN false, 1) := by
  decide +kernel

/-! ## Fences, system instructions, translation, timers -/

/-- A store buffer entry of core 5. -/
def tEnt (kd : StKind) (pa size : Nat) (cells : List (Nat × Byte)) : StEntry :=
  { kind := kd, pa := pa, size := size, cells := cells, pl := 3, v := false, tr := [], marks := [] }
/-- Whether i enters one entry into the store buffer of core 5, and does nothing else. -/
def tEnters (i : Instr) (e : StEntry) : Bool := tDone i tMem { tNext tKm with sbuf := [e] }

theorem test_fences : (tDone (.fence 5) tS (tNext tK) && tDone (.fenceR 5) tS (tNext tK) && tDone (.sbar 5) tS (tNext tK) &&
    tDone (.pause 5) tS (tNext tK) && tSame (.fence 5) (tWith { tK with sbuf := [tEnt .plain 0 1 []] }) &&
    tEnters (.fenceW 5) (tEnt .fence 0 0 [])) = true := by decide +kernel

theorem test_maintenance : (tDone (.rdctime 5 10) { tS with ctime := 77 } (tK.put 10 77) &&
    tDone (.pflush 5) (tWith { tK with hist := 3, swait := [7] }) (tNext tK) &&
    tEnters (.cflush 5 12) (tEnt .flush 0x1000 64 []) && tEnters (.cclean 5 12) (tEnt .clean 0x1000 64 []) &&
    tEnters (.czero 5 12) (tEnt .zero 0x1000 64 ((spanN 0x1000 64).map (fun a => (a, 0))))) = true := by decide +kernel

theorem test_maintenance_premises : ∃ x y, tMem.Runs 5 ∧ tKm.xlate accFlush 0x1000 64 = .ok x ∧
    tKm.xlate accZero 0x1000 64 = .ok y :=
  ⟨_, _, ⟨by decide +kernel, by decide +kernel, by decide +kernel⟩, rfl, rfl⟩


theorem test_trap_entry : let k := (tAt 1).trapAt 2 false { code := 0x0C, info := 0x50000 }
    k.srv 0x21 = 0xF00F000000400 ∧ k.srv 0x20 = 0x0C ∧ k.srv 0x23 = 0x50000 ∧ k.srv 0x24 = 1 ∧ k.pl = 2 ∧ k.pc = 0x22100 := by
  decide +kernel

theorem test_trap_offsets : ((tAt 1).trapAt 3 false { code := 0x1A }).pc = 0x33300 ∧ ((tAt 1).trapAt 3 false { code := 0x1A }).eip = true ∧
    ((tAt 1).trapAt 1 false { code := 0x20, hi := 9 }).pc = 0x11200 ∧
    ((tAt 1).trapAt 1 false { code := 0x20, hi := 9 }).srv 0x10 = 0x920 := by decide +kernel

theorem test_refill_entry : let k := ({ tAt 0 with sr := (tAt 0).sr ++ [(0x201, 7)] } : Core).refillAt 1 false { code := 0x04, addr := 0x1234567 }
    k.srv 0x40 = 0xF00F000000400 ∧ k.srv 0x42 = 0x1234567 ∧ k.shb = true ∧ k.pl = 1 ∧ k.pc = 0x11000 ∧
    k.srv 0x208 = BitVec.ofNat 64 (7 + 0x1234 * 2 ^ 19) := by decide +kernel

/-- Core 5 at PL2 that entered from PL0 with SHB = 0, IE2 = 1. -/
def tRet : Core := (tAt 2).setSr 0x24 0x10 |>.setSr 0x21 0x4000

theorem test_trap_return : let k := (tRun (.tret 5) (tWith tRet)).core 5
    k.pc = 0x4000 ∧ k.pl = 0 ∧ k.shb = false ∧ k.ie 2 false = true := by decide +kernel

theorem test_refill_return : let k := (tRun (.tret 5) (tWith (({ tAt 1 with sr := (0, 9) :: (tAt 1).sr.tail } : Core).setSr 0x40 0x5000 |>.setSr 0x41 0))).core 5
    k.pc = 0x5000 ∧ k.pl = 0 ∧ k.shb = false := by decide +kernel

/-- Whether i takes an exception with core 5 at a level. -/
def tExc (i : Instr) (pl : Nat) (e : Exc) : Bool := decide (tRun i (tWith (tAt pl)) = (tWith (tAt pl)).trap 5 e)

theorem test_calls : (tExc (.syscall 5 3) 0 { code := 0x0B, info := 0x30000 } && tExc (.breakI 5 1) 0 { code := 0x0E, info := 0x10000 } &&
    tExc (.hcall 5 2) 1 { code := 0x0C, info := 0x20000 } && tExc (.pcall 5 0xFFF) 2 { code := 0x0D, info := 0xFFF0000 } &&
    tExc (.illegalInstr 5 0) 1 { code := 0x01 }) = true := by decide +kernel

theorem test_privilege : (tExc (.hcall 5 2) 0 { code := 0x02 } && tExc (.pcall 5 2) 0 { code := 0x02 } && tExc (.tret 5) 0 { code := 0x02 } &&
    tExc (.wfi 5) 0 { code := 0x02 } && tExc (.mfsr 5 10 0x11) 0 { code := 0x02 } && tExc (.mtsr 5 1 0x31) 2 { code := 0x02 } &&
    tExc (.mfsr 5 10 0x7FF) 3 { code := 0x01 } && tExc (.msset 5 10 1 0x31) 1 { code := 0x02 } &&
    tExc (.fetchFault 5 (.status 1)) 3 { code := 0x0A, addr := 0xF00F000000400, info := 1 }) = true := by decide +kernel

theorem test_fetch_exception : ({ tAt 3 with pc := 2 ^ 60 } : Core).fetchExc.map (fun x => x.code) = some 0x03 := by decide +kernel

theorem test_system_registers : (tDone (.mfsr 5 10 0x35) (tWith (tAt 3)) ((tAt 3).put 10 0x33000) &&
    tDone (.mtsr 5 5 0x31) (tWith (tAt 3)) (tNext ((tAt 3).setSr 0x31 0x123456789ABCDEF0)) &&
    tDone (.msset 5 1 7 0x12) (tWith ((tAt 1).setSr 0x12 8)) (tNext (((tAt 1).setSr 0x12 15).wr 1 8)) &&
    tDone (.msclr 5 10 7 0x22) (tWith ((tAt 2).setSr 0x22 0xFF)) (tNext (((tAt 2).setSr 0x22 0xF8).wr 10 0xFF))) = true := by
  decide +kernel

theorem test_refused_write : let t := tRun (.mtsr 5 5 0x15) (tWith ((tAt 3).wr 5 0x8001))
    t.core 5 = tNext ((tAt 3).wr 5 0x8001) ∧ (t.rejOf (tS.phys 5 / 2)).total = 1 := by decide +kernel

theorem test_refusal_premises : (tWith ((tAt 3).wr 5 0x8001)).srCause 5 0x15 false 0x8001 = some 1 ∧ srLevel 0x31 = some 3 ∧
    srLevel 0x7FF = none := by decide +kernel

/-- Core 5 at PL2 with tlb_hi of ASID 9 and page 0x12345 (4 KiB, set 0x45), tlb_index as given, s2_hi of VMID 3 and page 0x77, and
in g20 a read-write leaf, in g21 a write-only one. -/
def tKt (idx : Nat) : Core := { tAt 2 with
  g := [(20, 0x678000_00D), (21, 0x678000_009), (22, 0x12345678), (23, 0x99999000)], sr := (tAt 2).sr ++ [(0x208, BitVec.ofNat 64 (9 + 0x12345 * 2 ^ 19)), (0x20A, BitVec.ofNat 64 idx), (0x211, 0x77003)] }
def tTe : TlbEntry := { guest := false, vmid := 0, asid := 9, size := 0, vpn := 0x12345, val := 0x67800000D }
/-- The position of way 3 of set 0x45. -/
def tPos : Nat := 0x45 * 12 + 3
def tKl : Core := { tKt tPos with tlb := [(tPos, some tTe)], sr := (tKt tPos).sr ++ [(0x201, 9)] }

theorem test_tlb_write : (tDone (.tlbwr 5 10 21 1) (tWith (tKt tPos)) (tNext ((tKt tPos).wr 10 1)) &&
    tDone (.tlbwr 5 10 20 1) (tWith (tKt 7)) (tNext ((tKt 7).wr 10 2)) &&
    tDone (.tlbwr 5 10 20 1) (tWith (tKt tPos)) (tNext { tKt tPos with tlb := [(tPos, some tTe)] })) = true := by decide +kernel

theorem test_tlb_replaces : let m := ((tRun (.tlbwr 5 10 20 1) (tWith { tKl with tlb := [(tPos - 1, some { tTe with asid := 9 })] })).core 5).tlb
    Map.get none m tPos = some tTe ∧ Map.get none m (tPos - 1) = some { tTe with val := 0x67800000C } := by decide +kernel

theorem test_s2_write : ((tRun (.s2wr 5 10 20 0) (tWith (tKt 0))).core 5).s2tlb.map (fun e => e.2.map (fun t => (t.vmid, t.vpn))) =
    [some (3, 0x77)] ∧ t10 (.s2wr 5 10 20 0) (tWith (tKt 0)) = 0 := by decide +kernel

theorem test_tlb_read : let k := ((tKl.wr 22 (BitVec.ofNat 64 tPos)).setSr 0x208 0)
    tDone (.tlbrd 5 10 22 0) (tWith k) (tNext (((k.setSr 0x208 (BitVec.ofNat 64 (9 + 0x12345 * 2 ^ 19))).setSr 0x209 0x67800000D).wr 10 1)) = true := by
  decide +kernel

theorem test_tlb_probe : (tDone (.tlbprb 5 10 22 0) (tWith tKl) (tNext ((tKl.setSr 0x209 0x67800000D).wr 10 (BitVec.ofNat 64 tPos))) &&
    tDone (.tlbprb 5 10 23 0) (tWith tKl) (tNext (tKl.wr 10 (-1))) && (tKl.findTlb 0x12345678).isSome) = true := by decide +kernel

theorem test_tlb_invalidate : let t := tRun (.tlbinv 5 0 0 3) (tWith tKl)
    (t.core 5).findTlb 0x12345678 = none ∧ t.bcasts = [] ∧ (t.core 5).pc = tKl.pc + 4 := by decide +kernel

theorem test_tlb_broadcast : let t := tRun (.tlbinv 5 0 0 7) (tWith tKl)
    t.bcasts.map (fun b => (b.id, b.origin, b.op, b.acked, b.sent)) = [(5, some 5, .tlbInv false 0 3 0 0, [], [540, 575])] ∧
    t.net.map (fun p => (p.src.router, p.dst.router, p.addr)) = [(540, 504, 0), (575, 539, 0)] ∧ (t.core 5).bcasts = [5] ∧
    (tRun (.s2inv 5 22 22 6) (tWith tKl)).bcasts.length = 1 := by decide +kernel

theorem test_tlbsync : tDone (.tlbsync 5 0) (tWith tKl) (tNext tKl) = true ∧ tSame (.tlbsync 5 0) (tWith { tKl with bcasts := [5] }) = true := by
  decide +kernel

/-- Core 5 at PL2 with vector 64 pending, enabled. -/
def tInt : Core := { tAt 2 with sr := (tAt 2).sr ++ [(0x101, 1), (0x109, 1)] }

theorem test_interrupt : let k := (tRun (.interruptTaken 5) (tWith tInt)).core 5
    k.srv 0x101 = 0 ∧ bitB (k.srv 0x110) 6 = true ∧ k.srv 0x30 = 0x4020 ∧ k.srv 0x31 = 0xF00F000000400 ∧ k.pc = 0x33200 ∧
    tInt.takeVec false 512 = some 64 := by decide +kernel

theorem test_latched_errors : let s := tRun (.errCore 5) (tWith tInt)
    (s.core 5).errCore = true ∧ tRun (.interruptTaken 5) s = (tWith tInt).trap 5 { code := 0x1A } ∧
    (tRun (.errStore 5 0x1040 3) (tWith tInt)).core 5 = { tInt.setSr 0x70 0x1040 |>.setSr 0x71 0x10003 with errStore := true } := by decide +kernel

theorem test_holds : (tRun (.storeWaitClear 5) (tWith { tK with swait := [3] })).core 5 = tK ∧
    (tRun (.llHoldExpire 5) (tWith { tK with hold := some 3 })).core 5 = tK := by decide +kernel

/-- Core 5 at PL2 with timer_ctl and g20 as given. -/
def tTimer (ctl v : Word) : Core := { tAt 2 with g := [(20, v)], sr := (tAt 2).sr ++ [(0x131, ctl)] }
/-- Whether i takes core 5 from timer_ctl ctl and g20 = v to the next instruction, changed by f. -/
def tTimes (i : Instr) (ctl v : Word) (f : Core → Core) : Bool := tDone i (tWith (tTimer ctl v)) (tNext (f (tTimer ctl v)))

theorem test_timer : (tTimes (.timerCmpWrite 5 20) 0x481 9 (fun k => (k.setSr 0x130 9).setSr 0x131 0x8481) &&
    tTimes (.timerClaim 5 20) 0 0x1000 (fun k => k.setSr 0x131 0x400) &&
    tTimes (.timerRelease 5 20) 0x401 0x2001 (fun k => k.setSr 0x131 0)) = true := by decide +kernel

theorem test_timer_conflicts : ((tRun (.timerClaim 5 20) (tWith (tTimer 0x800 0x1000))).core 5 = tNext ((tTimer 0x800 0x1000).setSr 0x131 0x4800)) ∧
    ((tRun (.timerCmpWrite 5 20) (tWith (tTimer 0x800 0x1000))).core 5 = tNext ((tTimer 0x800 0x1000).setSr 0x131 0x4800)) := by
  decide +kernel

theorem test_timer_fires : (tRun (.timerFire 5) { tWith ((tTimer 0x8481 0).setSr 0x130 5) with ctime := 5 }).core 5 =
    (((tTimer 0x8481 0).setSr 0x130 5).setSr 0x131 0x481).setSr 0x101 1 ∧ tS.lcState 5 ≠ 2 ∧
    tSame (.timerFire 5) (tWith (tTimer 0x400 0)) = true := by decide +kernel

theorem test_eoi_and_walk : (tDone (.intEoi 5 1) (tWith { tAt 2 with sr := (tAt 2).sr ++ [(0x110, 0x440)] })
      (tNext { tAt 2 with sr := (tAt 2).sr ++ [(0x110, 0x40)] })) = true ∧
    ((tRun (.walkFill 5 5) (tWith (tAt 2))).core 5).hints = [{ guest := false, vmid := 0, asid := some 0, region := 0, table := 0x456789ABCD000 }] := by
  decide +kernel

theorem test_wfi : tRun (.wfi 5) (tWith (tAt 2)) = tWith { tAt 2 with run := .wfi } ∧ (tAt 2).takeVec true 512 = none := by decide +kernel

theorem test_samp_claim : ((tRun (.sampTclaim 5 20) { tWith (tTimer 0 0x27103) with ctime := 7 }).core 5).srv 0x130 = 0x2717 ∧
    bitsN (((tRun (.sampTclaim 5 20) (tWith (tTimer 0 0x27103))).core 5).srv 0x131) 11 10 = 2 ∧
    bitB (((tRun (.sampTclaim 5 20) (tWith (tTimer 0x400 0x27103))).core 5).srv 0x333) 3 = true ∧
    bitsN (((tRun (.sampTrelease 5 20) (tWith (tTimer 0x800 0x27104))).core 5).srv 0x131) 11 10 = 0 := by decide +kernel

/-- Core 5 with a sample ring of 64 slots at 0x10000 and a queued record. -/
def tKr : Core := { tAt 2 with
  sr := (tAt 2).sr ++ [(0x330, 0x10006), (0x333, 0x27101)], g := [(20, 0x20007), (21, 5)], sampQ := [[4, 1, 2, 3, 4, 5, 6, 7]] }
def tRing : State := { tWith tKr with remap := [(0, 1)] }

theorem test_samp_ring : (let k := (tRun (.sampBase 5 20) tRing).core 5
      k.srv 0x330 = 0x20007 ∧ k.srv 0x332 = 0 ∧ k.sampQ = []) ∧
    ((tRun (.sampHead 5 21) (tWith (tKr.setSr 0x332 6))).core 5).srv 0x331 = 5 := by decide +kernel

theorem test_samp_record : (let t := tRun (.sampleRecordWrite 5 0) tRing
      (t.core 5).srv 0x332 = 1 ∧ (t.core 5).sampQ = [] ∧ t.rdN 0x10000 16 = 0x10000000000000004 ∧ (t.rdByte 0x10038) = 7) ∧
    ((tRun (.sampleRecordWrite 5 4) tRing).core 5).srv 0x333 = 0x1000000027100 := by decide +kernel

/-! ## Vector instructions: values worked out from Tables 10.3 and 10.4, R292, R293, R295 and R296 by a script of their words -/

/-- Core 5 with operands in v1 to v7, masks of the low half and of the outer quarters in m1 and m2. -/
def tKv : Core := { tK with
  g := [(1, 5), (2, 0xFFFFFFFFFFFFFFFF), (3, 3)], v := [(1, 0x0F0E0D0C0B0A09080706050403020100), (2, 0x0008FFF90006FFFB8000FFFD7FFFFFFF), (3, 0x7FFF8000800080000102FF0480FE0301), (4, 0x3FC000007F8000014000000000000001), (5, 0xBF40000040000000C000000000000001), (6, 0x3FB999999999999A4000000000000000), (7, 0x3FC999999999999AC000000000000000), (10, 0xAAAAAAAAAAAAAAAA5555555555555555)], m := [(1, 0x00FF), (2, 0xF00F)], sr := [(0x400, 0x1234)] }
/-- The part with core 5 as above, its vector unit not to request the high-power state. -/
def tSv : State := let s := tWith tKv; s.wrCsr (s.vpwrAddr 5) 0
/-- Whether i takes core 5 of s to k and does nothing else, but for counting heavy issues. -/
def tHeavy (i : Instr) (s : State) (k : Core) : Bool :=
  match exec i s with
  | .next t =>
    decide ({ t.core 5 with heavy := 0 } = k) && decide ({ t with cores := [], csr := [], free := 0 } = { s with cores := [], csr := [], free := 0 })
  | _ => false
/-- Whether i writes x to v10 and raises flags f. -/
def tV (i : Instr) (x : VWord) (f : Nat) : Bool :=
  tHeavy i tSv ({ tKv.wv 10 x with fpcsr := BitVec.ofNat 64 f } : Core).vDone
/-- Whether i writes x to m3 and raises flags f. -/
def tM (i : Instr) (x : BitVec 16) (f : Nat) : Bool :=
  tHeavy i tSv ({ tKv.wm 3 x with fpcsr := BitVec.ofNat 64 f } : Core).vDone
/-- The same part with the tile of core 5 in service mode. -/
def tSvc : State := let s := tSv; s.wrCsr (s.tileOf 5 + 0x10000 + 8 * s.posOf 5) 1
def tSat (i : Instr) (x : VWord) (sat : Bool) : Bool :=
  let k := tKv.wv 10 x
  tHeavy i tSvc (if sat then k.setSr 0x401 1 else k).vDone

theorem test_vector_1 :
    (tV (.vabsdu 5 10 1 1 1 2 true) 0x00000000000000000000000000000000 0 &&
      tV (.vadd 5 10 2 2 1 3 false) 0xaaaaaaaaaaaaaaaa0001fffafffffffe 0 &&
      tV (.vand 5 10 2 2 1 3 true) 0x00000000000000008000fffd7fffffff 0 &&
      tV (.vandn 5 10 3 1 1 0 true) 0x00000000000000000000fa0080fc0201 0 &&
      tV (.vbcast 5 10 3 2 3 true) 0x00000000000000000000000000000003 0 &&
      tV (.vcompress 5 10 3 0 0) 0x7fff8000800080000102ff0480fe0301 0 &&
      tV (.vdot 5 10 3 2 1 0 true) 0x0000000000000000555554ca555515d3 0 &&
      tV (.vdotsu 5 10 2 3 0 1 true) 0xaaaaaaaaaa26ad9e5555555595d3d156 0 &&
      tV (.vdotu 5 10 2 3 0 0 false) 0xaaab3222aaab2a2a555657ca555695d3 0) = true := by decide +kernel

theorem test_vector_2 :
    (tV (.vfadd 5 10 6 7 2 3 true) 0x00000000000000000000000000000000 0 &&
      tV (.vfmadd 5 10 4 5 0 2 true) 0xbf9000007fc000005555555555555555 17 &&
      tV (.vfmax 5 10 6 7 1 3 false) 0xaaaaaaaaaaaaaaaa4000000000000000 0 &&
      tV (.vfmin 5 10 4 5 0 2 true) 0xbf40000040000000c000000000000001 1 &&
      tV (.vfmul 5 10 4 5 0 2 true) 0xbf9000007fc00000c080000000000000 25 &&
      tV (.vfsub 5 10 6 7 2 3 true) 0x00000000000000004010000000000000 0 &&
      tV (.vftoi 5 10 4 1 2 true) 0x00000000000000000000000200000000 16 &&
      tV (.vins 5 10 1 2 1) 0x0005aaaaaaaaaaaa5555555555555555 0 &&
      tV (.vitof 5 10 6 1 3 false) 0xaaaaaaaaaaaaaaaa43d0000000000000 0) = true := by decide +kernel

theorem test_vector_3 :
    (tV (.vmax 5 10 2 1 2 1 true) 0x0f0e0d0c00000000000000007fff0100 0 &&
      tV (.vmaxu 5 10 2 3 1 0 false) 0xaaaaaaaaaaaaaaaa8002fffd80ffffff 0 &&
      tV (.vmin 5 10 1 1 0 2 false) 0x0f0e0d0c0b0a09080706050403020100 0 &&
      tV (.vminu 5 10 1 3 1 0 true) 0x00000000000000000102050403020100 0 &&
      tV (.vmul 5 10 2 2 0 3 true) 0xff440076ffba00193ffe000500000001 0 &&
      tV (.vor 5 10 2 2 1 2 true) 0x00000000000000008000fffd7fffffff 0 &&
      tV (.vsel 5 10 2 1 1 3) 0x0f0e0d0c0b0a09088000fffd7fffffff 0 &&
      tV (.vshuf 5 10 2 3 0 true) 0x000000ff00ff00ffffff00fd00007fff 0 &&
      tV (.vsll 5 10 3 3 1 3 true) 0x00000000000000000205fe0901fc0602 0) = true := by decide +kernel

theorem test_vector_4 :
    (tV (.vsra 5 10 1 1 2 0 true) 0x00000000000000000000000000000000 0 &&
      tV (.vsrl 5 10 1 3 1 0 false) 0xaaaaaaaaaaaaaaaa0301000003000000 0 &&
      tV (.vsub 5 10 3 3 2 0 false) 0x00000000aaaaaaaa5555555500000000 0 &&
      tV (.vuzpe 5 10 3 2 1 0 true) 0x0000000000000000ff0000000204fe01 0 &&
      tV (.vuzpo 5 10 1 3 2 0 false) 0x7f808080aaaaaaaa5555555507050301 0 &&
      tV (.vwmaccH 5 10 2 1 1 0 true) 0x000000000000000055555591554c552d 0 &&
      tV (.vwmaccL 5 10 1 3 1 1 false) 0xaaaaaaaaaaaaaaaa53d7515155585655 0 &&
      tV (.vwmaccuH 5 10 1 1 1 1 true) 0x000000000000000055cf31b955a6e595 0 &&
      tV (.vwmaccuL 5 10 3 1 2 0 false) 0xaab1aab6aaaaaaaa5555555555585555 0) = true := by decide +kernel

theorem test_vector_5 :
    (tV (.vwmulH 5 10 3 3 2 2 true) 0x00000000000000003fff800040000000 0 &&
      tV (.vwmulL 5 10 1 2 1 0 false) 0xaaaaaaaaaaaaaaaa017dfffeffff0000 0 &&
      tV (.vwmuluH 5 10 3 2 1 0 true) 0x0000000000000000000000007f800000 0 &&
      tV (.vwmuluL 5 10 2 1 1 2 false) 0xaaaaaaaaaaaaaaaa0181007ffcfdff00 0 &&
      tV (.vxor 5 10 1 3 0 2 false) 0x70f18d0c8b0a89080604fa0083fc0201 0 &&
      tV (.vziph 5 10 2 1 1 0 false) 0xaaaaaaaaaaaaaaaa0b000a0609ff08fb 0 &&
      tV (.vzipl 5 10 3 3 2 0 false) 0x01010202aaaaaaaa5555555503030101 0) = true := by decide +kernel

theorem test_vector_mask_1 :
    (tM (.vcmpeq 5 3 2 2 0 0 false) 0xffff 0 &&
      tM (.vcmple 5 3 2 3 0 2 false) 0xf0f0 0 &&
      tM (.vcmpleu 5 3 1 2 1 1 false) 0x00ff 0 &&
      tM (.vcmplt 5 3 3 1 0 2 true) 0x0fff 0 &&
      tM (.vcmpltu 5 3 2 1 0 2 true) 0xff00 0 &&
      tM (.vcmpne 5 3 2 3 0 0 false) 0xffdf 0 &&
      tM (.vfcmpeq 5 3 4 5 2 2 true) 0x000f 0 &&
      tM (.vfcmple 5 3 4 5 2 2 true) 0x000f 0 &&
      tM (.vfcmplt 5 3 6 7 0 3 false) 0xff00 0 &&
      tM (.vmand 5 3 1 2) 0x000f 0) = true := by decide +kernel

theorem test_vector_mask_2 :
    (tM (.vmandn 5 3 0 2) 0x0ff0 0 &&
      tM (.vmcnt 5 3 1 2) 0xffff 0 &&
      tM (.vmffm 5 3) 0x1234 0 &&
      tM (.vmmv 5 3 2) 0xffff 0 &&
      tM (.vmor 5 3 1 2) 0xf0ff 0 &&
      tM (.vmxor 5 3 2 1) 0xf0f0 0) = true := by decide +kernel

theorem test_vector_general_1 :
    (tDone (.vmpopc 5 10 0 0) (tWith tKv) (tKv.put 10 0x10) &&
      tDone (.vmrd 5 10 1) (tWith tKv) (tKv.put 10 0xff) &&
      tDone (.vmvgv 5 10 3 3 0) (tWith tKv) (tKv.put 10 0xffffffffffffff80) &&
      tDone (.vrand 5 10 2 0 2) (tWith tKv) (tKv.put 10 0xfff9) &&
      tDone (.vrmax 5 10 3 1 3) (tWith tKv) (tKv.put 10 0x102ff0480fe0301) &&
      tDone (.vrmaxu 5 10 1 2 0) (tWith tKv) (tKv.put 10 0xf) &&
      tDone (.vrmin 5 10 3 2 2) (tWith tKv) (tKv.put 10 0xffffffff80fe0301) &&
      tDone (.vrminu 5 10 1 2 3) (tWith tKv) (tKv.put 10 0x706050403020100) &&
      tDone (.vror 5 10 2 1 3) (tWith tKv) (tKv.put 10 0x8000fffd7fffffff) &&
      tDone (.vrsum 5 10 2 2 0) (tWith tKv) (tKv.put 10 0x7c) &&
      tDone (.vrxor 5 10 2 2 0) (tWith tKv) (tKv.put 10 0x8e)) = true := by decide +kernel

theorem test_service_mode_1 :
    (tSat (.vfrmul 5 10 1 3 1 true true) 0x0000000000000000000e3620fd03f70c false &&
      tSat (.vfrmulr 5 10 1 2 1 false true) 0x0000000000000000f8fa000003020000 false &&
      tSat (.vsatadd 5 10 2 1 2 false false) 0x0f160d05aaaaaaaa555555557fff00ff true &&
      tSat (.vsatsub 5 10 2 3 1 false false) 0xaaaaaaaaaaaaaaaa800000f97ffffcfe true) = true := by decide +kernel

theorem test_vector_traps : (tDone (.vdot 5 10 1 2 0 2 false) (tWith tKv) tKv == false &&
    decide (tRun (.vdot 5 10 1 2 0 2 false) (tWith tKv) = (tWith tKv).trap 5 { code := 0x01 }) &&
    decide (tRun (.vwmulL 5 10 1 2 0 3 false) (tWith tKv) = (tWith tKv).trap 5 { code := 0x01 }) &&
    decide (tRun (.vcmpeq 5 0 1 2 0 0 false) (tWith tKv) = (tWith tKv).trap 5 { code := 0x01 }) &&
    decide (tRun (.vsatadd 5 10 1 2 0 true false) (tWith tKv) = (tWith tKv).trap 5 { code := 0x01 }) &&
    decide (tRun (.vfadd 5 10 1 2 0 1 false) (tWith tKv) = (tWith tKv).trap 5 { code := 0x01 })) = true := by decide +kernel

theorem test_reductions_of_none : (tDone (.vrmin 5 10 2 7 1) (tWith tKv) (tKv.put 10 0x7FFF) &&
    tDone (.vrmax 5 10 2 7 1) (tWith tKv) (tKv.put 10 0xFFFFFFFFFFFF8000) && tDone (.vrand 5 10 2 7 0) (tWith tKv) (tKv.put 10 0xFF) &&
    tDone (.vrminu 5 10 2 7 2) (tWith tKv) (tKv.put 10 0xFFFFFFFF)) = true := by decide +kernel

/-- tMem with v3 the indexes 7, 0, 3, 8, v4 the bytes to store, v10 all ones, g16 = 2, m1 the low four lanes. -/
def tKg : Core := { tKm with
  g := tKm.g ++ [(16, 2)], v := [(3, 0x08030007), (4, 0x44332211), (10, 0xFFFFFFFFFFFFFFFFFFFFFFFFFFFFFFFF)], m := [(1, 0x000F)] }
def tGm : State := tMem.setCore 5 tKg |> fun s => s.wrCsr (s.vpwrAddr 5) 0
/-- v10 and ffm after i. -/
def tVl (i : Instr) : VWord × Word := (((tRun i tGm).core 5).rv 10, ((tRun i tGm).core 5).srv 0x400)
/-- The cells that i adds to the store buffer, entry by entry. -/
def tVs (i : Instr) : List (List (Nat × Byte)) := ((tRun i tGm).core 5).sbuf.map (fun e => e.cells)

theorem test_vector_loads : tVl (.vld 5 10 11 1 0 false) = (0xFFFFFFFFFFFFFFFFFFFFFFFF83828180, 0xFFFF) ∧
    tVl (.vldff 5 10 11 1 0 true) = (0x83828180, 0xFFFF) ∧
    tVl (.vlds 5 10 11 16 1 0 true) = (0x00008280, 0xFFFF) ∧
    tVl (.vgather 5 10 11 3 0 1 0 false) = (0xFFFFFFFFFFFFFFFFFFFFFFFF88838087, 0xFFFF) ∧
    tVl (.vgatherff 5 10 11 3 0 1 0 true) = (0x88838087, 0xFFFF) := by decide +kernel

theorem test_vector_stores : (decide (tVs (.vst 5 4 11 1 0) = [[(0x1000, 0x11), (0x1001, 0x22), (0x1002, 0x33), (0x1003, 0x44)]]) &&
    decide ((tVs (.vsts 5 4 11 16 1 0)).flatten = [(0x1000, 0x11), (0x1002, 0x22), (0x1004, 0x33), (0x1006, 0x44)]) &&
    decide ((tVs (.vscatter 5 4 11 3 1 1 0)).flatten = [(0x100E, 0x11), (0x1000, 0x22), (0x1006, 0x33), (0x1010, 0x44)])) = true := by
  decide +kernel

/-- The first-fault form where the third element's address is not canonical (R302): elements below it are written. -/
theorem test_first_fault : (let s := tGm.setCore 5 { tKg with v := [(3, 0x10000000000000000000000000000000)] }
      ((tRun (.vgatherff 5 10 11 3 0 0 3 false) s).core 5).rv 10 = 0x8700000083828180 ∧
      ((tRun (.vgatherff 5 10 11 3 0 0 3 false) s).core 5).srv 0x400 = 0x00FF) := by decide +kernel

/-! ## Chip CSRs, resets, start-up -/

/-- A doubleword access to SOR_RATE, whose MIGS is 1 to 255 (Table 2.11). -/
def tRate (v : Word) : CsrReq := { pa := rasBase + 0x100018, size := 8, value := v, req := wq }

theorem test_register_write : (tRun (.registerWrite (tRate 0x705)) State.reset).rdCsr (rasBase + 0x100018) = 0x705 ∧
    State.reset.rdCsr (rasBase + 0x100018) = 0x10020 ∧ (let t := tRun (.registerWrite (tRate 0x700)) State.reset
      t.rdCsr (rasBase + 0x100018) = 0x10020 ∧ (t.rejOf 579).total = 1 ∧
      (t.rejOf 579).ents.map (fun e => e.headD 0) = [BitVec.ofNat 64 (rasBase + 0x100018)]) := by decide +kernel

theorem test_register_premises : State.reset.csrAccepts (tRate 0).pa true wq = true ∧ (regAt (tRate 0).pa).isSome = true := by
  decide +kernel
theorem test_register_plain : State.reset.writeOf .SOR_RATE (tRate 5) = State.reset.plainWrite (tRate 5) := rfl

theorem test_reject_clear : let s := tRun (.registerWrite (tRate 0x700)) State.reset
    let t := tRun (.rejectClear { pa := rasBase + 0xE00000, size := 8, value := 2, req := wq }) s
    (t.rejOf 579).ents = [] ∧ (t.rejOf 579).total = 1 := by decide +kernel

theorem test_reserved_access : let t := tRun (.reservedAccess { pa := 0x3000000000008, size := 8, value := 0, req := wq } false) State.reset
    t.csrRsp = (2, 2 ^ 64 - 1) ∧ t.rdCsr (rasBase + 0x2000) = 0x3000000000008 ∧ t.fld (rasBase + 0x28) 3 0 = 1 ∧
    region 0x3000000000008 = .reserved := by decide +kernel

theorem test_shadow_read : (tRun (.shadowRead { pa := rasBase + 0xF00000, size := 8, value := 0, req := wq })
    { State.reset with snap := { Snap.reset with pages := [(579, 3)] } }).csrRsp = (0, 3) := by decide +kernel

/-- A part at stage 9 with core 5 carried by its tile's physical core. -/
def tUp : State := { tMem.putFld dseBase 3 0 9 with pins := { State.reset.pins with held := false, power := true, pwrGood := true } }
def tOut : State := tUp

theorem test_cold_reset : tRun (.coldReset false) tUp = { State.reset with dse := (tRun (.coldReset false) tUp).dse, pins := (tRun (.coldReset false) tUp).pins } ∧
    tSame (.coldReset false) { tUp with pins := { tUp.pins with thermtrip := true } } = true := by decide +kernel

theorem test_warm_reset : let t := tRun .warmRstN tUp
    t.mem = tBytes ∧ t.cores = [] ∧ t.stage = 3 ∧ t.dse.warm = true ∧ tSame .warmRstN (tUp.putFld dseBase 3 0 4) = true ∧
    (tRun (.dseWarm 1 wq) tUp).stage = 3 := by decide +kernel

theorem test_core_reset : let t := tRun (.coreReset (Fin.ofNat 544 (tOut.phys 5 / 2)) (Fin.ofNat 2 (tOut.phys 5 % 2)) wq) tOut;
    (t.core 5).run = .draining ∧ tOut.carried (tOut.phys 5) = some 5 ∧
    (let u := tRun (.coreRestart 5) t;
      (u.core 5).run = .running ∧ (u.core 5).g = [] ∧ (u.core 5).pc = 0xF00F000000400) := by decide +kernel

theorem test_release : let s := tOut.setCore 5 Core.reset
    ((tRun (.dseRelease 5 wq) s).core 5).run = .running ∧ ((tRun (.dseRelease 5 wq) s).core 6).run = .off := by decide +kernel

theorem test_power_loss : (tRun .pwrGoodFall tUp).mem = [] ∧ (tRun .pwrGoodFall tUp).pins.held = true ∧
    (tRun .railMonitorTrip tUp).pins.catErr = true ∧ (tRun .lossOfPower tUp).pins.power = false ∧
    (tRun (.jtagInstruction 2) tUp).pins.jtag = 2 ∧ (tRun (.jtagInstruction 9) tUp).pins.jtag = 0 := by decide +kernel

/-- Package power, at a stage. -/
def tStage (n : Nat) : State := { State.reset.putFld dseBase 3 0 n with pins := { State.reset.pins with held := false, power := true, pwrGood := true } }

theorem test_stage_1 : (tRun (.stage1 true false) (tStage 0)).stage = 1 ∧ (tRun (.stage1 true false) (tStage 0)).flag dseBase 6 = false ∧
    (tRun (.stage1 false true) (tStage 0)).flag dseBase 6 = true ∧ (tRun (.stage1 false false) (tStage 0)).stage = 15 ∧
    (tRun (.stage1 false false) (tStage 0)).pins.catErr = true := by decide +kernel

/-- A part whose maker key matches its fuse, with a firmware header and a settings header in their first slots. -/
def tFlash : State :=
  let s := ((tStage 1).flPut (fwA 0) (bytesOf 0x5A4E4657 4 ++ [1, 0, 3, 0, 1, 0, 0, 0] ++ bytesOf 4096 4 ++ bytesOf 0 4 ++ bytesOf 4096 4)).flPut
    (setA 0) (bytesOf 0x5A4E5354 4 ++ [1, 0, 0, 0, 1, 0, 0, 0] ++ bytesOf 16 4 ++ bytesOf 0 8)
  let s := s.flPut (setA 0 + 0x40) [1, 0, 1, 0, 1, 0, 0, 0, 2, 0, 2, 0, 64, 0]
  { s with fuses := { s.fuses with makerHash := Config.sha512 s.makerKey } }

theorem test_maker_key : tFlash.makerOk = true := by
  have h : tFlash.makerKey = (tStage 1).makerKey := by decide +kernel
  unfold State.makerOk; rw [h]; exact beq_self_eq_true _

/-- An image whose header passes the checks is valid where its signature verifies. -/
theorem fw_ok_of (s : State) (img : List Byte) (h : ∀ k m g, Config.ed25519 k m g = true) (hm : s.makerOk = true)
    (hd : (decide (at' img 0 4 = 0x5A4E4657) && decide (at' img 4 2 = 1) && decide (at' img 0x0C 4 ≤ 0x200000 - 256) &&
      decide (at' img 0x14 4 = 4096) && decide (at' img 0x10 4 + 4096 ≤ at' img 0x0C 4) && decide (at' img 6 1 ≤ 64) &&
      decide (s.fuses.svn ≤ at' img 6 1)) = true) : s.fwOk img = true := by
  simp only [Bool.and_eq_true] at hd
  simp only [State.fwOk, h, hm, Bool.and_eq_true, Bool.and_true]
  exact hd

theorem fw_choose_of {s : State} (a : s.fwFirst = 1) (b : s.fwOk (s.fwSlot 1) = false) (c : s.fwOk (s.fwSlot 0) = true) :
    s.fwChoose = some 0 := by
  simp [State.fwChoose, a, b, c]
theorem test_fw_first : tFlash.fwFirst = 1 := by decide +kernel
theorem test_fw_erased : tFlash.fwOk (tFlash.fwSlot 1) = false := by decide +kernel
/-- Where every signature verifies, the firmware of slot 0 is chosen: slot 1 is erased. -/
theorem test_firmware_choice (h : ∀ k m g, Config.ed25519 k m g = true) : tFlash.fwChoose = some 0 :=
  fw_choose_of test_fw_first test_fw_erased (fw_ok_of _ _ h test_maker_key (by decide +kernel))

theorem test_no_firmware : (tStage 1).fwChoose = none ∧ (tRun .stage2 (tStage 1)).stage = 14 := by decide +kernel

theorem test_stage_3 : let t := tRun (.stage3 [2] [wr]) (tStage 2)
    t.stage = 3 ∧ t.reports = [wr] ∧ t.fld (chBase 2) 23 20 = 3 := by decide +kernel

theorem test_no_settings : let t := tRun .stage4 (tStage 3)
    (tStage 3).setChoose = none ∧ t.stage = 4 ∧ t.flag dseBase 12 = true ∧ t.dse.setImage = none := by decide +kernel

/-- A settings image with checked header, key and records is valid where its signature verifies. -/
theorem set_ok_of (s : State) (img : List Byte) (h : ∀ k m g, Config.ed25519 k m g = true) (hm : s.makerOk = true)
    (a : at' img 0 4 = 0x5A4E5354 ∧ at' img 4 2 = 1 ∧ at' img 0x0C 4 ≤ 262016) (b : at' img 6 1 = 0) (c : s.installer = false)
    (d : at' img 0x10 8 = 0) (e : recFail [] (imgRecs img) = none) : s.setFail img = none := by
  simp [State.setFail, h, hm, a, b, c, d, e]

theorem test_settings_choice (h : ∀ k m g, Config.ed25519 k m g = true)
    (c : tFlash.installer = false) : tFlash.setFail (tFlash.setImg 0) = none :=
  set_ok_of _ _ h test_maker_key (by decide +kernel) (by decide +kernel) c (by decide +kernel) (by decide +kernel)

theorem test_stage_5 : let t := tRun (.stage5 [{ density := 0, ranks := 2, pass := [0, 1] }] []) (tStage 4)
    t.stage = 5 ∧ t.fld (chBase 0) 23 20 = 2 ∧ t.fld (chBase 0) 2 0 = 2 ∧ t.fld (chBase 0) 19 4 = 16384 ∧
    Map.get false t.pins.drst 0 = true := by decide +kernel

theorem test_stage_6 : let t := tRun (.stage6 []) (tStage 5)
    t.stage = 6 ∧ t.layout = (tStage 5).layoutOf [] ∧ t.fld grantedA 27 0 = 0 := by decide +kernel

theorem test_stage_7_8 : (tStage 6).stage = 6 ∧ (tStage 6).dse.setImage = none ∧ (tStage 7).stage = 7 ∧
    (tStage 7).dse.moved = [] ∧ (tStage 7).dse.retired = [] ∧ (tStage 7).tableCore 0 = some 0 := by decide +kernel

theorem test_stage_9 : let s := (tStage 8).putFld (dseBase + 0x10000) 14 12 1
    let t := tRun (.stage9 false) s
    t.stage = 9 ∧ (t.core 0).run = .running ∧ (t.core 0).pc = 0xF00F000000400 := by decide +kernel

/-! ## Memory tiers -/

def tCmd (w0 w1 : Word) : SorCmd := { w0 := w0, w1 := w1, slot := 0x2000 }
/-- STATUS and ENTRY of the slot at 0x2000, and the entry of frame 12, after i. -/
def tSlot (i : Instr) (s : State) : Nat × Nat × Word := ((tRun i s).rdN 0x2010 1, (tRun i s).rdN 0x2018 8, (tRun i s).entry 12)

theorem test_sorrel_premises : tSor.hostCh 0 = 0 ∧ tSor.dmaStatus 0x80 = 0 ∧ tSor.farLost 0 = false ∧ tSor.migOf 12 = none ∧
    tSor.sorWaits 12 = false ∧ tSor.heldBy 1088 0x80 = false ∧
    pinPermits 1 (eKind (tSor.entry 12)) = true ∧ pinPermits 0 (eKind (tSor.entry 12)) = false := by decide +kernel

theorem test_sorrel_commands :
    (decide (tSlot (.unpin 0 (tCmd 0 12)) { tSor with remap := [(0, mkEntry 1 0 5), (12, mkEntry 2 3 7 ||| 0x18)] } = (0, 0, mkEntry 2 3 7)) &&
      decide (tSlot (.weight 0 (tCmd 0x40000 12)) tSor = (0, 0, mkEntry 2 3 7 ||| 0x800)) &&
      decide (tSlot (.pin 0 (tCmd 0x100 12)) tSor = (0, 0, mkEntry 2 3 7 ||| 0x18)) &&
      decide (tSlot (.query 0 (tCmd 0 12)) tSor = (0, (mkEntry 2 3 7).toNat, mkEntry 2 3 7)) &&
      decide (tSlot (.unpin 0 (tCmd 0 13)) tSor = (1, 0, mkEntry 2 3 7)) &&
      decide (tSlot (.weight 0 (tCmd 0 24)) tSor = (2, 0, mkEntry 2 3 7))) = true := by decide +kernel

theorem test_sorrel_queues : ((tRun (.pin 0 (tCmd 0 12)) tSor).home 0).acts =
      [{ frame := 12, dest := 0, port := none, auto := false, cmd := some 0x2000 }] ∧
    ((tRun (.migrate 0 (tCmd 0 12)) tSor).home 0).acts = [{ frame := 12, dest := 0, port := none, auto := false, cmd := some 0x2000 }] ∧
    (tRun (.pin 0 (tCmd 0 12)) tSor).rdByte 0x2017 = 0 := by decide +kernel

/-- The ring of channel 0 at 0x4000 with 16 slots, and one slot to read. -/
def tCmdRing : State := ((tSor.wrCsr (chBase 0 + 0x200000) 0x4000).putFld (chBase 0 + 0x200008) 3 0 4).putFld (chBase 0 + 0x200010) 11 0 1

theorem test_sorrel_ring : (tRun (.sorCmdSlotRead 0) tCmdRing).fld (chBase 0 + 0x200018) 11 0 = 1 ∧
    (let s := { tCmdRing with remap := [] };
      ((tRun (.sorCmdSlotRead 0) s).home 0).slotStop = true ∧ (tRun (.sorCmdSlotRead 0) s).homeLog.getLast? = some [0, 3, 0x4000, 0, 9]) ∧
    (tRun (.sorCmdTail 0 5 wq) tCmdRing).fld (chBase 0 + 0x200010) 11 0 = 5 := by decide +kernel

theorem test_sorrel_ring_set : (tRun (.sorCmdBase 0 0x7000 wq) tSor).rdCsr (chBase 0 + 0x200000) = 0x7000 ∧
    (tRun (.sorCmdSize 0 6 wq) tSor).fld (chBase 0 + 0x200008) 3 0 = 6 ∧
    (tRun (.sorCmdSize 0 13 wq) tSor).fld (chBase 0 + 0x200008) 3 0 ≠ 13 := by decide +kernel

/-- Past the first multiple of the epoch length. -/
def tEpoch : State := { tSor with ctime := 0x100000000 }
theorem test_epoch : tEpoch.epochDue = true ∧ tSame .epochBoundary tSor = true ∧ (tRun .epochBoundary tEpoch).coord.epoch = 1 ∧
    ((tRun .epochBoundary tEpoch).home 0).scanPos = none ∧
    ((tRun .epochBoundary { tEpoch with coord := { Coord.reset with epoch := 15 } }).home 0).scanPos = some 0 := by decide +kernel

/-- The scan of home function 0 at frame 12, whose heat is 16 and was stored two epochs ago. -/
def tScan : State := { tSor with
  homes := [(0, { Home.reset with scanPos := some 1 })], coord := { Coord.reset with epoch := 2 }, remap := [(0, mkEntry 1 0 5), (12, mkEntry 2 3 7 ||| 16 * 2 ^ 48)] }

theorem test_scan : let t := tRun (.scanVisit 0) tScan
    eHeat (t.entry 12) = 4 ∧ eHtag (t.entry 12) = 2 ∧ (t.home 0).scanPos = some 2 ∧ ePlace (t.entry 12) = { kind := 2, port := 3, loc := 7 } ∧
    eClass (t.entry 12) = tScan.classOf 4 := by decide +kernel

/-- A read of a ZERO frame (frame 24) that waits for its remap entry. -/
def tWaitQ : Pkt := { op := .HRd, src := ⟨1, 2⟩, dst := ⟨2, 0⟩, txid := 0, addr := 24 * 2 ^ 21 }
def tFill : State := { tSor with remap := [(24, mkEntry 4 0 0)], homes := [(0, { Home.reset with rwait := [tWaitQ] })] }

theorem test_remap_fill : let t := tRun (.remapCacheFill 0 24 true) tFill
    t.rhit 24 = true ∧ (t.home 0).rwait = [] ∧ (tRun (.remapCacheFill 0 24 false) tFill).reports.length = 1 := by decide +kernel

/-- Home function 0 under a grant with a queued promotion of frame 12, near frame 3 of channel 0 free. -/
def tPromote : State := { tSor with
  layout := { Layout.empty with nearLo := [3], nearHi := [4] }, homes := [(0, { Home.reset with grant := true, acts := [{ frame := 12, dest := 0, port := none, auto := false, cmd := none }] })] }

theorem test_migration_start : tPromote.freeNear 0 = some 3 ∧ tPromote.nearShut (tPromote.nearBk 0) = false ∧
    tPromote.fencedAgt (routerOfCh (tPromote.hostCh 0)) 0 = false ∧ tPromote.nextAct 0 = (tPromote.home 0).acts.head? ∧ (let t := tRun (.migrationStart 0) tPromote
    (t.migOf 12).map (fun m => (m.st, m.src.kind, m.dest.kind, m.dest.loc)) = some (MigSt.copy, 2, 1, 3) ∧ eMig (t.entry 12) = true) := by
  decide +kernel

/-- A migration of frame 12 in a state, between far places of ports 3 and 4. -/
def tMig (st : MigSt) (dest : Place) (ab : Nat) : State := { tSor with
  remap := [(0, mkEntry 1 0 5), (12, mkEntry 2 3 7 ||| 0x40)], homes := [(0, { Home.reset with migs := [{ frame := 12, src := { kind := 2, port := 3, loc := 7 }, dest := dest, st := st, pass := 0, aborts := ab, todo := none, dirty := [], blocks := [], imgs := [], holdq := [], cmd := none, pos := 0 }] })] }

theorem test_migration_steps :
    ((tRun (.copyPassEnd 12 ⟨[], []⟩) (tMig .copy { kind := 1, port := 0, loc := 3 } 0)).migOf 12).map (fun m => m.st) = some MigSt.switch ∧
    (tRun (.switchComplete 12) (tMig .switch { kind := 2, port := 4, loc := 9 } 0)).entry 12 = (mkEntry 2 4 9 ||| 0xC0) ∧
    ((tRun (.switchComplete 12) (tMig .switch { kind := 2, port := 4, loc := 9 } 0)).migOf 12).map (fun m => m.st) = some MigSt.drain ∧
    ((tRun (.switchAbort 12) (tMig .switch { kind := 1, port := 0, loc := 3 } 1)).migOf 12).map (fun m => (m.st, m.pass, m.aborts)) =
      some (MigSt.recopy, 1, 2) := by decide +kernel

theorem test_migration_end : let t := tRun (.drainEnd 12) (tMig .drain { kind := 2, port := 4, loc := 9 } 0)
    t.migOf 12 = none ∧ t.entry 12 = mkEntry 2 3 7 ∧ t.far 3 7 = .free := by decide +kernel

/-- The example of R44: predictor 0 predicts 0x65 at byte 2368; and an image of R42 with an exact row-number predictor holds
line 37 as MODE 0. -/
theorem test_chive_predict : let p : ChivePred := { off := 0, stride := 64, width := 8, delta := 1, base := 1000000 }
    chivePredict [p] 2368 = 0x65 ∧ chivePred p.bytes = some p ∧
    chiveLine [p] 37 [0] = some (bytesOf 1000037 8 ++ List.replicate 56 0) ∧
    chiveLine [p] 37 (1 :: (bytesOf 0x101 8 ++ [1, 9])) = some (bytesOf 1000036 8 ++ [9] ++ List.replicate 55 0) ∧
    chiveLine [p] 37 [3] = none ∧ chiveLine [p] 37 (1 :: (bytesOf 1 8)) = none := by decide +kernel

/-- Frames 24 and 25 elastic and granted, with no saved space: both are called for. -/
def tShort : State := (({ tSor with
  remap := [(0, mkEntry 1 0 5), (24, mkEntry 4 0 0 ||| 0x100), (25, mkEntry 4 0 0 ||| 0x100)] } : State).putFld grantedA 27 0 2).putFld savedA 47 0 4104

theorem test_breach : let t := tRun .breach tShort
    tShort.calledFor = 1 ∧ t.coord.held = [{ type := 2, frame := 24, count := 1, time := 9 + tShort.fld elrCtlA 16 0 * 1000 }] ∧
    t.coord.revs.length = 1 := by decide +kernel

/-- The elastic ring at 0x6000 with 64 slots, at its last slot, and a record to write. -/
def tElr : State := { (((tSor.wrCsr elrBaseA 0x6000).putFld elrTailA 15 0 63).putFld elrHeadA 15 0 60) with coord := { Coord.reset with held := [{ type := 1, frame := 24, count := 1, time := 0 }] } }

theorem test_elastic_record : (let t := tRun (.elrRecordWrite 0) tElr
      t.coord.held = [] ∧ t.fld elrTailA 15 0 = 0 ∧ t.fld elrTailA 16 16 = 1 - tElr.fld elrTailA 16 16 ∧ t.rdN 0x67E8 16 = 24 + 2 ^ 64) ∧
    (let t := tRun (.elrRecordWrite 4) tElr; t.coord.stopped = true ∧ t.flag capStatA 5 = true ∧ t.coord.held.length = 1) := by decide +kernel

theorem test_elastic_registers : (tRun (.sorElrHead 62 wq) tElr).fld elrHeadA 15 0 = 62 ∧
    (tRun (.sorElrBase 0x9000 wq) tSor).fld elrBaseA 51 12 = 9 ∧ (tRun (.sorElrSize 8 wq) tSor).fld elrSizeA 4 0 = 8 ∧
    tElr.fld elrSizeA 4 0 = 6 := by decide +kernel

theorem test_elastic_return : let t := tRun (.sorElrReturn (24 + 2 ^ 27) wq) { tShort with mem := [(24 * 2 ^ 21, 7), (26 * 2 ^ 21, 8)] }
    t.entry 24 = 0 ∧ t.entry 25 = 0 ∧ t.rdByte (24 * 2 ^ 21) = 0 ∧ t.rdByte (26 * 2 ^ 21) = 8 ∧ t.fld grantedA 27 0 = 0 := by decide +kernel

/-- A held write to block 5 of frame 12, which is COMPRESSED, past its deadline. -/
def tSpill : State := { tSor with
  remap := [(0, mkEntry 1 0 5), (12, mkEntry 3 3 7)], homes := [(0, { Home.reset with spill := [{ pkt := { op := .HWrF, src := ⟨1, 2⟩, dst := ⟨2, 0⟩, txid := 0, addr := 12 * 2 ^ 21 + 5 * 4096 }, more := [], deadline := 5 }] })] }

theorem test_land : let t := tRun (.land 0 0) tSpill
    tSpill.freeSlot 0 = some 0 ∧ t.dirEnt 12 5 = mkDirEnt 3 0 0 ∧ Map.get false t.slots 0 = true ∧ (t.home 0).spill = [] := by decide +kernel

theorem test_deadline : tRun .revokeDeadline { tSpill with coord := { Coord.reset with revs := [({ type := 2, frame := 24, count := 1, time := 3 }, [])] } } =
    tRun (.land 0 0) { tSpill with coord := { Coord.reset with revs := [({ type := 2, frame := 24, count := 1, time := 3 }, [])] } } := by decide +kernel

/-- Block 5 of frame 12 landed in slot 0, with far space on port 3. -/
def tLanded : State := (({ tSor with
  remap := [(0, mkEntry 1 0 5), (12, mkEntry 3 3 7)], dirPages := [(512 * 12 + 5, mkDirEnt 3 0 0)], slots := [(0, true)], farUse := [(3 * 2 ^ 21 + 7, .sectors 0 [])], layout := { Layout.empty with ports := [(3, 16)], far := 16 } } : State).putFld freeFarA 27 0 9).putFld (portBase 3 + 0x10008 + 0x1000 * 3) 3 0 2

theorem test_landed_back : let t := tRun (.landedMoveBack 0) tLanded
    tLanded.grantRule = true ∧ tLanded.fld freeFarA 27 0 = 9 ∧ tLanded.portUsable 3 = true ∧ (tLanded.allocSec 0 3 8 false).isSome = true ∧
    dKind (t.dirEnt 12 5) = 2 ∧ Map.get false t.slots 0 = false := by decide +kernel

theorem test_evacuations : (tRun (.portEvacuation 3 wq) tSor).fld evacA 16 9 = 6 ∧
    (tRun (.portEvacuation (3 + 256) wq) ({ tLanded with remap := [], dirPages := [], slots := [], farUse := [] }.putFld savedA 47 0 0x10000)).coord.closed = [3] ∧
    (let s := (tLanded.putFld (chBase 1) 23 20 2).putFld (chBase 0) 23 20 2; (tRun (.channelEvacuation (1 + 256) wq) s).coord.evac = some (true, 1)) := by decide +kernel

/-! ## Near memory -/

/-- Channel 0 trained, holding near frames 5 and 6, with a merge entry, a read in progress and one postponed refresh. -/
def tRead : Pkt := { op := .HRd, src := ⟨1, 2⟩, dst := ⟨2, 0⟩, txid := 3, addr := 0x1000 }
def tNear : State := { (((tSor.putFld (chBase 0) 23 20 2).putFld (chBase 0) 19 4 8192).putFlag (chBase 0 + 0x3000) 8 true) with ctime := 100000, mem := tBytes, near := [(0, { NearCh.reset with reads := [(tRead, 5, 0x40)], merge := [{ cf := 5, line := 0x41, data := 0, mask := 1, pmask := 0, time := 0 }], postponed := [(1, 2)] })], nearSys := [(5, some 0)], layout := { Layout.empty with nearLo := [5], nearHi := [7] } }

theorem test_refresh : Map.get 0 ((tRun (.recentre 0 1) tNear).nch 0).postponed 1 = 1 ∧
    Map.get 0 ((tRun (.refresh 0 1 false) tNear).nch 0).postponed 1 = 0 ∧
    Map.get 0 ((tRun (.refresh 0 1 true) tNear).nch 0).postponed 1 = (if 2 < tNear.fld (chBase 0 + 0x108) 16 13 then 3 else 0) := by
  decide +kernel

theorem test_dram_heat : (tRun (.dramThermalEvent 0 90) tNear).flag (pwrBase + 0x28) 38 = true ∧
    (tRun (.dramThermalEvent 0 90) tNear).flag (pwrBase + 0x28) 50 = true ∧
    (tRun (.dramThermalEvent 0 85) tNear).flag (pwrBase + 0x28) 38 = false := by decide +kernel

/-- Region 0 from frame 5 to frame 6, LIGHT and valid. -/
def tRegion : Word := 5 + 6 * 2 ^ 16 + 7 * 2 ^ 32

theorem test_region : tNear.regionBad 0 0 (tNear.nregion 0 0) tRegion = false ∧ (let t := tRun (.nmcRegionWrite 0 0 tRegion wq) tNear
    bitsN (t.nregion 0 0) 30 16 = 6 ∧ t.flag (chBase 0 + 0x1080) 4 = true ∧ t.fld (chBase 0 + 0x1080) 19 5 = 5 ∧
    (let u := tRun (.conversionLine 0 wd) { t with near := [] }; (u.nch 0).convLine = 1 ∧ u.flag (chBase 0 + 0x1080) 4 = true)) := by
  decide +kernel

theorem test_near_premises : tNear.proxied ⟨2, 0⟩ = false ∧ tNear.mergeOf 0 5 0 = none ∧ tNear.csrAccepts (chBase 0 + 0x1000) true wq = true ∧
    (tNear.putFld (bktA 0 2) 47 32 1).fld (bktA 0 2) 47 32 * 1000 ≤ tNear.ctime.toNat := by decide +kernel

theorem test_near_read : let t := tRun (.nearReadDone 0 5 0x40 wd) tNear
    (t.nch 0).reads = [] ∧ t.net.map (fun x => (x.op, x.txid, x.status, x.poison)) = [(Op.Data, 3, 0, false)] ∧
    t.net.map (fun x => x.data) = [tNear.rdLine 0x40] := by decide +kernel

theorem test_merge : ((tRun (.mergeForce 0 0 wd) tNear).nch 0).merge = [] ∧ (tRun (.mergeForce 0 0 wd) tNear).mem = tBytes := by
  decide +kernel

theorem test_scrub : ((tRun (.scrubRead 0 wd) tNear).nch 0).scrubLine = 1 ∧
    (let s := { tNear with near := [(0, { NearCh.reset with scrubLine := 32767 })], remap := [(0, mkEntry 1 0 5 ||| 0x200)] }
     let s := s.putFld (chBase 0 + 0x3000) 24 10 5
     (tRun (.scrubRead 0 wd) s).fld (chBase 0 + 0x3000) 24 10 = 6 ∧ ePoisoned ((tRun (.scrubRead 0 wd) s).entry 0) = false) := by
  decide +kernel

theorem test_bucket : let s := (tNear.putFld (bktA 0 2) 15 0 3).putFld (bktA 0 2) 47 32 1
    (tRun (.bucketLeak 0 2) s).fld (bktA 0 2) 15 0 = 2 ∧ (tRun (.bucketLeak 0 3) s).fld (bktA 0 3) 15 0 = 0 := by decide +kernel

/-- The row of frame 5, whose line 0 the correction log gives device 2. -/
def tSpare : State := (tNear.putFld (chBase 0 + 0x6000) 24 0 (80 * 64 + 2 ^ 24)).wrCsr (chBase 0 + 0x5008) (5 + 2 * 2 ^ 32)

theorem test_row_spare : let t := tRun (.nmcSpareStart 0 (4 + 9 * 64) wq) tNear
    t.flag (chBase 0 + 0x6000) 24 = true ∧ t.fld (chBase 0 + 0x6000) 23 0 = 4 + 9 * 64 ∧
    (tRun (.nmcSpareStart 0 4 { wq with dse := false, pl := 2 }) tNear).csr = tNear.csr := by decide +kernel

theorem test_row_spare_done : tSpare.rowDevice 0 0 0 0 80 = some 2 ∧ (let t := tRun (.rowSpareDone 0 true []) tSpare
      t.flag (chBase 0 + 0x6000) 24 = false ∧ t.fld (chBase 0 + 0x6000) 27 25 = 0 ∧ (t.nch 0).repairs = [(8, 1)]) ∧
    (tRun (.rowSpareDone 0 false []) tSpare).fld (chBase 0 + 0x6000) 27 25 = 2 := by decide +kernel

theorem test_row_line : State.reset.dramAt 0 5 (rowLine 2 1 86 97) = (0, 2, 1, 86) ∧ rowLine 0 0 80 0 = 0 := by decide +kernel

theorem test_row_spare_full : let t := tRun (.rowSpareDone 0 true []) { tSpare with near := [(0, { NearCh.reset with repairs := [(8, 2)] })] }
    t.fld (chBase 0 + 0x6000) 27 25 = 1 ∧ (t.nch 0).withheld = [5] := by decide +kernel

theorem test_resilver : let t := tRun (.resilverDone 0) (tNear.putFld (chBase 0 + 0x7000) 1 0 3)
    t.fld (chBase 0 + 0x7000) 1 0 = 1 ∧ t.fld (chBase 1 + 0x7000) 1 0 = 1 ∧ t.hostCh 1 = 1 ∧ t.fld (chBase 1) 23 20 = 2 := by decide +kernel

/-- Near channel 2 evacuated and its stop powered down; its home function is hosted at channel 3. -/
def tGone : State := { ((State.reset.putFld (chBase 2) 23 20 4).setHomemap 2 3) with downDom := [(4096 * 2 + 2, true)], layout := { State.reset.layout with homeCh := List.range 12, nearLo := List.replicate 12 214, nearHi := List.replicate 12 8192 } }
def tChan : ChanEnv := { density := 0, ranks := 2, pass := [1] }
theorem test_replace : (let t := tRun (.domainUp (BitVec.ofNat 64 (2 + 8 * 2)) wq tChan true) tGone
      t.isDown 2 2 = false ∧ t.fld (chBase 2) 23 20 = 2 ∧ t.fld (chBase 2) 19 4 = 8192 ∧ t.fld (chBase 2 + 0x5008) 40 37 = 7 ∧
      t.fld (chBase 2 + 0x5008) 31 30 = 0 ∧ t.homeReturns 2 2 = true ∧ t.evacNotReady 2 2 = false ∧
      (tRun (.homemapRewrite 2 2) t).hostCh 2 = 2) ∧
    (tRun (.domainUp (BitVec.ofNat 64 (2 + 8 * 2)) wq tChan false) tGone).fld (chBase 2) 23 20 = 3 := by decide +kernel

/-! ## Caches -/

/-- The slice of line 0x40, and tMem with the slice's record as given and no copy of the line in the L2 of core 5. -/
def tSl : TileId := Fin.ofNat 544 (tMem0.sliceOf 0x40)
def tDir (d : DirLine) : State := tMem0.setDline 0x40 d
def tClean : DirLine := { DirLine.empty with way := .clean }
/-- RESULT of the slice's lock register. -/
def tResult (s : State) : Nat := s.fld (tileBase tSl + 0x40018) 3 1

/-- tMem0 with a falling stream of core 5's L2 at line 0x41. -/
def tStream : State := { tMem0 with pfs := [(tMem0.phys 5, { loads := [], streams := [(0x41, -1)] })] }
theorem test_prefetch : ((tRun (.prefetch 5 0x1000) tStream).l2line (tMem0.phys 5) 0x40).miss = some .RdS ∧
    tStream.prefetches (tMem0.phys 5) 0x40 = true ∧ tSame (.prefetch 5 0xFC0) tStream = true ∧
    tSame (.prefetch 5 0x2000000000000) tStream = true ∧ tSame (.prefetch 5 0x1000) tMem0 = true := by
  decide +kernel

theorem test_lock : let s := (tDir tClean).putFld (tileBase tSl + 0x40008) 5 2 4
    ((tRun (.lock tSl 0x1000 wq) s).dline 0x40).lock = true ∧ tResult (tRun (.lock tSl 0x1000 wq) s) = 0 ∧
    tResult (tRun (.lock tSl 0x1000 wq) (s.putFld (tileBase tSl + 0x40008) 5 2 0)) = 1 ∧
    tResult (tRun (.unlock tSl 0x1000 wq) s) = 2 := by decide +kernel

theorem test_lock_unbacked : tResult (tRun (.lock tSl 0x1000 wq) (({ tMem0 with remap := [] } : State).putFld (tileBase tSl + 0x40008) 5 2 4)) = 3 ∧
    ((tRun (.unlockAll tSl 0 wq) (tDir { tClean with lock := true })).dline 0x40).lock = false ∧
    ((tRun (.unlock tSl 0x1000 wq) (tDir { tClean with lock := true })).dline 0x40).lock = false := by decide +kernel

theorem test_disables : (let a := tileBase 0 + 0x30000
      let t := tRun (.l2Disable 0 0 0x110000 wq) State.reset;
      bitsN (t.rdCsr a) 17 16 = 3 ∧ (tRun (.l2WayDisable 0 0 0x100003 wq) State.reset).fld a 17 0 = 0x20003) ∧
    (let a := tileBase 0 + 0x40000;
      (tRun (.l3Disable 0 0x10000 wq) State.reset).flag (a + 8) 0 = true ∧ (tRun (.l3WayDisable 0 3 wq) State.reset).fld a 15 0 = 3) := by
  decide +kernel

theorem test_drain_done : let p := tMem.phys 5
    let a := tileBase (p / 2) + 0x30000 + 8 * (p % 2)
    let s := tMem.putFld a 17 16 3
    ((tRun (.cacheDrainDone (Fin.ofNat 544 (p / 2)) (Fin.ofNat 3 (p % 2))) s).l2line p 0x40).st = .I ∧
    (tRun (.cacheDrainDone (Fin.ofNat 544 (p / 2)) (Fin.ofNat 3 (p % 2))) s).flag a 17 = false := by decide +kernel

/-- Core 5 with one entry in its store buffer, on the state s. -/
def tBuf (s : State) (e : StEntry) : State := s.modCore 5 (fun k => { k with sbuf := [e] })
def tStE (kd : StKind) (pa size : Nat) (cells : List (Nat × Byte)) : StEntry :=
  { kind := kd, pa := pa, size := size, cells := cells, pl := 3, v := false, tr := [], marks := [] }
/-- The L2 of core 5 with line 0x40 in M. -/
def tOwnM : State := tMem0.setL2 (tMem0.phys 5) 0x40 { L2Line.empty with st := .M } |>.setDline 0x40 { DirLine.empty with st := .X (tMem0.phys 5) }

theorem test_store_performed : (tRun (.storePerform 5 0) (tBuf tOwnM (tStE .plain 0x1001 2 [(0x1001, 1), (0x1002, 2)]))).rdN 0x1000 4 = 0x83020180 ∧
    tRun (.storePerform 5 0) (tBuf tOwnM (tStE .fence 0 0 [])) = tOwnM ∧
    (tRun (.storePerform 5 0) (tBuf (tOwnM.setPoison 0x40 true) (tStE .zero 0x1000 64 [(0x1000, 0)]))).poison = [] := by decide +kernel

theorem test_store_status : let t := tRun (.storePerform 5 0) (tBuf { tMem0 with remap := [] } (tStE .plain 0x1000 1 [(0x1000, 0)]))
    (t.core 5).errStore = true ∧ (t.core 5).srv 0x70 = 0x1000 ∧ t.mem = tBytes := by decide +kernel

/-- The same in E: no newer bytes than memory's. -/
def tOwnE : State := tOwnM.setL2 (tMem0.phys 5) 0x40 { L2Line.empty with st := .E }
theorem test_flush_clean : (let t := tRun (.storePerform 5 0) (tBuf tOwnE (tStE .flush 0x1000 64 []));
      t.dline 0x40 = DirLine.empty ∧ (t.l2line (tMem0.phys 5) 0x40).st = .I) ∧
    (let t := tRun (.storePerform 5 0) (tBuf tOwnE (tStE .clean 0x1000 64 []));
      (t.dline 0x40).st = .S [tMem0.phys 5] ∧ (t.l2line (tMem0.phys 5) 0x40).st = .S) ∧
    ((tRun (.storePerform 5 0) (tBuf tOwnM (tStE .flush 0x1000 64 []))).l2line (tMem0.phys 5) 0x40).miss = some .Flush ∧
    ((tRun (.storePerform 5 0) (tBuf tOwnM (tStE .clean 0x1000 64 []))).l2line (tMem0.phys 5) 0x40).miss = some .Clean := by decide +kernel

theorem test_perform_premises : let e := tStE .plain 0x1001 2 [(0x1001, 1), (0x1002, 2)]
    let s := tBuf tOwnM e
    mayPerform [e] 0 e = true ∧ s.olderReady (tMem0.phys 5) [e] 0 = false ∧ (s.l2line (tMem0.phys 5) 0x40).st = .M ∧
    tOwnE.copyDirty 0x40 = false ∧ tOwnM.copyDirty 0x40 = true ∧ tOwnM.misses (tMem0.phys 5) = 0 ∧ tOwnE.heldElsewhere 1088 0x40 = false ∧
    tOwnE.fenced (sliceAgt (tOwnE.sliceOf 0x40)) = false := by decide +kernel

/-- A request of the L2 of physical core 8 to the slice of line 0x40. -/
def tReq (op : Op) : Pkt := { op := op, src := physAgt 8, dst := sliceAgt (tMem0.sliceOf 0x40), txid := 7, addr := 0x1000, data := 0xAB, mask := 1 }
/-- The slice's record of line 0x40, and the packets sent with their destinations, after i on a record d. -/
def tSlice (i : Instr) (d : DirLine) (d' : DirLine) (ps : List (Op × Agt)) : Bool :=
  let t := tRun i (tDir d)
  decide (t.dline 0x40 = d') && decide (t.net.map (fun x => x.op) = ps.map (fun x => x.1)) && decide (t.net.map (fun x => x.dst) = ps.map (fun x => x.2))
def tX8 : DirLine := { tClean with st := .X 8 }
def tX9 : DirLine := { tClean with st := .X 9 }

theorem test_slice_reads : (tSlice (.rds (tReq .RdS)) tClean tX8 [(.Data, physAgt 8)] &&
    tSlice (.rds (tReq .RdS)) { tClean with st := .S [9] } { tClean with st := (DirSt.S [9]).add 8 } [(.Data, physAgt 8)] &&
    tSlice (.rdnc (tReq .RdNC)) tClean tClean [(.Data, physAgt 8)] && tSlice (.rdx (tReq .RdX)) tClean tX8 [(.Data, physAgt 8)] &&
    tSlice (.upg (tReq .Upg)) tClean tX8 [(.Data, physAgt 8)] && tSlice (.rdz (tReq .RdZ)) tClean tX8 [(.Grant, physAgt 8)]) = true := by
  decide +kernel

theorem test_slice_held : (tSlice (.rds (tReq .RdS)) { tClean with busy := some (tReq .RdX, .snoop) }
      { tClean with busy := some (tReq .RdX, .snoop), held := [tReq .RdS] } []) = true ∧ tSl.val < 544 ∧
    (tDir tClean).trackers tSl < 256 ∧ (tDir tClean).Open (sliceAgt (tMem0.sliceOf 0x40)) :=
  ⟨by decide +kernel, by decide +kernel, by decide +kernel, by decide +kernel, by decide +kernel, by decide +kernel⟩

theorem test_slice_premises : let s := tDir tClean
    s.hasRoom 0x40 = true ∧ s.behind (tReq .RdS) = false ∧ (s.freeTx (sliceAgt (s.sliceOf 0x40))).isSome = true ∧ s.txwait = [] ∧
    (Map.get [] s.dtags (s.dirSet 0x40)).length < 32 ∧ (s.freeTx (physAgt 5)).isSome = true := by decide +kernel

theorem test_slice_snoops : (tSlice (.rds (tReq .RdS)) tX9 { tX9 with busy := some (tReq .RdS, .snoop) } [((snpOf .RdS).1, physAgt 9)] &&
    tSlice (.clean (tReq .Clean)) tX9 { tX9 with busy := some (tReq .Clean, .snoop) } [((snpOf .Clean).1, physAgt 9)] &&
    tSlice (.wrf (tReq .WrF)) tX9 { tX9 with busy := some (tReq .WrF, .acks 1) } [(.Inv, physAgt 9)] &&
    tSlice (.upg (tReq .Upg)) { tClean with st := .S [8] } tX8 [(.Grant, physAgt 8)] &&
    tSlice (.rdx (tReq .RdX)) { tClean with st := .S [8, 9] } { tClean with st := .S [8, 9], busy := some (tReq .RdX, .acks 1) } [(.Inv, physAgt 9)]) = true := by
  decide +kernel

theorem test_slice_writes : (tSlice (.wrf (tReq .WrF)) tClean { tClean with way := .dirty } [(.Cmp, physAgt 8)] &&
    decide ((tRun (.wrf (tReq .WrF)) (tDir tClean)).rdLine 0x40 = 0xAB) &&
    decide ((tRun (.wrp (tReq .WrP)) (tDir tClean)).rdN 0x1000 2 = 0x81AB) &&
    tSlice (.clean (tReq .Clean)) tClean tClean [(.Cmp, physAgt 8)] && tSlice (.flush (tReq .Flush)) tClean DirLine.empty [(.Cmp, physAgt 8)] &&
    tSlice (.fatom { tReq .FAtom with detail := 0 }) tClean { tClean with way := .dirty } [(.Data, physAgt 8)]) = true := by decide +kernel

theorem test_slice_home : (tSlice (.rds (tReq .RdS)) DirLine.empty { DirLine.empty with busy := some (tReq .RdS, .home) } [(.HRd, tMem0.homeAgt 0x1000)] &&
    tSlice (.wrp (tReq .WrP)) DirLine.empty { DirLine.empty with busy := some (tReq .WrP, .home) } [(.HWrP, tMem0.homeAgt 0x1000)]) = true := by
  decide +kernel

theorem test_slice_puts : (tSlice (.puts (tReq .PutS)) { tClean with st := .S [8, 9] } { tClean with st := .S [9] } [(.WbGo, physAgt 8), (.WbAck, physAgt 8)] &&
    tSlice (.pute (tReq .PutE)) tX8 tClean [(.WbGo, physAgt 8), (.WbAck, physAgt 8)] &&
    tSlice (.putm (tReq .PutM)) tX8 { tX8 with busy := some (tReq .PutM, .wbdata) } [(.WbGo, physAgt 8)] &&
    tSlice (.putm (tReq .PutM)) tX9 tX9 [(.WbStale, physAgt 8)] && tSlice (.puts (tReq .PutS)) tClean tClean [(.WbStale, physAgt 8)]) = true := by
  decide +kernel

/-! ## Evictions, snoops, homes and targets -/

theorem test_agents : sliceAgt (tMem0.sliceOf 0x40) = tTheSlice ∧ tMem0.homeAgt 0x1000 = tTheHome ∧ tMem0.dseA = ⟨540, 0⟩ := by
  decide +kernel


theorem test_l2_eviction : let s := tL2 { L2Line.empty with st := .M }
    tSends (.l2Eviction 5 0x40) s [(.PutM, tTheSlice)] = true ∧
    ((tRun (.l2Eviction 5 0x40) s).l2line 5 0x40).evb = some (.M, false, false) := by decide +kernel

theorem test_slice_eviction : let t := Fin.ofNat 544 (tMem0.sliceOf 0x40)
    (tRun (.sliceEviction t 0x40) (tDir0 (tWay .clean))).dline 0x40 = DirLine.empty ∧
    tSends (.sliceEviction t 0x40) (tDir0 (tWay .dirty)) [(.HPut, tTheHome)] = true ∧
    ((tRun (.sliceEviction t 0x40) (tDir0 { DirLine.empty with st := .S [5] })).dline 0x40).st = .U ∧
    tSame (.sliceEviction t 0x40) (tDir0 { tWay .clean with lock := true }) = true := by decide +kernel

theorem test_put_answers : tSends (.hput (tToHome .HPut)) tMem0 [(.WbGo, tTheSlice)] = true ∧
    tSends (.hput (tToHome .HPut)) (tMem0.modHome 0 (fun h => { h with fenced := true })) [(.WbStale, tTheSlice)] = true ∧
    tSends (.wbgo (tToL2 .WbGo)) (tL2 { L2Line.empty with evb := some (.M, false, false) }) [(.WbData, tTheSlice)] = true ∧
    tSends (.wbgo (tToL2 .WbGo)) (tL2 { L2Line.empty with evb := some (.M, false, true) }) [(.PutCancel, tTheSlice)] = true ∧
    tSends (.wbgo { tToHome .WbGo with src := tTheHome, dst := tTheSlice }) (tDir0 { DirLine.empty with evb := some false })
      [(.WbData, tTheHome)] = true := by decide +kernel

theorem test_eviction_ends : ((tRun (.wback (tToL2 .WbAck)) (tL2 { L2Line.empty with evb := some (.E, true, false) })).l2line 5 0x40).evb = none ∧
    ((tRun (.wbstale (tToL2 .WbStale)) (tL2 { L2Line.empty with evb := some (.E, false, false) })).l2line 5 0x40).evb = none ∧
    ((tRun (.wbdata (tToSlice .WbData)) (tDir0 { tWay .clean with st := .X 5, busy := some (tToSlice .PutM, .wbdata) })).dline 0x40) = tWay .dirty ∧
    ((tRun (.putcancel (tToSlice .PutCancel)) (tDir0 { tWay .clean with busy := some (tToSlice .PutM, .wbdata) })).dline 0x40) = tWay .clean ∧
    ((tRun (.wbdata (tToHome .WbData)) tMem0).home 0).rwait = [tToHome .HPut] := by decide +kernel

theorem test_snoops : (let s := tL2 { L2Line.empty with st := .M }
      tSends (.snps { tToL2 .SnpS with src := physAgt 8 }) s [(.Data, physAgt 8), (.SnpData, tTheSlice)] = true ∧
      ((tRun (.snps { tToL2 .SnpS with src := physAgt 8 }) s).l2line 5 0x40).st = .S ∧
      tSends (.snpx (tToL2 .SnpX)) s [(.SnpData, tTheSlice)] = true ∧ ((tRun (.snpx (tToL2 .SnpX)) s).l2line 5 0x40).st = .I ∧
      tSends (.inv (tToL2 .Inv)) s [(.InvAck, tTheSlice)] = true) ∧
    tSends (.snps (tToL2 .SnpS)) tMem0 [(.SnpRsp, tTheSlice)] = true := by decide +kernel

/-- The slice's record of line 0x40 in a transaction for the request of physical core 8. -/
def tBusy (op : Op) (ph : Phase) (d : DirLine) : State :=
  tDir0 { d with busy := some ({ op := op, src := physAgt 8, dst := tTheSlice, txid := 3, addr := 0x1000, data := 0xEE }, ph) }

theorem test_snoop_answers : ((tRun (.snpdata { tToSlice .SnpData with dirty := true, grant := 1 }) (tBusy .RdS .snoop { tWay .clean with st := .X 5 })).dline 0x40) =
      { tWay .dirty with st := .S [5, 8] } ∧
    ((tRun (.snpdata (tToSlice .SnpData)) (tBusy .RdX .snoop { tWay .clean with st := .X 5 })).dline 0x40) = { tWay .clean with st := .X 8 } ∧
    ((tRun (.snprsp (tToSlice .SnpRsp)) (tBusy .RdS .snoop { tWay .clean with st := .X 5 })).dline 0x40) = { tWay .clean with st := .X 8 } ∧
    tSends (.snprsp (tToSlice .SnpRsp)) (tBusy .RdS .snoop { tWay .clean with st := .X 5 }) [(.Data, physAgt 8)] = true := by decide +kernel

theorem test_inv_acks : ((tRun (.invack (tToSlice .InvAck)) (tBusy .RdZ (.acks 2) (tWay .clean))).dline 0x40).busy.map (fun b => b.2) = some (Phase.acks 1) ∧
    tSends (.invack (tToSlice .InvAck)) (tBusy .RdZ (.acks 1) (tWay .clean)) [(.Grant, physAgt 8)] = true ∧
    (tRun (.invack (tToSlice .InvAck)) (tBusy .WrF (.acks 1) (tWay .clean))).rdLine 0x40 = 0xEE := by decide +kernel

/-- The same, where the slice has made core 5's L2 the owner. -/
def tGiven (x : L2Line) : State := (tL2 x).setDline 0x40 { DirLine.empty with st := .X 5 }
theorem test_grants : (let y := (tRun (.data { tToL2 .Data with grant := 2 }) (tGiven { L2Line.empty with miss := some .RdS })).l2line 5 0x40;
      y.st = .E ∧ y.miss = none) ∧
    ((tRun (.grant { tToL2 .Grant with grant := 3 }) (tGiven { L2Line.empty with st := .S, miss := some .Upg })).l2line 5 0x40).st = .M ∧
    ((tRun (.data { tToL2 .Data with status := 1 }) (tGiven { L2Line.empty with miss := some .RdS })).l2line 5 0x40) = { L2Line.empty with err := 1 } ∧
    tSends (.data (tToSlice .Data)) (tBusy .RdS .home DirLine.empty) [(.Data, physAgt 8)] = true ∧
    ((tRun (.data (tToSlice .Data)) (tBusy .RdS .home DirLine.empty)).dline 0x40) = { tWay .clean with st := .X 8 } ∧
    tSends (.cmp (tToSlice .Cmp)) (tBusy .WrF .home DirLine.empty) [(.Cmp, physAgt 8)] = true := by decide +kernel

theorem test_grant_premises : let s := tGiven { L2Line.empty with miss := some .RdS }
    let p := { tToL2 .Data with grant := 2 }
    s.l2Want p = .E ∧ s.Open p.dst ∧ (s.l2Ways 5).any (fun w => !(s.l2Mates 5 0x40).any (fun e => decide (e.2.wn = w))) = true ∧
    (s.l3Ways (s.sliceOf 0x40)).find? (fun i => !(s.setMates 0x40).any (fun e => decide (e.2.wn = i))) = some 0 ∧
    ({ s with net := [p] } : State).snpWaits 5 0x40 = true ∧ (tL2 { L2Line.empty with st := .M }).snpWaits 5 0x40 = false :=
  ⟨by decide +kernel, ⟨by decide +kernel, by decide +kernel, by decide +kernel⟩, by decide +kernel, by decide +kernel, by decide +kernel,
    by decide +kernel⟩

/-- An L2 that waits for a far atomic's answer. -/
def tAsked : State := { tMem0.modCore 5 (fun k => { k with far := some { pa := 0x1000, size := 8, ans := none, tr := [], marks := [] } }) with
  reqs := [(txKey (physAgt 5) 9, some (tToSlice .FAtom))], outst := [(txKey (physAgt 5) 9, true)] }
theorem test_atomic_answer : ((tRun (.data { tToL2 .Data with data := 0x1234 }) tAsked).core 5).far.bind (fun f => f.ans) = some (0, false, 0x1234) := by
  decide +kernel

/-- tMem0 with the remap entry of frame 0 in the remap cache. -/
def tHit : State := tMem0.rtouch 0

theorem test_home_requests : tSends (.hrd { tToHome .HRd with dst := tMem0.homeAgt 0x200000 }) tMem0 [(.HRd, tTheHome)] = true ∧
    ((tRun (.hrd (tToHome .HRd)) tMem0).home 0).rwait = [tToHome .HRd] ∧
    tStatus (.hrd (tToHome .HRd)) ({ tMem0 with remap := [] }.rtouch 0) = some 1 ∧
    tStatus (.hatom (tToHome .HAtom)) (tMem0.modHome 0 (fun h => { h with fenced := true })) = some 3 ∧
    ((tRun (.hrd (tToHome .HRd)) tHit).nch 0).reads.length = 1 := by decide +kernel

theorem test_home_writes : (tRun (.hwrf (tToHome .HWrF)) tHit).rdLine 0x40 = 0xCD ∧ tStatus (.hwrf (tToHome .HWrF)) tHit = some 0 ∧
    (tRun (.hwrp { tToHome .HWrP with data := 0x5500 }) tHit).rdN 0x1000 2 = 0x5580 ∧ tSends (.hwrp (tToHome .HWrP)) tHit [(.Cmp, tTheSlice)] = true := by
  decide +kernel


/-- A side-effect access of 2^k bytes at byte o of a line, the value in its place. -/
def tSide (op : Op) (a o k v : Nat) : Pkt :=
  { op := op, src := physAgt 5, dst := ⟨540, 0⟩, txid := 4, addr := a
    data := BitVec.ofNat 512 (k * 2 ^ 134 + o * 2 ^ 128 + v * 2 ^ (8 * (o % 16))) }

theorem test_side_effects : (let t := tRun (.serd (tSide .SeRd (rasBase + 0x100000) 0x18 3 0) wq) tMem0;
      t.net.map (fun x => (x.op, x.status, x.data)) = [(.Data, 0, 0x100200000000000000000)]) ∧
    (let t := tRun (.sewr (tSide .SeWr (rasBase + 0x100000) 0x18 3 0x705) wq) tMem0;
      t.rdCsr (rasBase + 0x100018) = 0x705 ∧ t.net.map (fun x => (x.op, x.status)) = [(.Cmp, 0)]) ∧
    (let t := tRun (.sewr (tSide .SeWr (rasBase + 0x100000) 0x18 3 0x700) wq) tMem0;
      t.rdCsr (rasBase + 0x100018) = 0x10020 ∧ (t.rejOf 579).total = 1) := by decide +kernel

theorem test_msiwr : let p := tSide .MsiWr 0xF00FE00005000 0 2 511
    let t := tRun (.msiwr p) tMem0
    seAddr p = 0xF00FE00005000 ∧ tMem0.lcState 5 = 1 ∧ bitB ((t.core 5).srv 0x107) 63 = true ∧
    t.net.map (fun x => (x.op, x.status)) = [(.Cmp, 0)] := by decide +kernel

theorem test_port_requests : tStatus (.prd (tPrd .PRd)) (tPort 1 0) = some 5 ∧ tStatus (.patom (tPrd .PAtom)) (tPort 1 5) = some 5 ∧
    ((tRun (.prd (tPrd .PRd)) (tPort 1 3)).port 3).wait = [(tPrd .PRd, false)] ∧
    ((tRun (.pwrf (tPrd .PWrF)) (tPort 1 2)).port 3).out.map (fun r => (r.tag, r.pkt)) = [(0, tPrd .PWrF)] ∧
    ((tRun (.pwrp (tPrd .PWrP)) (tPort 1 2)).port 3).out.map (fun r => r.pkt) = [tPrd .PWrP] ∧
    agtPort (portAgt 3) = 3 ∧ (tPort 1 2).mustWait 3 (tPrd .PRd) false = false ∧ (tPort 1 3).mustWait 3 (tPrd .PRd) false = true := by
  decide +kernel

/-- ECAM: in segment 0, bus 1 names nothing and device 8 is a data engine. -/
def tEcam (op : Op) (seg o : Nat) : Pkt := tSide op (0x8000000000000 + seg * 0x10000000 + o) 0 2 0

theorem test_config_requests : tMem0.cfgTarget 0 0x100000 = .absent ∧ tMem0.cfgTarget 0 0x40000 = .engine 0 0 ∧ cfgOk wq 0 4 = true ∧
    (tRun (.configRequest (tEcam .SeRd 0 0x100000) wq) tMem0).net.map (fun x => (x.status, x.data)) = [(0, 0xFFFFFFFF)] ∧
    (tRun (.configRequest (tEcam .SeWr 0 0x100000) wq) tMem0).net.map (fun x => (x.op, x.status)) = [(.Cmp, 0)] ∧
    (tRun (.configRequest (tEcam .SeRd 0 0x40000) wq) tMem0).net.map (fun x => (x.status, x.data)) =
      [(0, BitVec.ofNat 512 (tMem0.cfgDword 64 0).toNat)] := by decide +kernel

/-! ## The mesh -/

/-- A packet at router 40 for router 41, whose entry there is east (2). -/
def tGo : Pkt := { op := .RdS, src := ⟨40, 0⟩, dst := ⟨41, 2⟩, txid := 1, addr := 0x1000 }
def tCtl (bit : Nat) : State := State.reset.putFlag (meshCtl 40) bit true
/-- The entry of router 40 for router 41 set to v under an epoch. -/
def tRt (s : State) (e : Bool) (v : Nat) : State := s.putFld (meshRt 40 (if e then 1 else 0) 0 2) 39 36 v
def tErr (t : State) : Nat × Nat := (t.fld (meshErr 40) 15 0, t.fld (meshErr 40) 31 16)

/-- A state where the packet has been injected, and the buffer at router 41, from the west, that it goes to. -/
def tInj : State := { State.reset with net := [tGo] }
def tNextBuf (p : Pkt) : List Buf := [{ router := 41, input := 4, pkt := p, age := 0 }]

theorem test_router_moves : State.reset.routeOf 40 false false 41 = (2, false) ∧
    (tRun (.packetAtRouter 40 tGo .clean) tInj).net = [] ∧ (tRun (.packetAtRouter 40 tGo .clean) tInj).bufs = tNextBuf tGo ∧
    (let t := tRun (.packetAtRouter 40 tGo .corrected) tInj; t.bufs = tNextBuf tGo ∧ tErr t = (1, 0)) ∧
    (let t := tRun (.packetAtRouter 40 tGo .dataError) tInj; t.bufs = tNextBuf { tGo with poison := true } ∧ tErr t = (0, 1)) ∧
    (let t := tRun (.packetAtRouter 40 tGo .headerError) tInj; t.net = [] ∧ t.bufs = [] ∧ tErr t = (0, 1)) ∧
    (let t := tRun (.packetAtRouter 40 { tGo with op := .unlisted 60 } .clean) State.reset; t.bufs = [] ∧ tErr t = (0, 1)) ∧
    (tRun (.packetAtRouter 40 tGo .clean) (tCtl 2)).bufs = [] := by decide +kernel

theorem test_router_arrival : (let t := tRun (.packetAtRouter 41 tGo .clean) { State.reset with bufs := tNextBuf tGo }
      t.bufs = [] ∧ t.arrived = [State.reset.arrive tGo]) ∧ State.reset.mayEnter tGo = true := by decide +kernel

theorem test_router_detours : (tRun (.packetAtRouter 40 tGo .clean) (tRt State.reset false 5)).net.map (fun x => (x.op, x.src, x.dst, x.status)) =
      [(.Data, ⟨40, 7⟩, ⟨40, 0⟩, 3)] ∧
    (let t := tRun (.packetAtRouter 40 { tGo with op := .Data } .clean) (tRt State.reset false 5); t.net = [] ∧ tErr t = (0, 1)) ∧
    (tRun (.packetAtRouter 40 tGo .clean) (tRt (tCtl 4) true 3)).bufs = [{ router := 40, input := 0, pkt := tGo, age := 0 }] ∧
    (let s := (tRt (tCtl 4) true 3).putFlag (routerBase 40 + 0x51800) 41 true
     s.chg 40 41 = true ∧ (tRun (.packetAtRouter 40 tGo .clean) s).bufs.map (fun b => (b.router, b.input, b.pkt)) =
      [(76, 1, { tGo with epoch := true })]) ∧
    (tRt (tCtl 4) true 3).blocked 40 2 = true ∧ (tRt (tCtl 4) true 3).blocked 40 3 = false := by decide +kernel

theorem test_router_leg : (tRt State.reset false 10).routeOf 40 false false 41 = ((State.reset.rtEntry 40 false true 41) % 8, true) := by
  decide +kernel

/-- A table write by the DSE. -/
def tRw (a : Nat) (v : Nat) : Pkt := { op := .RWRITE, src := ⟨540, 0⟩, dst := ⟨40, 7⟩, txid := 2, addr := a, data := BitVec.ofNat 512 v }

theorem test_rwrite : (let t := tRun (.rwrite (tRw (routerBase 40 + 0x51800 + 8 * 8) 7)) State.reset;
      t.rdCsr (routerBase 40 + 0x51840) = 7 ∧ t.net.map (fun x => (x.op, x.dst, x.txid)) = [(.RWACK, ⟨540, 0⟩, 2)]) ∧
    (let t := tRun (.rwrite (tRw (meshRt 40 1 1 35) 0x5555555555555555)) State.reset;
      t.rdCsr (meshRt 40 1 1 35) = 0x5555555555555555 ∧ t.net.map (fun x => x.op) = [.RWACK]) := by decide +kernel

theorem test_acknowledgments : (tRun (.rwack { tGo with op := .RWACK }) { State.reset with outst := [(txKey ⟨41, 2⟩ 1, true)] }).outst = [] ∧
    (tRun (.mark { tGo with op := .Mark 4 }) State.reset).net.map (fun x => (x.op, x.src, x.dst)) = [(.MARK_ACK, ⟨41, 2⟩, ⟨40, 0⟩)] ∧
    (tRun (.back { tGo with op := .BACK, data := 4096 }) { State.reset with bcasts := [⟨4096, none, .redir, 540, [], [], [], true, 0⟩] }).bcasts = [] := by
  decide +kernel

/-- The last mark of class 0 of a port with a packet held for it. -/
def tHeld : State := { State.reset with marks := [(8 * (2 * 41 + 1), 1)], held := [(2 * 41 + 1, tGo)] }
theorem test_mark_ack : let t := tRun (.markAck { tGo with op := .MARK_ACK, addr := 0 }) tHeld;
    t.marks = [] ∧ t.held = [] ∧ t.net = [{ tGo with epoch := true }] ∧ portOfAgt ⟨41, 2⟩ = 1 ∧
    ((tRun (.markAck { tGo with op := .MARK_ACK, addr := 0 }) { tHeld with marks := [(8 * (2 * 41 + 1), 2)] }).held = tHeld.held) := by
  decide +kernel

theorem test_release_count : (let t := tRun .release tHeld
      t.held = [] ∧ t.net = [{ tGo with epoch := true }]) ∧
    (tRun (.countQuery 0) tHeld).net.map (fun x => (x.op, x.dst, x.addr)) = [(.BACK, ⟨540, 0⟩, 1)] ∧ tHeld.bcasts = [] ∧
    tHeld.oldCount = 1 ∧ tSame .commit tHeld = true ∧ State.reset.flag (meshCtl 0) 1 = false ∧ State.reset.oldCount = 0 ∧
    (State.reset.putFlag (meshCtl 0) 1 true).flag (meshCtl 0) 1 = true := by decide +kernel

theorem test_router_out : let t := tRun (.routerOutOfService 40) State.reset
    t.flag (meshCtl 40) 2 = true ∧ t.flag (meshCtl 41) 6 = true ∧ t.flag (meshCtl 39) 4 = true ∧ t.flag (meshCtl 4) 5 = true ∧
    t.flag (meshCtl 76) 3 = true := by decide +kernel

theorem test_fence_proxy : let f := tRun (.meshFence 40 1) { State.reset with outst := [(txKey ⟨40, 1⟩ 5, true)] }
    let p := tRun (.meshProxySet 40 1) f
    f.fenced ⟨40, 1⟩ = true ∧ p.proxied ⟨40, 1⟩ = true ∧ p.outst = [] ∧ p.stale = [(txKey ⟨40, 1⟩ 5, true)] ∧
    (tRun (.meshProxySet 40 1) State.reset).proxied ⟨40, 1⟩ = false ∧ (tRun (.meshProxyClear 40 1) p).proxied ⟨40, 1⟩ = false ∧
    (tRun (.meshFenceClear 40 1) p).fenced ⟨40, 1⟩ = true ∧ (tRun (.meshFenceClear 40 1) f).fenced ⟨40, 1⟩ = false := by decide +kernel

theorem test_rewrites : (tRun (.l3RedirRewrite 15 543 1 true) State.reset).rdCsr (tileBase 0 + 0x40278) = 0x10061F ∧
    (tRun (.homemapRewrite 11 0) State.reset).hostCh 11 = 0 ∧ State.reset.hostCh 11 = 11 ∧
    (let t := tRun (.lcmapRewrite 1023 1087 3) State.reset; t.phys 1023 = 1087 ∧ t.lcState 1023 = 3) ∧
    (let s := (tMem0.putFld (dseBase + 0x10028) 14 12 2).modCore 5 (fun k => { k with heldMsi := [{ slot := none, vec := 511, fwd := false, router := 0, agent := 0, addr := 0 }] })
     let t := tRun (.lcmapRewrite 5 9 1) s
     s.lcState 5 = 2 ∧ t.lcState 5 = 1 ∧ t.phys 5 = 9 ∧ (t.core 5).heldMsi = [] ∧ bitB ((t.core 5).srv 0x107) 63 = true) := by
  decide +kernel

def tBc : State := { tMem0 with bcasts := [⟨4101, some 5, .redir, 541, [4], [], [], false, 0⟩] }

/-- Both cores of tile 2 (router 3) acknowledge; with an origin in row 15 the parent of router 3 is router 39. -/
theorem test_broadcast : let t := tRun (.tlbInvalidationBcast 4101 (.core 5)) tBc
    t.bcasts.map (fun b => (b.acked, b.sent)) = [([4, 5], [3])] ∧
    t.net.map (fun p => (p.op, p.src.router, p.dst, p.addr)) = [(.BACK, 3, ⟨39, 7⟩, 2)] := by decide +kernel

theorem test_back_combined : let t := tRun (.back { op := .BACK, src := ⟨3, 7⟩, dst := ⟨39, 7⟩, txid := 0, addr := 2, data := 4101 }) tBc
    t.bcasts.map (fun b => (b.backs, b.sent)) = [([(3, 2)], [])] := by decide +kernel

/-- A request of physical core 5 for the slice of line 0x40, under way. -/
def tOne : Pkt := { tToSlice .RdS with txid := 3 }
def tOneS : State :=
  { tL2 { L2Line.empty with miss := some .RdS } with
    reqs := [(txKey tOne.src 3, some tOne)], outst := [(txKey tOne.src 3, true)], ctime := 64000000 }

theorem test_sweep_timeout : tSame .sweep tOneS = true ∧ tSame (.requestTimeout tOne) { tOneS with ctime := 63999999 } = true ∧ (let t := tRun (.requestTimeout tOne) tOneS
      (t.l2line 5 0x40).miss = none ∧ t.outst = [] ∧ t.stale = [(txKey tOne.src 3, true)] ∧ t.reports.map (fun f => f.sev) = [3] ∧
      t.reports.map (fun f => (f.unit, f.index)) = [State.timeoutUnit tOne.dst]) ∧
    (let s := { tOneS.putFlag (routerBase tOne.src.router + 0x51808) 3 true with sweepAt := 5 }
     s.swept tOne.src.router tOne.dst.router = true ∧ (tRun .sweep s).stale = [(txKey tOne.src 3, true)]) := by decide +kernel

/-! ## I/O translation and ports -/

/-- Port 3 as a root port with its link up and Bus Master Enable, and its device's read of 8 bytes at 0x1000. -/
def tRoot : State := (tPort 2 2).setCfg 3 0x04 4
def tIn : Inbound := { port := 3, rid := 0x100, tag := 7, kind := .read, addr := 0x1000, len := 8, bytes := [], ep := false, pfx := false, atf := 0 }
def tInW : Inbound := { tIn with kind := .write, len := 2, bytes := [some 0xAA, none] }
def tSent (t : State) : List (List Nat) := (t.port 3).sent

theorem test_inbound : tSame (.inboundRequest tIn) (tPort 2 1) = true ∧ (tRoot.cfgw 3 4).getLsbD 2 = true ∧
    tSent (tRun (.inboundRequest { tIn with pfx := true }) tRoot) = [[2, 0x100, 7, 1, 0]] ∧
    tRoot.dmaRead 0x1000 8 = (0, 0x8700000083828180) ∧
    tSent (tRun (.inboundRequest tIn) tRoot) = [[2, 0x100, 7, 0, 0x8700000083828180]] ∧
    tRoot.dmaStatus 0x40 = 0 ∧ (tRun (.inboundRequest tInW) tRoot).rdN 0x1000 2 = 0x81AA := by decide +kernel

/-- Translation on at die 0, with a cached context whose table at 0x2000 leads to a leaf of a 1 GiB page that gives R alone. -/
def tIot : State := { ((tRoot.putFlag (iotBase 0) 0 true).putFlag (iotBase 0 + 0x100) 0 true).setIot 0 { tlb := [], ctx := [(0, 0x100, [1, 0x2000, 0, 0])], waits := [] } with
  mem := tBytes ++ [(0x2000, 0x03), (0x2001, 0x40), (0x4000, 0x85)] }
def tWaits : State := tIot.setIot 0 { tIot.iot 0 with waits := [tIn] }
/-- The same, with no table there. -/
def tNoTable : State := { tWaits with mem := [] }
def tWalk (s : State) (a : Nat) : Option Nat := match ctxOf [1, 0x2000, 0, 0] with
  | none => none
  | some cx => match (s.engEv 0 7 256 4).ioXlate 0 cx 0x1000 a with
    | .ok r => some r.1
    | .error b => some (2 ^ 64 + b.status)

theorem test_io_walk : ((tRun (.inboundRequest tIn) tIot).iot 0).waits = [tIn] ∧ tWalk tWaits 1 = some 0x1000 ∧
    (let t := tRun (.ioWalkDone 0 0) tWaits;
      (t.iot 0).waits = [] ∧ tSent t = [[2, 0x100, 7, 0, 0x8700000083828180]]) ∧
    tWalk tNoTable 1 = some (2 ^ 64 + 0x30) ∧ (tRun (.ioWalkDone 0 0) tNoTable).fld (iotBase 0 + 0x300) 3 0 = 1 := by decide +kernel

theorem test_context_inv : tIot.csrAccepts (iotBase 0 + 0x200) true wq = true ∧
    ((tRun (.iotCtxinv 0 0x100100 wq) tIot).iot 0).ctx = [] ∧ ((tRun (.iotCtxinv 0 0x110100 wq) tIot).iot 0).ctx.length = 1 ∧
    ((tRun (.iotCtxinv 0 0x180000 wq) tIot).iot 0).ctx = [] := by decide +kernel

/-- Port 3 in training, its mode m with TGT_SPEED 6 and all lanes. -/
def tTrain (m : Nat) : State := (tPort m 1).putFld (prtBase 3) 4 2 6
theorem test_link_trained : (let t := tRun (.linkTrained 3 { wt with speed := 5, width := 4 }) (tTrain 1)
      t.portLink 3 = 2 ∧ t.fld (prtBase 3 + 8) 6 4 = 5 ∧ t.fld (prtBase 3 + 8) 10 7 = 4) ∧
    (tRun (.linkTrained 3 { wt with speed := 4, width := 4 }) (tTrain 1)).portLink 3 = 5 ∧
    (let t := tRun (.linkTrained 3 { wt with speed := 6, width := 8, capacity := 2 ^ 30 }) ((tTrain 1).setPort 3 { Port.reset with adding := true });
      (t.port 3).adding = false ∧ t.layout.portFrames 3 = 512) := by decide +kernel

/-- Port 3 in mode m, UP, with a request outstanding under tag 2. -/
def tOutS (m : Nat) (op : Op) (cfg : Bool) : State := (tPort m 2).setPort 3 { Port.reset with
  out := [{ pkt := { tPrd op with data := 3 * 2 ^ 134 }, tag := 2, phase := 0, cfg := cfg, carry := none, rid := 0, rtag := 0, tr := none, marks := [] }] }

theorem test_links : (let t := tRun (.linkDown 3) (tOutS 1 .PRd false)
      t.portLink 3 = 0 ∧ (t.port 3).out = [] ∧ t.net.map (fun x => x.status) = [5]) ∧
    (tRun (.linkDown 3) ((tOutS 2 .SeRd false).putFlag (prtBase 3) 7 true)).portLink 3 = 0 ∧
    (let t := tRun (.linkRecovery 3) ((tPort 1 2).putFld (prtBase 3 + 8) 36 21 65535); t.portLink 3 = 2 ∧ t.fld (prtBase 3 + 8) 36 21 = 65535) := by
  decide +kernel

theorem test_cxl_response : (let t := tRun (.cxlResponse 3 2 ⟨false, []⟩) (tOutS 1 .PRd false)
      (t.port 3).out = [] ∧ t.net.map (fun x => (x.op, x.dst, x.status)) = [(.Data, ⟨288, 0⟩, 0)] ∧ t.net.map (fun x => x.data) = [BitVec.ofNat 512 (tMem0.rdN 0x1000 64)]) ∧
    (let t := tRun (.memTimeout 3 2) (tOutS 1 .PRd false); t.net.map (fun x => x.status) = [4] ∧ (t.port 3).quar = [2]) := by decide +kernel

theorem test_completions : (tRun (.completionReceived 3 2 ⟨.sc, false⟩) (tOutS 2 .SeRd false)).net.map (fun x => x.status) = [0] ∧
    (tRun (.completionReceived 3 2 ⟨.ur, false⟩) (tOutS 2 .SeRd false)).net.map (fun x => x.status) = [5] ∧
    (tRun (.completionReceived 3 9 ⟨.sc, false⟩) (tOutS 2 .SeRd false)).fld (prtBase 3 + 0xF8) 3 0 = 1 ∧
    (let t := tRun (.cplTimeout 3 2) (tOutS 2 .SeRd false); t.net.map (fun x => x.status) = [4] ∧ (t.port 3).quar = [2]) ∧
    (tRun (.rrsExhausted 3 2) (tOutS 2 .SeRd true)).net.map (fun x => x.status) = [5] := by decide +kernel

theorem test_dpc : let s := (tOutS 2 .SeRd false).setCfg 3 0x1C4 0x10000
    let t := tRun (.dpcTrigger 3 true) s
    t.portLink 3 = 4 ∧ (t.cfgw 3 0x1C8).getLsbD 0 = true ∧ (t.port 3).out = [] ∧ tSame (.dpcTrigger 3 false) s = true ∧
    (tRun (.dpcClear 3) t).portLink 3 = 1 ∧ ((tRun (.dpcClear 3) t).cfgw 3 0x1C8).getLsbD 0 = false := by decide +kernel

theorem test_slot_power : (let t := tRun (.slotPowerOn 3) (tPort 1 0)
      t.port 3 = { Port.reset with power := true } ∧ tSame (.perstDeassert 3) t = true ∧
      (let u := tRun (.perstDeassert 3) { t with ctime := 100000000 }; u.portLink 3 = 1 ∧ (u.port 3).perst = false)) ∧
    (let t := tRun (.slotPowerOff 3) ((tPort 1 2).setPort 3 { Port.reset with power := true, perst := false });
      (t.port 3).power = false ∧ (t.port 3).perst = true ∧ t.portLink 3 = 0) ∧
    tSame (.slotPowerOff 3) ({ tPort 1 2 with layout := { (tPort 1 2).layout with added := [(3, 512)] } }.setPort 3 { Port.reset with power := true }) = true := by
  decide +kernel

theorem test_presence : let s := (tPort 1 2).setPort 3 { Port.reset with power := true, perst := false, present := true }
    let t := tRun (.presenceChange 3 false) s
    (t.port 3).present = false ∧ t.portLink 3 = 0 ∧ ((tRun (.presenceChange 3 true) (tPort 1 0)).port 3).present = true ∧
    ((tRun (.hotplugFrame 0 []) (s.setPort 3 { Port.reset with btn := 3, flt := 2 })).port 3) = Port.reset := by decide +kernel

theorem test_slot_grant : let s := tMem0.setToll 8 { queue := [], held := [], slotQ := [3, 4], slots := [] }
    (tRun (.transitionSlotGrant 3) s).toll 8 = { queue := [], held := [], slotQ := [4], slots := [3] } := by decide +kernel

/-- The staged words of window 7 of port 3, which name an address range of port 4. -/
def tWin : State := (((tPort 2 2).putFld (prtBase 4) 1 0 2).wrCsr (portBase 3 + 0x206E8) 0x2040000000000).wrCsr (portBase 3 + 0x206F0) 0x2040000000000
theorem test_peer_window : let a := portBase 3 + 0x20000 + 0x600 + 0xE0
    let t := tRun (.peerWindowWrite 3 7 0x21 wq) tWin
    tWin.csrAccepts a true wq = true ∧ tWin.winBad 3 7 (tWin.winOf a 0x21) = false ∧
    Map.get none (t.port 3).wins 7 = some { staging := false, readEn := false, tgt := 4, base := 0x2040000000000, limit := 0x2040000000FFF, sram := 0 } ∧
    Map.get none ((tRun (.peerWindowWrite 3 7 0 wq) t).port 3).wins 7 = none := by decide +kernel

/-! ## Data engines -/

def wArgs : List Nat := [0, 0, 0, 0x8004, 0x9004, 0xA004, 2 ^ 19 + 5 * 2 ^ 11 + 2 * 2 ^ 31]
/-- Engine 0 with Bus Master Enable and BAR2 at its assigned base. -/
def tEng0 : State := ((tMem0.setCfg 64 0x04 6).setCfg 64 0x18 0xEC00000).setCfg 64 0x1C 0xF0040
/-- Engine 0 with instance 0 after CREATE, its rings at 0x8000, 0x9000 and 0xA000. -/
def tEng : State := ((tEng0.setInst 0 0 { Inst.reset with args := wArgs }).instFresh 0 0).wrCsr (shareA 0 0) 0x500
/-- Instance 0 changed. -/
def tI (f : Inst → Inst) : State := tEng.modInst 0 0 f
/-- A job of instance 0 on unit 16, which holds its grant. -/
def tOn (s : State) (j : Job) : State := s.setUnit 0 16 { job := some j, grant := true, slow := false, idleAt := 0, retired := false }
def tJ (desc : List Word) : Job := { inst := 0, slot := 3, desc := desc, pos := 0, check := 0, passed := 0, res := none }
/-- FILL of 3 bytes at 0x1000; COPY and COMPARE of 2 bytes of 0x1000 and 0x1040. -/
def wFill : List Word := [0x3, 0x0706050403020100, 0x300000000, 0x1000, 0, 0, 0, 0]
def wCopy : List Word := [0x1, 0x1000, 0x200000002, 0x1040, 0, 0, 0, 0]
def wCmp : List Word := [0x5, 0x1000, 0x200000002, 0x1040, 0, 0, 0, 0]
/-- How the job of unit u ended: its status, bytes read and written, and detail. -/
def tRes (u : Nat) (t : State) : Option (Nat × Nat × Nat × Nat) :=
  (((t.eng 0).unit u).job.bind (fun j => j.res)).map (fun r => (r.status, r.srcUsed, r.dstUsed, r.detail))

theorem test_sq_tail : tEng.csrAccepts (dbA 0 0) true wq = true ∧ tEng.instSt 0 0 = 1 ∧
    (tRun (.dbSqTail 0 0 15 wq) tEng).fld (dbA 0 0) 15 0 = 15 ∧ ((tRun (.dbSqTail 0 0 16 wq) tEng).rejOf 558).total = 1 ∧
    (tRun (.dbSqTail 0 0 15 wq) (tEng.setInstSt 0 0 2)).fld (dbA 0 0) 15 0 = 0 := by decide +kernel
theorem test_cq_head : let s := tEng.putFld (dbA 0 0 + 0x18) 37 22 3
    (tRun (.dbCqHead 0 0 3 wq) s).fld (dbA 0 0 + 8) 15 0 = 3 ∧ badHead 16 3 0 3 = false ∧
    s.csrAccepts (dbA 0 0 + 8) true wq = true := by decide +kernel

/-- A descriptor in slot 0, its PHASE 1, under a tail of 1. -/
def tSq : State := { tEng.putFld (dbA 0 0) 15 0 1 with mem := tBytes ++ [(0x8000, 3), (0x8014, 3)] }
theorem test_descriptor : (let t := tRun (.descriptorRead 0 0) tSq
      (t.inst 0 0).ready.map (fun j => (j.slot, j.desc)) = [(0, [3, 0, 0x300000000, 0, 0, 0, 0, 0])] ∧ t.fld (dbA 0 0 + 0x18) 20 5 = 1) ∧
    (let t := tRun (.descriptorRetry 0 0) (tSq.modInst 0 0 (fun x => { x with mis := true })); (t.inst 0 0).ready.length = 1 ∧ (t.inst 0 0).mis = false) ∧
    (let t := tRun (.descriptorRead 0 0) { tSq with mem := tBytes }; (t.inst 0 0).mis = true ∧ (t.inst 0 0).ready = []) ∧
    (let t := tRun (.descriptorRead 0 0) { tSq with remap := [] }; (t.inst 0 0).stop = true ∧ t.fld (dbA 0 0 + 0x18) 46 39 = 10) := by decide +kernel

theorem test_dispatch : let s := (tI (fun x => { x with ready := [tJ wFill] })).wrCsr (shareA 0 0) 0x505
    s.pickInst 0 3 = some 0 ∧ s.nextJob 0 0 3 = some (tJ wFill, false) ∧ (tJ wFill).bad = none ∧
    (let t := tRun (.dispatch 0 16) s; ((t.eng 0).unit 16).job = some (tJ wFill) ∧ (t.inst 0 0).ready = [] ∧ (t.toll 8).queue = [(.unit 0 16, 0)]) ∧
    (tJ [0x80000001, 0, 0, 0, 0, 0, 0, 0]).bad.isSome = true ∧
    (tRes 16 (tRun (.dispatch 0 16) ((tI (fun x => { x with ready := [tJ [0x80000001, 0, 0, 0, 0, 0, 0, 0]] })).wrCsr (shareA 0 0) 0x505))).map (fun r => r.1) = some 4 ∧
    tSame (.dispatch 0 16) tEng = true := by decide +kernel

theorem test_block_boundary : (let t := tRun (.blockBoundary 0 16) (tOn tEng (tJ wFill))
      ((t.eng 0).unit 16).job = none ∧ (t.inst 0 0).susp = [tJ wFill]) ∧
    tSame (.blockBoundary 0 16) (tOn ((tI (fun x => { x with budgets := [0, 0, 0, 1] })).wrCsr (shareA 0 0) 0x505) (tJ wFill)) = true := by
  decide +kernel

theorem test_operations : (let t := tRun (.fill 0 16) (tOn tEng (tJ wFill)); tRes 16 t = some (0, 0, 3, 0) ∧ t.rdN 0x1000 4 = 0x83020100) ∧
    (let t := tRun (.copy 0 16) (tOn tEng (tJ wCopy)); tRes 16 t = some (0, 2, 2, 0) ∧ t.rdN 0x1040 3 = 0x8180) ∧
    tRes 16 (tRun (.copy 0 16) (tOn (tEng.setPoison 0x40 true) (tJ wCopy))) = some (9, 0, 0, 0) := by decide +kernel

theorem test_compare : tRes 16 (tRun (.compare 0 16) (tOn tEng (tJ wCmp))) = some (3, 0, 0, 0) ∧
    tRes 16 (tRun (.compare 0 16) (tOn { tEng with mem := [(0x1000, 7), (0x1040, 7)] } (tJ wCmp))) = some (0, 2, 0, 0) ∧
    tRes 16 (tRun (.compare 0 16) (tOn { tEng with mem := [(0x1000, 7), (0x1001, 1), (0x1040, 7)] } (tJ wCmp))) = some (3, 1, 0, 1) ∧
    tSame (.compare 0 16) (tOn tEng (tJ wFill)) = true := by decide +kernel

theorem test_operand_error : tRes 16 (tRun (.compare 0 16) (tOn tEng (tJ [0x5, 0x1000, 0x300000002, 0x1040, 0, 0, 0, 0]))) = some (4, 0, 0, 2) ∧
    ((tOn tEng (tJ wCmp)).operands 0 (tJ [0x5, 0x1000, 0x300000002, 0x1040, 0, 0, 0, 0])).1.toOption = none := by decide +kernel

theorem test_job_end : let j := { tJ wFill with res := some { status := 0, srcUsed := 0, dstUsed := 3, check := 5, detail := 0 } }
    (let t := tRun (.jobEnd 0 16) (tOn (tEng.setCfg 64 0x04 0) j)
     ((t.eng 0).unit 16).job = none ∧ (t.inst 0 0).held = [[0x30000, 0x300000000, 5, 0, 0]]) ∧
    (let t := tRun (.jobEnd 0 16) (tOn tEng j);
      (t.inst 0 0).held = [] ∧ t.rdN 0x9000 16 = 0x3000000000000000000030001 ∧ t.fld (dbA 0 0 + 0x18) 37 22 = 1) ∧
    tSame (.jobEnd 0 16) (tOn tEng (tJ wFill)) = true := by decide +kernel

theorem test_round_start : (let t := tRun (.roundStart 0) { tEng with ctime := 64000 }
      t.fld (shareA 0 0) 7 0 = 5 ∧ t.rdCsr (engBase 0 + 0x800008) = 1) ∧ tSame (.roundStart 0) { tEng with ctime := 63999 } = true ∧
    (let t := tRun (.roundStart 0) { (tI (fun x => { x with budgets := [7, -7, 0, 0] })).wrCsr (shareA 0 0) 0 with ctime := 64000 }
     (t.inst 0 0).budget 0 = 0 ∧ (t.inst 0 0).budget 1 = -7) := by decide +kernel

theorem test_unit_idle : let s := tEng.setUnit 0 17 { job := none, grant := true, slow := false, idleAt := 0, retired := false }
    tSame (.unitIdle 0 17) { s with ctime := 9999 } = true ∧
    ((((tRun (.unitIdle 0 17) { s with ctime := 10000 }).eng 0).unit 17).grant) = false := by decide +kernel

/-- The mailbox with a command for instance n and its arguments. -/
def tMbx (s : State) (op n : Nat) (a : List Nat) : State :=
  (a.zipIdx.foldl (fun (s : State) x => s.wrCsr (mbxA 0 + 8 + 8 * x.2) (BitVec.ofNat 64 x.1)) s).wrCsr (mbxA 0) (BitVec.ofNat 64 (op + n * 2 ^ 8 + 2 ^ 16))
def tEnd (t : State) : Nat × Bool := (t.fld (mbxA 0 + 0x48) 2 0, t.flag (mbxA 0) 16)

theorem test_create : (let t := tRun (.create 0 255) (tMbx tEng 1 255 wArgs)
      tEnd t = (0, false) ∧ t.instSt 0 255 = 1 ∧ (t.inst 0 255).args = wArgs ∧ t.stgOwner 0 1 = 256 ∧ t.fld (shareA 0 255) 15 8 = 5) ∧
    tEnd (tRun (.create 0 255) (tMbx tEng 1 255 (wArgs.take 6))) = (3, false) ∧
    tEnd (tRun (.create 0 255) (tMbx (tEng.stgClaim 0 1 1 1) 1 255 wArgs)) = (4, false) ∧
    tEnd (tRun (.create 0 0) (tMbx tEng 1 0 wArgs)) = (2, false) := by decide +kernel

theorem test_destroy_share : (let t := tRun (.destroy 0 0) (tMbx (tEng.stgClaim 0 1 511 1) 2 0 []);
      tEnd t = (0, false) ∧ t.instSt 0 0 = 0 ∧ t.inst 0 0 = Inst.reset ∧ t.stgOwner 0 511 = 0) ∧
    (let t := tRun (.setShare 0 0) (tMbx tEng 3 0 [255]); tEnd t = (0, false) ∧ t.fld (shareA 0 0) 15 8 = 255) ∧
    tEnd (tRun (.setShare 0 0) (tMbx tEng 3 0 [256])) = (3, false) ∧ tEnd (tRun (.setShare 0 1) (tMbx tEng 3 1 [0])) = (2, false) := by
  decide +kernel

theorem test_mbx_reset : tEnd (tRun (.resetDrain 0 0) (tMbx tEng 4 0 [0])) = (0, false) ∧
    (let t := tRun (.resetDrain 0 0) (tMbx (tI (fun x => { x with ready := [tJ wFill] })) 4 0 [0]); t.instSt 0 0 = 2 ∧ t.flag (mbxA 0) 16 = true) ∧
    (let t := tRun (.resetSquash 0 0) (tMbx (tI (fun x => { x with ready := [tJ wFill] })) 4 0 [1]); tEnd t = (0, false) ∧ (t.inst 0 0).ready = []) := by
  decide +kernel

theorem test_freeze : (let t := tRun (.freeze 0 0) (tMbx (tOn tEng (tJ wFill)) 5 0 []);
      tEnd t = (0, false) ∧ t.instSt 0 0 = 4 ∧ ((t.eng 0).unit 16).job = none ∧ (t.inst 0 0).susp = [tJ wFill] ∧
      (let u := tRun (.unfreeze 0 0) (tMbx t 6 0 []); tEnd u = (0, false) ∧ u.instSt 0 0 = 1)) ∧
    tEnd (tRun (.unfreeze 0 0) (tMbx tEng 6 0 [])) = (2, false) ∧
    ((tRun (.mbxQuery 0 0) (tMbx tEng 9 0 [])).mbxArg 0 6).toNat = wArgs.getD 6 0 := by decide +kernel

theorem test_save : tEnd (tRun (.save 0 0) (tMbx (tEng.setInstSt 0 0 4) 7 0 [0x1000000000000])) = (6, false) ∧
    tEnd (tRun (.save 0 0) (tMbx tEng 7 0 [0])) = (2, false) := by decide +kernel

theorem test_image_readable : let s := tMbx tEng 8 9 [0]
    (spanN 0 64).all (fun l => decide (s.dmaStatus l = 0) && !s.poisoned l) = true ∧ s.instSt 0 9 = 0 := by decide +kernel

theorem test_bus_master : let t := tRun (.busMasterEnableClear 0) (tOn tEng (tJ wFill))
    (t.cfgw 64 4).getLsbD 2 = false ∧ ((t.eng 0).unit 16).job = none ∧ (t.inst 0 0).held.map (fun r => r.getD 0 0) = [0x30C00] := by
  decide +kernel

theorem test_bus_master_set : (List.range 32).all (fun w => decide (tMem0.rdCsr (engBase 0 + 0x908000 + 8 * w) = 0)) = true ∧
    (List.range 256).all (fun m => decide (tMem0.instSt 0 m = 0)) = true := by decide +kernel

/-- Engine 0 in a function reset. -/
def tFlr : State := tEng.setCfg 64 0x68 0x200000
theorem test_reset_done : tSame (.d3hotEntry 0) tFlr = true ∧ tSame (.initiateFunctionLevelReset 0) tFlr = true ∧
    ((tRun (.functionResetDone 0) tFlr).cfgw 64 0x68).getLsbD 21 = false ∧ agtCount tFlr.outst (engAgt 0) = 0 ∧
    (tRun (.functionResetSquash 0) { tFlr with outst := [(txKey (engAgt 0) 1, true)], ctime := 900000 }).outst = [] ∧
    tSame (.functionResetDone 0) tEng = true := by decide +kernel

theorem test_d3hot : ((tRun (.d3hotEntry 0) tEng).cfgw 64 0x44).toNat % 4 = 3 := by decide +kernel

/-- The bytes of abcabcabc in a ZLIB stream, and of twenty letters a and of a run of three letters in Zstandard frames: outputs of the reference programs of
those formats. -/
def wZlib : List Byte := [0x78, 0xDA, 0x4B, 0x4C, 0x4A, 0x4E, 0x04, 0x23, 0x00, 0x11, 0x3D, 0x03, 0x73]
def wZst1 : List Byte := [0x28, 0xB5, 0x2F, 0xFD, 0x24, 0x14, 0x45, 0, 0, 0x10, 0x61, 0x61, 1, 0, 0x1E, 0xC0, 2, 0xF7, 0xAF, 0x47, 0xE3]
def wZst2 : List Byte := [0x28, 0xB5, 0x2F, 0xFD, 0x24, 0x25, 0x65, 0, 0, 0x20, 0x61, 0x62, 0x63, 0x58, 2, 0, 0x39, 0x0B, 0x21, 0xE8, 0x86,
  0xF5, 0xED, 0x87, 0xC7]
def tCodec (r : CodecRes) : Nat × Nat × Nat × List Nat := (r.status, r.used, r.detail, r.out.map (fun b => b.toNat))
def wAbc : List Nat := [0x61, 0x62, 0x63, 0x61, 0x62, 0x63, 0x61, 0x62, 0x63]
theorem test_inflate : tCodec (inflateJob 1 true [] [] [] wZlib 100 0 0) = (0, 13, 0, wAbc) ∧
    tCodec (inflateJob 1 true [] [] [] wZlib 8 0 0) = (2, 6, 0, [0x61, 0x62, 0x63, 0x61]) ∧
    tCodec (inflateJob 0 true [] [] [] (wZlib.drop 2) 100 0 0) = (0, 7, 0, wAbc) ∧
    (inflateJob 1 true [] [] [] (wZlib.set 12 0) 100 0 0).status = 6 ∧ (inflateJob 1 true [] [] [] (wZlib.take 9) 100 0 0).status = 5 := by
  decide +kernel
theorem test_unzstd : tCodec (unzstdJob true [] [] [] wZst1 100 0 0) = (0, 21, 0, List.replicate 20 0x61) ∧
    (unzstdJob true [] [] [] wZst1 100 0 0).check = 0xE347AFF7 ∧
    tCodec (unzstdJob true [] [] [] wZst2 100 0 0) = (0, 25, 0, (wAbc ++ wAbc ++ wAbc) ++ 0x58 :: wAbc) ∧
    (unzstdJob true [] [] [] (wZst1.set 20 0) 100 0 0).status = 6 ∧ (unzstdJob true [] [] [] (wZst1.set 0 0) 100 0 0).status = 5 := by
  decide +kernel
theorem test_compressors :
    (let r := deflateJob 2 0 0 true [] [] [] [0x61, 0x62] 100 0 0
     (r.status, r.used, r.out.length) = (0, 2, 25) ∧ tCodec (inflateJob 2 true [] [] [] r.out 100 0 0) = (0, 25, 0, [0x61, 0x62])) ∧
    (let r := zstdJob 3 17 0 true true [] [] [] (List.replicate 40 0x61) 200 0 0
     (r.status, r.used) = (0, 40) ∧ tCodec (unzstdJob true [] [] [] r.out 100 0 0) = (0, r.out.length, 0, List.replicate 40 0x61)) := by
  decide +kernel

/-! ## Power, clocks and snapshots -/

/-- KEY_TICK at 20000, and a snapshot of block 578 armed and due. -/
def tKey : State := State.reset.wrCsr (keyBase + 8) 20000
def tArm (act per now : Nat) : State := { (((tKey.putFlag keyCtl 2 true).putFld keyCtl 1 0 act).putFld keyCtl 35 4 per) with
  ctime := BitVec.ofNat 64 now, snap := { Snap.reset with armed := [(578, true)] } }
def tDue : State := { tArm 0 0 20000 with snap := { Snap.reset with due := [20000], pages := [(578, 1)] } }

theorem test_key_arm : tKey.csrAccepts keyCtl true wq = true ∧ tKey.snap.due = [] ∧
    (let t := tRun (.keySnap (BitVec.ofNat 64 (100 * 16)) wq) tKey; t.flag keyCtl 2 = true ∧ t.fld keyCtl 1 0 = 0 ∧ t.fld keyCtl 35 4 = 100) ∧
    (tRun (.keyFreeze 0 wq) tKey).fld keyCtl 1 0 = 1 ∧ (tRun (.keyThaw 0 wq) (tKey.putFlag keyStat 32 true)).fld keyCtl 1 0 = 2 ∧
    (tRun (.keySnap 0 wq) { tKey with ctime := 1 }).flag keyCtl 2 = false ∧
    (tRun (.keySnap (BitVec.ofNat 64 (99 * 16)) wq) tKey).flag keyCtl 2 = false ∧
    (let t := tRun (.keyCancel 0 wq) (tArm 0 0 19999); t.flag keyCtl 2 = false ∧ t.snap.armed = []) := by decide +kernel

theorem test_key_broadcast : (tRun (.keyArmBcast (.block 0)) (tArm 0 0 0)).snap.armed = [(0, true), (578, true)] ∧
    tSame (.keyArmBcast .all) tKey = true := by decide +kernel

theorem test_key_tick : (let t := tRun .keystoneTick (tArm 1 100 20000)
      t.snap.due = [20000] ∧ t.snap.armed = [] ∧ t.flag keyStat 32 = true ∧ t.rdCsr (keyBase + 8) = 120000) ∧
    Map.get 0 (tRun .keystoneTick (tArm 0 0 20000)).snap.pages 578 = 1 ∧ (tArm 0 0 20000).keyMiss 578 = false ∧
    tSame .keystoneTick (tArm 0 0 19999) = true := by decide +kernel

theorem test_key_done : (let t := tRun (.keystoneDone true) tDue
      t.snap.due = [] ∧ t.fld keyStat 31 0 = 1 ∧ t.fld keyStat 48 33 = 579 ∧ t.rdCsr (keyBase + 0x18) = 20000 ∧ t.flag keyCtl 2 = false) ∧
    tDue.flag (keyBase + 0x20) 19 = false ∧ tSame (.keystoneDone false) tDue = true := by decide +kernel

theorem test_time : let t := tRun (.timeDistribution 5) { State.reset with bucket := 39999998 }
    t.ctime = 5 ∧ t.bucket = 40000000 ∧
    (tRun (.timeDistribution 5) ({ State.reset with bucket := 100 }.putFlag (pwrBase + 8) 14 true)).bucket = 80 := by decide +kernel

/-- Unit 0 of die 0 in the queue of its controller, and the same with its grant. -/
def tUnit : TollWho := .unit 0 0
def tQueue : State := State.reset.setToll 8 { queue := [(tUnit, 0)], held := [], slotQ := [], slots := [] }
def tHolds (w : TollWho) (q : List (TollWho × Nat)) (now : Nat) : State :=
  { State.reset.setToll 8 { queue := q, held := [(w, 0)], slotQ := [], slots := [] } with ctime := BitVec.ofNat 64 now }

theorem test_toll_request : (tRun (.tollRequest tUnit) State.reset).toll 8 = tQueue.toll 8 ∧ tSame (.tollRequest tUnit) tQueue = true ∧
    State.reset.tollCtl tUnit = 8 ∧ State.reset.tollAs tUnit = tUnit ∧ (let s := State.reset.putFlag (dieStatA 0) 50 true
      s.dieHot (s.tollCtl (.vector 0)) = true ∧ (tRun (.tollRequest (.vector 0)) s).tolls = []) := by decide +kernel

theorem test_toll_grant : (let t := tRun (.tollGrant 8) tQueue
      (t.toll 8).held = [(tUnit, 0)] ∧ (t.toll 8).queue = [] ∧ ((t.eng 0).unit 0).grant = true) ∧
    tSame (.tollGrant 8) (tQueue.putFld (dieCfgA 8) 23 14 0) = true ∧ tSame (.tollGrant 8) State.reset = true := by decide +kernel

theorem test_toll_return : ((tRun (.tollReturn 8 0) (tHolds tUnit [] 0)).toll 8).held = [] ∧
    (let t := tRun (.leaseExpire 8 0) (tHolds tUnit [(.unit 0 1, 0)] 15000);
      (t.toll 8).held = [] ∧ (t.toll 8).queue = [(.unit 0 1, 0), (tUnit, 15000)]) ∧
    tSame (.leaseExpire 8 0) (tHolds tUnit [] 15000) = true ∧ tSame (.leaseExpire 8 0) (tHolds tUnit [(.unit 0 1, 0)] 0) = true ∧
    0 < State.reset.fld (dieCfgA 8) 27 24 := by decide +kernel

theorem test_vector_lease : let w : TollWho := .vector 10
    let s := { State.reset.setToll (State.reset.tollCtl w) { queue := [(.vector 11, 0)], held := [(w, 0)], slotQ := [], slots := [] } with ctime := 15000 }
    s.tollCtl w < 8 ∧ s.tollCtl w = s.tollCtl (.vector 11) ∧ s.tollAs w = w ∧
    ((tRun (.leaseExpire (Fin.ofNat 10 (s.tollCtl w)) 0) (s.putFld (tileBase 5 + 0x100C0) 1 0 2)).fld (tileBase 5 + 0x100C0) 1 0) = 0 := by
  decide +kernel

theorem test_dvfs : let s := (State.reset.putFld (dvfsA 5) 8 6 3).putFld (dvfsA 5) 5 3 2
    (let t := tRun (.dvfsRequest 5 4 wq) s; t.targetOf 5 = 4 ∧ t.curOf 5 = 3) ∧ (tRun (.dvfsRequest 5 3 wq) s).targetOf 5 = 3 ∧
    (tRun (.dvfsRequest 5 1 wq) s).fld (dvfsA 5) 2 0 = s.fld (dvfsA 5) 2 0 ∧ s.csrAccepts (dvfsA 5) true wq = true ∧
    s.dieHot (dieOfTile 5) = false ∧ tSame (.dvfsChangeDone 5) s = true := by decide +kernel

theorem test_sensors : (let t := tRun (.sensorSample 560 88) State.reset
      Map.get 0 t.temps 560 = 88 * 65536 / 8 ∧ t.dieHot 9 = false) ∧
    (tRun (.sensorSample 560 104) State.reset).dieHot 9 = true ∧ ctlOfSensor 560 = 9 ∧
    (let t := tRun (.sensorSample 560 105) tMem0; t.pins.thermtrip = true ∧ t.pins.held = true ∧ t.mem = []) ∧
    (let h := State.reset.putFlag (dieStatA 9) 50 true
     tSame (.hotExit 9) h = true ∧ (tRun (.hotExit 9) { h with ctime := 1000000 }).dieHot 9 = false) := by decide +kernel

/-- PWR_DOM for port 63, whose link is down. -/
def tDom (i : Nat) : Word := BitVec.ofNat 64 (3 + 8 * i)
theorem test_domain : State.reset.csrAccepts domA true wq = true ∧
    (let t := tRun (.domainDown (tDom 63) wq) State.reset
     t.isDown 3 63 = true ∧ t.fenced (portAgt 63) = true ∧ t.fld domA 17 16 = 0 ∧
      (tRun (.domainDown (tDom 63) wq) t).fld domA 17 16 = 1 ∧
      (let u := tRun (.domainUp (tDom 63) wq tChan false) t; u.isDown 3 63 = false ∧ u.fenced (portAgt 63) = false ∧ u.proxied (portAgt 63) = false)) ∧
    (tRun (.domainUp (tDom 63) wq tChan false) State.reset).fld domA 17 16 = 1 := by decide +kernel

theorem test_domain_drain : let s := tPort 1 2
    let t := tRun (.domainDown (tDom 3) wq) s
    s.domReady 3 3 = false ∧ t.isDown 3 3 = false ∧ t.flag domA 15 = true ∧
    (let u := tRun .domainDrainTimeout t; u.fld domA 17 16 = 2 ∧ u.flag domA 15 = false) ∧
    (tRun .domainDrainTimeout ((t.putFld (prtBase 3) 1 0 2).putFld (prtBase 3 + 8) 3 0 0)).isDown 3 3 = true ∧
    tSame .domainDrainTimeout s = true := by decide +kernel

theorem test_vpwr : let s := (tMem0.putFld (tMem0.vpwrAddr 5) 1 0 2).setToll (tMem0.tollCtl (vecWho 5)) { queue := [], held := [(vecWho 5, 0)], slotQ := [], slots := [] }
    (let t := tRun (.vpwrHoldExpire 5) s; t.fld (t.vpwrAddr 5) 1 0 = 0 ∧ (t.toll (t.tollCtl (vecWho 5))).held = []) ∧
    tSame (.vpwrHoldExpire 5) tMem0 = true ∧ s.phys 5 = 5 := by decide +kernel

theorem test_vpwr_write : let a := tileBase 5 + 0x100C8
    let t := tRun (.tileVpwrWrite 5 1 0x40200 wq) State.reset
    State.reset.csrAccepts a true wq = true ∧ State.reset.profile ≠ 2 ∧ t.fld a 9 3 = 64 ∧ t.fld a 25 10 = 256 ∧ t.flag a 2 = false ∧
    t.fld a 1 0 = 0 := by decide +kernel

/-! ## The service engine -/

/-- A command: its OP, role and payload, from serial number 0 under the nonce 1, 0, with a signature of zeros when a role signs. -/
def wOrder (op role : Nat) (p : List Byte) : List Byte :=
  bytesOf 0x5A43 2 ++ [1, BitVec.ofNat 8 op, BitVec.ofNat 8 role, 0] ++ bytesOf p.length 2 ++ bytesOf 0 8 ++ bytesOf 1 8 ++ bytesOf 0 8 ++ p ++
    (if role = 0xFF then [] else List.replicate 64 0)
/-- The part after start-up with a command of the SMBus at the head of the queue. -/
def tOrder (stage op role : Nat) (p : List Byte) : State :=
  let b := wOrder op role p
  { tFlash.putFld dseBase 3 0 stage with
    dse := { Dse.reset with smIn := b, smLen := b.length, cmdQ := [1], nonces := [(1, some ⟨1, 0, 1⟩)] } }
/-- The same from the CSR buffer. -/
def tOrder0 (op role : Nat) (p : List Byte) : State :=
  let b := wOrder op role p
  let ws := (List.range ((b.length + 7) / 8)).map (fun i => BitVec.ofNat 64 (at' b (8 * i) 8))
  let s := ws.zipIdx.foldl (fun (s : State) x => s.wrCsr (dseBase + 0x1000 + 8 * x.2) x.1) (tMem0.putFld dseBase 3 0 9)
  { (s.putFld cmdA 14 2 b.length).putFlag cmdA 0 true with dse := { Dse.reset with cmdQ := [0] } }
def wMsg (via : Fin 3) : DseMsg := { via := via, vpp := true }

/-- A signed command of the maker passes its checks where its signature verifies. -/
theorem check_of (s : State) (via : Nat) (b : List Byte) (h : ∀ k m g, Config.ed25519 k m g = true) (hm : s.makerOk = true)
    (r : cmdRole b = 0) (a : ¬ (at' b 0 2 ≠ 0x5A43 ∨ at' b 2 1 ≠ 1 ∨ 4000 < cmdLen b ∨ b.length < 0x20 + cmdLen b + 64 ∨
      (s.stage ≠ 14 ∧ b.length ≠ 0x20 + cmdLen b + 64))) (p : payOk (cmdOp b) (cmdPay b) = true)
    (q : (decide (1 ≤ cmdOp b ∧ cmdOp b ≤ 0x0E) && s.permitted via b) = true) (n : at' b 8 8 = s.fuses.serial)
    (o : s.nonceOk via b = true) : s.cmdCheck via b = 0 := by
  simp only [Bool.and_eq_true, decide_eq_true_eq] at q
  simp [State.cmdCheck, r, a, p, q.1.1, q.1.2, q.2, n, o, h, hm, State.roleKey]

theorem maker_of (stage op : Nat) (p : List Byte) : (tOrder stage op 0 p).makerOk = true := test_maker_key
theorem test_enroll (h : ∀ k m g, Config.ed25519 k m g = true) :
    let s := tOrder 9 1 0 ([1, 0, 0, 0, 0, 0, 0, 0] ++ List.replicate 32 7)
    s.cmdCheck 1 (s.cmdBytes 1) = 0 :=
  check_of _ _ _ h (maker_of ..) (by decide +kernel) (by decide +kernel) (by decide +kernel) (by decide +kernel) (by decide +kernel) (by decide +kernel)
theorem test_revoke (h : ∀ k m g, Config.ed25519 k m g = true) :
    let s := tOrder 9 2 0 [1, 0, 0, 0, 0, 0, 0, 0]
    s.cmdCheck 1 (s.cmdBytes 1) = 0 :=
  check_of _ _ _ h (maker_of ..) (by decide +kernel) (by decide +kernel) (by decide +kernel) (by decide +kernel) (by decide +kernel) (by decide +kernel)
theorem test_fw_update (h : ∀ k m g, Config.ed25519 k m g = true) :
    let s := tOrder 9 3 0 (List.replicate 16 0)
    s.cmdCheck 1 (s.cmdBytes 1) = 0 ∧ s.imageOf (s.cmdBytes 1) 0x200000 = (0, []) ∧ s.fwWhole [] = false :=
  ⟨check_of _ _ _ h (maker_of ..) (by decide +kernel) (by decide +kernel) (by decide +kernel) (by decide +kernel) (by decide +kernel)
    (by decide +kernel), by decide +kernel, by decide +kernel⟩
theorem test_set_lifecycle (h : ∀ k m g, Config.ed25519 k m g = true) :
    let s := tOrder 9 0x0D 0 [1, 0, 0, 0, 0, 0, 0, 0]
    s.cmdCheck 1 (s.cmdBytes 1) = 0 ∧ s.fuses.lifecycle = 0 :=
  ⟨check_of _ _ _ h (maker_of ..) (by decide +kernel) (by decide +kernel) (by decide +kernel) (by decide +kernel) (by decide +kernel)
    (by decide +kernel), by decide +kernel⟩
theorem test_debug_unlock (h : ∀ k m g, Config.ed25519 k m g = true) :
    let s := tOrder 9 0x0E 0 []
    s.cmdCheck 1 (s.cmdBytes 1) = 0 ∧ s.fuses.lifecycle = 0 :=
  ⟨check_of _ _ _ h (maker_of ..) (by decide +kernel) (by decide +kernel) (by decide +kernel) (by decide +kernel) (by decide +kernel)
    (by decide +kernel), by decide +kernel⟩

/-- A whole firmware image, and a whole settings image. -/
def wFw : List Byte := (bytesOf 0x5A4E4657 4 ++ [1, 0, 3, 0, 1, 0, 0, 0] ++ bytesOf 4096 4 ++ bytesOf 0 4 ++ bytesOf 4096 4) ++ List.replicate 4328 0
theorem test_fw_whole (h : ∀ k m g, Config.ed25519 k m g = true) : tFlash.fwWhole wFw = true := by
  have l : wFw.length = 4352 := by
    rw [wFw, List.length_append, List.length_replicate]
    decide +kernel
  have a : at' wFw 0x0C 4 = 4096 := by decide +kernel
  have k : tFlash.fwOk wFw = true := fw_ok_of _ _ h test_maker_key (by decide +kernel)
  simp [State.fwWhole, l, a, k]
def wSet : List Byte := bytesOf 0x5A4E5354 4 ++ [1, 0, 0, 0, 1, 0, 0, 0] ++ bytesOf 16 4 ++ bytesOf 0 48 ++
  [1, 0, 1, 0, 1, 0, 0, 0, 2, 0, 2, 0, 64, 0, 0, 0] ++ List.replicate 64 0
theorem no_installer : tFlash.installer = false := by decide +kernel
theorem test_set_whole (h : ∀ k m g, Config.ed25519 k m g = true) : 128 + at' wSet 0x0C 4 ≤ wSet.length ∧ tFlash.setFail wSet = none :=
  ⟨by decide +kernel, set_ok_of _ _ h test_maker_key (by decide +kernel) (by decide +kernel) no_installer (by decide +kernel) (by decide +kernel)⟩
theorem test_settings_update (h : ∀ k m g, Config.ed25519 k m g = true) :
    let s := tOrder 9 4 0 (List.replicate 16 0)
    s.cmdCheck 1 (s.cmdBytes 1) = 0 ∧ s.imageOf (s.cmdBytes 1) 0x40000 = (0, []) ∧ s.setFail [] ≠ none :=
  ⟨check_of _ _ _ h (maker_of ..) (by decide +kernel) (by decide +kernel) (by decide +kernel) (by decide +kernel) (by decide +kernel)
    (by decide +kernel), by decide +kernel, by decide +kernel⟩

theorem test_command_checks : let s := tOrder 9 9 0xFF (List.replicate 32 1)
    s.cmdCheck 1 (s.cmdBytes 1) = 0 ∧ cmdOp (s.cmdBytes 1) = 9 ∧ (tRun (.certRead (wMsg 1)) s).dse.cmdQ = [1] ∧ (tRun (.quote (wMsg 0)) s).dse.cmdQ = [1] ∧
    (let u := tOrder 9 5 0xFF []
     u.cmdCheck 1 (u.cmdBytes 1) = 2 ∧ (let t := tRun (.warmReset (wMsg 1)) u; t.dse.cmdQ = [] ∧ t.dse.smStatus = 2 ∧ t.ledgQ = [])) ∧
    (let u := tOrder 9 9 1 (List.replicate 32 1)
     u.cmdCheck 1 (u.cmdBytes 1) = 4 ∧ (let t := tRun (.quote (wMsg 1)) u; t.dse.smStatus = 4 ∧ t.dse.nonces = [] ∧ t.ledgQ.map (fun r => r.headD 0) = [0x11])) := by
  decide +kernel

theorem test_command_reads : (let s := tOrder 9 0x0B 0xFF (bytesOf 1 8 ++ bytesOf 15 8)
      s.cmdCheck 1 (s.cmdBytes 1) = 0 ∧ (let t := tRun (.ledgerRead (wMsg 1)) s; t.dse.cmdQ = [] ∧ t.dse.smStatus = 0 ∧ t.dse.smOut = [])) ∧
    (let s := tOrder 9 0x0C 0xFF []
     s.cmdCheck 1 (s.cmdBytes 1) = 0 ∧ (tRun (.certRead (wMsg 1)) s).dse.smOut = List.replicate 192 0xFF) := by decide +kernel

theorem test_warm_reset_command : let s := tOrder0 5 0xFF []
    s.cmdCheck 0 (s.cmdBytes 0) = 0 ∧ s.dse.cmdQ = [0] ∧ (let t := tRun (.warmReset (wMsg 0)) s; t.stage = 3 ∧ t.cores = [] ∧ t.dse.warm = true) := by
  decide +kernel
theorem test_port_add : let s := tOrder0 6 0xFF [3, 0, 0, 0, 0, 0, 0, 0]
    let u := ((s.putFld (prtBase 3) 1 0 1).putFld (prtBase 3) 4 2 6).setPort 3 { Port.reset with present := true }
    u.cmdCheck 0 (u.cmdBytes 0) = 0 ∧ u.portMode 3 = 1 ∧ u.portLink 3 = 0 ∧ u.counted 3 = false ∧
    u.trainOk 3 { wt with speed := 6, width := 8 } = true ∧ (tRun (.portAdd (wMsg 0) wt) s).fld cmdA 22 15 = 7 := by decide +kernel
theorem test_port_remove : let s := (tOrder0 7 0xFF [3, 0, 0, 0, 0, 0, 0, 0])
    s.cmdCheck 0 (s.cmdBytes 0) = 0 ∧ (tRun (.portRemove (wMsg 0)) s).fld cmdA 22 15 = 7 ∧
    (let u := (s.putFld (prtBase 3) 1 0 1).setPort 3 { Port.reset with power := true }
     let t := tRun (.portRemove (wMsg 0)) u; (t.port 3).power = false ∧ t.fld cmdA 22 15 = 0) := by decide +kernel
theorem test_spare_core : let s := tOrder0 8 0xFF [5, 0, 0, 0, 0, 0, 0, 0]
    s.cmdCheck 0 (s.cmdBytes 0) = 0 ∧ s.lcState 5 = 1 ∧ s.quiet 5 = true ∧
    (let u := s.putFld (dseBase + 0x10028) 14 12 0; (tRun (.spareCore (wMsg 0)) u).fld cmdA 22 15 = 7) := by decide +kernel
theorem test_readback : let s := tOrder0 0x0A 0xFF (bytesOf 0 8 ++ bytesOf 0x500000004 8 ++ bytesOf 0 8)
    s.cmdCheck 0 (s.cmdBytes 0) = 0 := by decide +kernel

theorem test_nonces : (let t := tRun (.newnonce true) State.reset
      (Map.get none t.dse.nonces 1).map (fun n => (n.count, n.ends)) = some (1, 60000000000)) ∧
    (let s := { State.reset with dse := { Dse.reset with nonces := [(1, some ⟨7, 9, 5⟩)] } }
     tSame (.nonceExpire true) { s with ctime := 4 } = true ∧ (tRun (.nonceExpire true) { s with ctime := 5 }).dse.nonces = [] ∧
      (tRun .smbusNonceRead s).dse.smRead = bytesOf 7 8 ++ bytesOf 9 8) := by decide +kernel

theorem test_smbus : (tRun (.smbusBlockWrite [1, 2]) State.reset).dse.smIn = [1, 2] ∧ (tRun (.smbusBlockWrite [1]) (tOrder 9 9 0xFF [])).dse.smIn = wOrder 9 0xFF [] ∧
    (tRun (.smbusControl none) (tOrder 9 9 0xFF [])).dse.smRead = [1, 0] ∧
    (let s := { State.reset with dse := { Dse.reset with smIn := wOrder 0x0C 0xFF [] } }
     let t := tRun (.smbusControl (some 0x81)) s
     t.dse.cmdQ = [1] ∧ t.dse.smLen = 32 ∧ (tRun (.smbusControl (some 0x80)) s).dse.smLen = 32 ∧ tSame (.smbusControl (some 0x7D)) s = true ∧ tSame (.smbusControl (some 0x4005)) s = true) ∧
    (tRun (.sensorRead 0x3F none) { State.reset with temps := [(0, 25 * 65536)] }).dse.smRead = [25, 0] ∧
    (tRun (.sensorRead 0x30 (some 575)) State.reset).dse.smSel = 575 := by decide +kernel

theorem test_uart : let s := tStage 14
    (tRun (.uartBlock (List.replicate 31 0)) s).dse.uartIn.length = 31 ∧ (tRun (.uartBlock (wOrder 0x0C 0xFF [])) s).dse.cmdQ = [2] ∧
    s.dse.console / 2 % 2 = 1 ∧ tSame (.uartBlock [1]) (tStage 9) = true := by decide +kernel

theorem test_ledger_premise : let s := { tStage 9 with ledgQ := [[0x11, 0, 4, 0]] }
    s.dse.lost = [] ∧ s.ledSeq = 0 ∧ tSame .ledgerProgram (tStage 9) = true := by decide +kernel

theorem test_lands : let a := dseBase + 0x200
    let s := { tStage 9 with dse := { Dse.reset with trace := 1 } }.putFld a 1 0 0
    (tRun (.spiTclaim 0 wq) s).fld a 1 0 = 2 ∧ (let t := tRun (.spiTclaim 0 wq) ((tStage 9).putFld a 1 0 0); t.fld a 1 0 = 0 ∧ t.flag a 4 = true) ∧
    (tRun (.spiTrelease 0 wq) (s.putFld a 1 0 2)).fld a 1 0 = 0 ∧ (tRun (.spiTrelease 0 wq) (s.putFld a 1 0 1)).fld a 1 0 = 1 ∧
    s.csrAccepts a true wq = true := by decide +kernel

/-- The twin works. -/
def tTwin : State := (tStage 9).putFlag dseBase 7 true
theorem test_twins : (let t := tRun .takeover tTwin
      t.flag dseBase 6 = true ∧ t.flag dseBase 7 = false ∧ t.fenced tTwin.dseA = true ∧ t.dse.out = [(0, true)] ∧ t.ledgQ.map (fun r => r.headD 0) = [0x30]) ∧
    (let t := tRun .twinFailure tTwin; t.flag dseBase 7 = false ∧ t.dse.out = [(1, true)] ∧ t.fld (recA 0 + 8) 7 0 = 0x30) ∧
    tSame .takeover (tStage 9) = true ∧ tSame .heartbeat (tStage 15) = true ∧ (tRun .heartbeat { tStage 9 with ctime := 7 }).dse.hbAt = 7 ∧
    tSame .catErrWatchdog { tStage 9 with ctime := 999999 } = true ∧ (tRun .catErrWatchdog { tStage 9 with ctime := 1000000 }).pins.catErr = true := by
  decide +kernel

/-! ## Fault recovery -/

def wRec (u i l : Nat) : FaultRec := { slot := 3, rep := { unit := u, index := i, loc := l, sev := 0, detail := 0, time := 0 }, was := none }
/-- The action of a record runs, and its record stands in place 3. -/
def tAct (s : State) (x : FaultRec) : State := { s.wrCsr (recA 3 + 8) (repWord1 x.rep) with ras := { Ras.reset with running := some x } }
/-- ACTION and RESULT of the record, once nothing runs. -/
def tEnded (t : State) : Option (Nat × Nat) := if t.ras.running = none then some (t.fld (recA 3 + 16) 7 4, t.fld (recA 3 + 16) 10 8) else none

theorem test_fault_report : let r : FaultRep := { wr with unit := 1, index := 5, loc := 0, time := 7 }
    let s := { tMem0.putFlag (rasBase + 0x18) 20 true with reports := [r], ctime := 7 }
    let t := tRun (.faultReport r) s
    s.mergeInto r = none ∧ s.carried 5 = some 5 ∧ t.reports = [] ∧ t.ras.tests = [{ slot := 0, rep := r, was := some .running }] ∧
    (t.core 5).run = .stopped ∧ t.rdCsr (recA 0) = 7 ∧ t.fld (rasBase + 0x10) 5 0 = 1 ∧
    (let u := tRun (.faultReport r) t; u.ras.tests = t.ras.tests ∧ u.fld (recA 0 + 16) 18 11 = 1) := by decide +kernel

/-- The test of a core's record runs. -/
def tTest : State := { (tMem0.modCore 5 (fun k => { k with run := .stopped })).wrCsr (recA 3 + 8) (repWord1 (wRec 1 5 0).rep) with
  ras := { Ras.reset with tests := [{ wRec 1 5 0 with was := some .running }] } }
/-- An uncorrectable error in a general register, in a TLB entry, and in a dirty line of an L2 (Table 16.4). -/
theorem test_array_errors :
    (let t := tRun (.faultReport { wr with index := 5, sev := 1, detail := 0x1003 }) (tMem0.modCore 5 (fun k => { k with g := Map.set 0 k.g 3 7 }))
     (t.core 5).rd 3 = 0 ∧ (t.core 5).errCore = true ∧ (t.core 5).run = .stopped) ∧
    (let e : TlbEntry := ⟨false, 0, 0, 0, 0, 0⟩
     ((tRun (.faultReport { wr with unit := 2, index := 5, sev := 1, loc := 0x300020 })
       (tMem0.modCore 5 (fun k => { k with tlb := [(2, some e)] }))).core 5).tlb = []) ∧
    (tRun (.faultReport { wr with unit := 3, index := 5, sev := 1, loc := 0x404 })
      (tL2 { L2Line.empty with st := .M, wn := 4 })).poisoned 0x40 = true := by decide +kernel

theorem test_selftest : let x : FaultRec := { wRec 1 5 0 with was := some .running }
    tTest.lockStop x.rep = false ∧ tTest.repeats x.rep = false ∧ tTest.actionOf x.rep = 2 ∧
    (let t := tRun (.selftestEnd 3 false false) tTest
     t.ras.tests = [] ∧ (t.core 5).run = .running ∧ t.fld (recA 3 + 16) 3 2 = 1 ∧ t.fld (recA 3 + 16) 1 0 = 1) ∧
    (let t := tRun (.selftestEnd 3 true false) tTest; t.ras.running = some x ∧ t.fld (recA 3 + 16) 1 0 = 2) ∧
    tSame (.selftestEnd 4 true false) tTest = true := by decide +kernel

theorem test_no_action : ([.coreSpare 5, .wayRetire 5 0 4, .sliceDisable 5, .rowSpare 0 0, .regionConvert 0, .routeAround 40, .laneDegrade 3 4,
    .mirrorFailover true 0, .frameRetire 0 0, .unitRetire 0 0, .homeFence 0] : List Instr).all (fun i => tSame i tMem0) = true := by decide +kernel

theorem test_core_spare : let s := tAct tMem0 (wRec 1 5 0)
    let used := (List.range 8).foldl (fun (s : State) d => s.wrCsr (dseBase + 0x12000 + 8 * d) 0x0C000C000C000C00) s
    s.actOf (wRec 1 5 0) = 2 ∧ s.coreOf (wRec 1 5 0).rep = some 5 ∧ s.quiet 5 = true ∧ s.trapStop (wRec 1 5 0).rep = false ∧
    s.spareFor (dieOfTile 2) = some (dieOfTile 2, 0, 0) ∧ used.spareFor (dieOfTile 2) = none ∧
    (let t := tRun (.coreSpare 5) used; tEnded t = some (15, 5) ∧ t.lcState 5 = 3 ∧ (t.core 5).run = .offline ∧ t.dse.retired = [5]) := by
  decide +kernel

theorem test_way_retire : let a := tileBase 5 + 0x30000
    (let t := tRun (.wayRetire 5 0 4) (tAct tMem0 (wRec 3 10 4)); tEnded t = some (3, 0) ∧ t.flag a 4 = true) ∧
    (let t := tRun (.wayRetire 5 0 15) (tAct (tMem0.putFld a 15 0 0xFFF) (wRec 3 10 15)); tEnded t = some (3, 0) ∧ t.flag a 16 = true) ∧
    (let t := tRun (.wayRetire 5 2 15) (tAct tMem0 (wRec 8 5 15)); tEnded t = some (3, 0) ∧ t.flag (tileBase 5 + 0x40000) 15 = true) ∧
    (let t := tRun (.wayRetire 5 2 15) (tAct (tMem0.putFld (tileBase 5 + 0x40000) 15 0 0xFFF) (wRec 8 5 15))
     tEnded t = some (3, 0) ∧ t.flag (tileBase 5 + 0x40008) 1 = true) ∧
    (let t := tRun (.sliceDisable 5) (tAct tMem0 (wRec 9 5 0)); tEnded t = some (4, 0) ∧ t.flag (tileBase 5 + 0x40008) 1 = true) := by
  decide +kernel

theorem test_row_spare_action : let t := tRun (.rowSpare 2 77) (tAct tMem0 (wRec 0x1A 2 77))
    t.flag (chBase 2 + 0x6000) 24 = true ∧ t.fld (chBase 2 + 0x6000) 23 0 = 77 := by decide +kernel

theorem test_region_convert : let s := tAct tMem0 (wRec 0x1B 2 0)
    let l := s.putFld (chBase 2 + 0x1000) 33 32 3
    tEnded (tRun (.regionConvert 2) s) = some (6, 0) ∧ l.regionBad 2 0 (l.nregion 2 0) (putB (l.nregion 2 0) 32 false) = false ∧
    (let t := tRun (.regionConvert 2) l; bitB (t.nregion 2 0) 32 = false ∧ t.flag (chBase 2 + 0x1080) 4 = true) ∧
    tSame (.regionConvert 2) (l.putFlag (chBase 2 + 0x1080) 4 true) = true := by decide +kernel

/-- By the dimension-ordered routes of reset, packets from router 38 to router 44 pass router 40 and its east link. -/
theorem test_route_around : (tAct tMem0 (wRec 0x10 40 2)).actOf (wRec 0x10 40 2) = 7 ∧ neighbour 40 2 = some 41 ∧
    State.reset.passes 44 (fun r out => decide (r = 40 ∧ out = 2)) 600 38 false = true ∧
    State.reset.passes 44 (fun r _ => decide (r = 60)) 600 38 false = false ∧
    isTileRouter 35 = false ∧ (tAct tMem0 (wRec 0x10 35 0)).actOf (wRec 0x10 35 0) = 7 := by decide +kernel

theorem test_lane_degrade : let s := ((tPort 1 2).putFld (prtBase 3 + 8) 10 7 8).putFld (prtBase 3 + 8) 18 11 255
    (let t := tRun (.laneDegrade 3 0) (tAct s (wRec 0x20 3 7))
     tEnded t = some (8, 0) ∧ t.fld (prtBase 3 + 8) 10 7 = 4 ∧ t.flag (prtBase 3 + 8) 18 = false ∧ t.portLink 3 = 2) ∧
    (let t := tRun (.laneDegrade 3 0) (tAct s (wRec 0x20 3 0)); tEnded t = some (8, 0) ∧ t.portLink 3 = 0) ∧
    (tRun (.laneDegrade 3 4) (tAct s (wRec 0x20 3 0))).fld (prtBase 3 + 8) 10 7 = 4 := by decide +kernel

theorem test_mirror_failover : let s := (tPort 1 2).putFld dseBase 5 4 2
    s.profile = 2 ∧ (let t := tRun (.mirrorFailover true 3) (tAct s (wRec 0x21 3 0));
      tEnded t = some (9, 0) ∧ t.fld (portBase 2 + 0x7010) 7 0 = 2 + 3 * 4) ∧
    (let t := tRun (.mirrorFailover false 3) (tAct s (wRec 0x19 3 0));
      tEnded t = some (9, 0) ∧ t.fld (chBase 2 + 0x7000) 7 0 = 14 ∧ t.fld (chBase 3) 23 20 = 3 ∧ t.hostCh 3 = 2) := by decide +kernel

theorem test_retire : (let s := tMem0.setFarCap 100
      s.far 3 0 = .free ∧ (let t := tRun (.frameRetire 3 0) (tAct s (wRec 0x22 3 0));
        tEnded t = some (10, 0) ∧ t.far 3 0 = .withheld ∧ t.fld capFarA 27 0 = 99)) ∧
    (let t := tRun (.unitRetire 1 17) (tAct tMem0 (wRec 0x28 49 0)); tEnded t = some (11, 0) ∧ ((t.eng 1).unit 17).retired = true) ∧
    (let t := tRun (.unitRetire 1 17) (tAct tMem0 (wRec 0x29 1 511)); tEnded t = some (11, 0) ∧ t.dse.gone = [[12, 1, 511]]) := by decide +kernel

theorem test_home_fence : let s := tAct tMem0 (wRec 0x19 3 0)
    (let t := tRun (.homeFence 3) s; tEnded t = some (13, 4) ∧ (t.home 3).fenced = true ∧ t.fld (chBase 3) 23 20 = 3) ∧
    (let t := tRun (.homeFence 3) (s.setHomemap 4 3); (t.home 3).fenced = true ∧ t.ras.running.isSome = true) := by decide +kernel

/-- Core 5 in lockstep, with n divergences in a row. -/
def tPair (n : Nat) : State := (tMem0.putFld dseBase 5 4 2).putFld (tMem0.tileOf 5 + 0x10080) 33 32 n
theorem test_pair_runs : (tPair 0).Runs 5 ∧ (tPair 0).profile = 2 := ⟨⟨by decide +kernel, by decide +kernel, by decide +kernel⟩, by decide +kernel⟩
theorem test_lockstep : let a := tMem0.tileOf 5 + 0x10080
    (let t := tRun (.lockstepMismatch 5 0x1234) (tPair 0); t.fld a 15 0 = 1 ∧ t.fld a 33 32 = 1 ∧ t.rdCsr (a + 8) = 0x1234 ∧ (t.core 5).run = .running) ∧
    (let t := tRun (.lockstepMismatch 5 0x1234) (tPair 2); t.flag a 34 = true ∧ (t.core 5).run = .stopped ∧ t.reports.map (fun f => (f.unit, f.sev)) = [(1, 2)]) ∧
    (let t := tRun (.portDivergence 5 0x1234) (tPair 2); t.fld a 31 16 = 1 ∧ t.flag a 34 = true ∧ (t.core 5).run = .stopped) ∧
    tSame (.lockstepMismatch 5 0) tMem0 = true := by decide +kernel

/-! ## The block as a whole -/

theorem test_step_idles : tMem0.pending = [] ∧ tS.pending = [] := by decide +kernel
theorem test_invariant : State.reset.Inv ∧ tMem0.Inv := by unfold State.Inv; decide +kernel
theorem test_step_takes_front : step { tMem0 with pending := [.registerWrite (tRate 0x705), .arm] } =
    exec (.registerWrite (tRate 0x705)) { tMem0 with pending := [.arm] } := rfl

/-- The words of the spec's examples and tables, in their order: those of R177, of LL and SC, and those of chapter 10. -/
theorem test_decode : [0x41C01234, 0x49D59E26, 0xC83C0000, 0xD1480023, 0x094A0001, 0xD1885033, 0xB1801FFD, 0xD1481043].map
      (decodeTableWord 32) =
    [some (.li 0 7 0x1234), some (.lsi 0 7 0x159E26), some (.jalr 0 0 30 0), some (.ll 0 5 4 3 false), some (.addi 0 5 5 1),
      some (.sc 0 6 4 5 3 false), some (.bne 0 6 0 0xFFD), some (.aadd 0 5 4 1 3 false false)] := by decide +kernel
theorem test_decode_vector : [0xFA0A0118, 0xE8C48112, 0xEA44071D, 0xF986011F, 0xF8C87008, 0xF8C87010].map (decodeTableWord 32) =
    [some (.vbcast 0 8 5 0 2 false), some (.vcmplt 0 3 2 8 0 2 false), some (.vcompress 0 9 2 3 2), some (.vmpopc 0 6 3 2),
      some (.vgather 0 3 4 7 0 0 0 false), some (.vgatherff 0 3 4 7 0 0 0 false)] := by decide +kernel
theorem test_decode_refuses : decodeTableWord 32 0 = none ∧ decodeTableWord 32 0x060 = none ∧
    decodeTableWord 16 0x41C01234 = none ∧ decodeTableWord 32 0x08000000 = some (.addi 0 0 0 0) := by decide +kernel

end Sys2Proof.Tests
end

section
/-! Division (R178): the model's four operations on n-bit words against quotients and remainders of integers. -/

namespace Sys2Proof.Machine
open Sys2Proof

section Words
variable {n : Nat}

/-! ## The operations as those of the library -/

theorem divS_zero (a : BitVec n) : divS a 0 = BitVec.allOnes n := if_pos rfl

theorem divS_eq_sdiv (a : BitVec n) {b : BitVec n} (hb : b ≠ 0) : divS a b = a.sdiv b := by
  unfold divS
  rw [if_neg hb]
  split
  · next h =>
    obtain ⟨rfl, rfl⟩ := h
    rw [← BitVec.neg_one_eq_allOnes, BitVec.intMin_sdiv_neg_one]
  · exact BitVec.eq_of_toInt_eq (by rw [BitVec.toInt_ofInt, BitVec.toInt_sdiv])

theorem remS_eq_srem (a b : BitVec n) : remS a b = a.srem b := by
  unfold remS
  split
  · next hb => rw [hb]; exact BitVec.srem_zero.symm
  next hb =>
  refine BitVec.eq_of_toInt_eq ?_
  split
  · next h =>
    have hn : 0 < n := Nat.pos_of_ne_zero (by rintro rfl; exact hb BitVec.of_length_zero)
    rw [BitVec.toInt_srem, h.2, BitVec.toInt_allOnes, if_pos hn, Int.tmod_neg, Int.tmod_one]
    exact BitVec.toInt_zero
  · rw [BitVec.toInt_ofInt, ← BitVec.toInt_srem, BitVec.toInt_bmod_cancel]

theorem divU_zero (a : BitVec n) : divU a 0 = BitVec.allOnes n := if_pos rfl

theorem divU_eq_udiv (a : BitVec n) {b : BitVec n} (hb : b ≠ 0) : divU a b = a / b := by
  unfold divU
  rw [if_neg hb, ← BitVec.toNat_udiv, BitVec.ofNat_toNat, BitVec.setWidth_eq]

theorem remU_eq_umod (a b : BitVec n) : remU a b = a % b := by
  unfold remU
  split
  · next h => rw [h]; exact BitVec.umod_zero.symm
  · rw [← BitVec.toNat_umod, BitVec.ofNat_toNat, BitVec.setWidth_eq]

/-! ## What R178 says of them -/

/-- Only -2^(n-1) by -1 has a quotient that n bits do not hold. -/
theorem toInt_sdiv_of_lt (hn : 0 < n) {a b : BitVec n} (h : a.toInt.tdiv b.toInt < 2 ^ (n - 1)) :
    (a.sdiv b).toInt = a.toInt.tdiv b.toInt := by
  refine BitVec.toInt_sdiv_of_ne_or_ne a b (Decidable.not_and_iff_not_or_not.1 ?_)
  rintro ⟨rfl, rfl⟩
  rw [BitVec.toInt_intMin_of_pos hn, BitVec.neg_one_eq_allOnes, BitVec.toInt_allOnes, if_pos hn,
    Int.tdiv_neg, Int.tdiv_one, Int.neg_neg] at h
  exact Int.lt_irrefl _ h

/-- The overflow of R178: the quotient wraps to the dividend. -/
theorem toInt_sdiv_of_eq (hn : 0 < n) {a b : BitVec n} (h : a.toInt.tdiv b.toInt = 2 ^ (n - 1)) :
    (a.sdiv b).toInt = -(2 ^ (n - 1)) := by
  by_cases hv : a = BitVec.intMin n ∧ b = -1#n
  · rw [hv.1, hv.2, BitVec.intMin_sdiv_neg_one, BitVec.toInt_intMin_of_pos hn]
  · have hlt := BitVec.toInt_lt (x := a.sdiv b)
    rw [BitVec.toInt_sdiv_of_ne_or_ne a b (Decidable.not_and_iff_not_or_not.1 hv), h] at hlt
    exact absurd hlt (Int.lt_irrefl _)

theorem signedDivision_divS_remS (hn : 0 < n) (a b : BitVec n) :
    signedDivision n a.toInt b.toInt (divS a b).toInt (remS a b).toInt := by
  rw [remS_eq_srem, BitVec.toInt_srem]
  refine ⟨fun hb => ?_, fun hb => ⟨by rw [Int.tmod_def, Int.mul_comm], ?_⟩⟩
  · have hz : b = 0 := BitVec.eq_of_toInt_eq (hb.trans BitVec.toInt_zero.symm)
    rw [hb, hz, divS_zero, BitVec.toInt_allOnes, if_pos hn]
    exact ⟨rfl, Int.tmod_zero _⟩
  · have hz : b ≠ 0 := fun h => hb (by rw [h]; exact BitVec.toInt_zero)
    rw [divS_eq_sdiv a hz]
    exact ⟨toInt_sdiv_of_lt hn, toInt_sdiv_of_eq hn⟩

theorem unsignedDivision_divU_remU (a b : BitVec n) :
    unsignedDivision n a.toNat b.toNat (divU a b).toNat (remU a b).toNat := by
  rw [remU_eq_umod, BitVec.toNat_umod]
  refine ⟨fun hb => ?_, fun hb => ⟨?_, ?_⟩⟩
  · have hz : b = 0 := BitVec.eq_of_toNat_eq hb
    rw [hb, hz, divU_zero, BitVec.toNat_allOnes]
    exact ⟨rfl, Nat.mod_zero _⟩
  · have hz : b ≠ 0 := fun h => hb (by rw [h]; rfl)
    rw [divU_eq_udiv a hz, BitVec.toNat_udiv]
  · rw [Nat.mul_comm]
    exact Nat.mod_eq_sub _ _

end Words

/-- Settles O6: each instruction writes the model's quotient or remainder, read as an integer. -/
theorem division : Obligations.Division := by
  unfold Obligations.Division
  intro s c rd ra rb h k a b
  have hs := signedDivision_divS_remS (n := 64) (by decide) a b
  have hw := signedDivision_divS_remS (n := 32) (by decide) (lo32 a) (lo32 b)
  have hu := unsignedDivision_divU_remU a b
  have hv := unsignedDivision_divU_remU (lo32 a) (lo32 b)
  rw [BitVec.toNat_setWidth, BitVec.toNat_setWidth] at hv
  refine ⟨⟨_, _, hs, ?div, ?rem⟩, ⟨_, _, hu, ?divu, ?remu⟩, ⟨_, _, hw, ?divw, ?remw⟩, ⟨_, _, hv, ?divuw, ?remuw⟩⟩
  case' div | rem => rw [BitVec.ofInt_toInt]
  case' divu | remu | divuw | remuw => rw [BitVec.ofNat_toNat, BitVec.setWidth_eq]
  case div => exact completes_alu (fun k => divS (k.rd ra) (k.rd rb)) h rfl
  case rem => exact completes_alu (fun k => remS (k.rd ra) (k.rd rb)) h rfl
  case divu => exact completes_alu (fun k => divU (k.rd ra) (k.rd rb)) h rfl
  case remu => exact completes_alu (fun k => remU (k.rd ra) (k.rd rb)) h rfl
  case divw => exact completes_alu (fun k => sext (divS (lo32 (k.rd ra)) (lo32 (k.rd rb)))) h rfl
  case remw => exact completes_alu (fun k => sext (remS (lo32 (k.rd ra)) (lo32 (k.rd rb)))) h rfl
  case divuw => exact completes_alu (fun k => sext (divU (lo32 (k.rd ra)) (lo32 (k.rd rb)))) h rfl
  case remuw => exact completes_alu (fun k => sext (remU (lo32 (k.rd ra)) (lo32 (k.rd rb)))) h rfl

end Sys2Proof.Machine
end

section
/-! Trap return (R208): what PL, V, SHB, IE and EIP read after TRET, and what it leaves unchanged. -/

namespace Sys2Proof.Machine
open Sys2Proof

/-! ## The fields of status (Table 7.4) -/

section Status
variable (w : Word) (pl : Nat) (v shb eip : Bool)

theorem bitsN_statusWith_pl : bitsN (statusWith w pl v shb eip) 1 0 = pl % 4 := by
  unfold statusWith
  rw [bitsN_putB_ne _ _ (by decide) (by decide), bitsN_putB_ne _ _ (by decide) (by decide),
    bitsN_putB_ne _ _ (by decide) (by decide)]
  exact bitsN_putW _ _ (by decide)

theorem bitB_statusWith_v : bitB (statusWith w pl v shb eip) 2 = v := by
  unfold statusWith
  rw [bitB_putB_ne _ _ (by decide) (by decide), bitB_putB_ne _ _ (by decide) (by decide), bitB_putB _ _ (by decide)]

theorem bitB_statusWith_shb : bitB (statusWith w pl v shb eip) 3 = shb := by
  unfold statusWith
  rw [bitB_putB_ne _ _ (by decide) (by decide), bitB_putB _ _ (by decide)]

theorem bitB_statusWith_eip : bitB (statusWith w pl v shb eip) 8 = eip := bitB_putB _ _ (by decide)

/-- Bits 4 to 7, where the IE of the levels stand, are left. -/
theorem bitB_statusWith_ie {n : Nat} (h : 3 < n) (h' : n < 8) : bitB (statusWith w pl v shb eip) n = bitB w n := by
  unfold statusWith
  rw [bitB_putB_ne _ _ (by omega) (by omega), bitB_putB_ne _ _ (by omega) (by omega),
    bitB_putB_ne _ _ (by omega) (by omega), bitB_putW_ne _ _ (by omega) (by omega)]

end Status

section SetLevel
variable (k : Core) (pl : Nat) (v shb eip : Bool)

theorem Core.status_setLevel : (k.setLevel pl v shb eip).status = statusWith k.status pl v shb eip := by
  unfold Core.setLevel
  exact (k.srv_setSr 0 _ 0).trans (if_pos rfl)

@[simp] theorem Core.pl_setLevel : (k.setLevel pl v shb eip).pl = pl % 4 := by
  rw [Core.pl, Core.status_setLevel, bitsN_statusWith_pl]

@[simp] theorem Core.vf_setLevel : (k.setLevel pl v shb eip).vf = v := by
  rw [Core.vf, Core.status_setLevel, bitB_statusWith_v]

@[simp] theorem Core.shb_setLevel : (k.setLevel pl v shb eip).shb = shb := by
  rw [Core.shb, Core.status_setLevel, bitB_statusWith_shb]

@[simp] theorem Core.eip_setLevel : (k.setLevel pl v shb eip).eip = eip := by
  rw [Core.eip, Core.status_setLevel, bitB_statusWith_eip]

theorem Core.srv_setLevel {n : Nat} (h : n ≠ 0) : (k.setLevel pl v shb eip).srv n = k.srv n :=
  (k.srv_setSr 0 _ n).trans (if_neg h)

/-- The IE of a level above PL0 stands apart from the fields of a level change, in either copy of status. -/
theorem Core.ie_setLevel {t : Nat} (g : Bool) (h : 1 ≤ t) (h' : t < 4) : (k.setLevel pl v shb eip).ie t g = k.ie t g := by
  unfold Core.ie
  cases g with
  | true => rw [k.srv_setLevel pl v shb eip (by decide)]
  | false =>
    change bitB (k.setLevel pl v shb eip).status (3 + t) = bitB k.status (3 + t)
    rw [Core.status_setLevel, bitB_statusWith_ie _ _ _ _ _ (by omega) (by omega)]

end SetLevel

theorem Core.srv_setIe (k : Core) (t : Nat) (g b : Bool) {n : Nat} (h : n ≠ bk g 0) : (k.setIe t g b).srv n = k.srv n :=
  (k.srv_setSr _ _ n).trans (if_neg h)

theorem Core.ie_setIe (k : Core) {t : Nat} (g b : Bool) (h : t < 4) : (k.setIe t g b).ie t g = b := by
  unfold Core.ie Core.setIe
  rw [Core.srv_setSr, if_pos rfl, bitB_putB _ _ (by omega)]

theorem Core.pl_lt (k : Core) : k.pl < 4 := bitsN_lt _ 1 0

/-! ## The core after TRET -/

/-- The status word that TRET restores from: rstatus in a refill handler, tstatus of the level otherwise. -/
def Core.savedStatus (k : Core) : Word :=
  if k.shb then k.srv (bk (k.vf && decide (k.pl = 1)) 0x041) else k.srv (bk (k.vf && decide (k.pl = 1)) (16 * k.pl + 4))

section Tret
variable (k : Core)

theorem Core.pl_tret : k.tret.pl = bitsN k.savedStatus 1 0 :=
  (Core.pl_setLevel ..).trans (Nat.mod_eq_of_lt (bitsN_lt _ 1 0))

theorem Core.vf_tret : k.tret.vf = bitB k.savedStatus 2 := Core.vf_setLevel ..

theorem Core.shb_tret : k.tret.shb = (!k.shb && bitB k.savedStatus 3) := by
  refine (Core.shb_setLevel ..).trans ?_
  change (if k.shb then false else bitB k.savedStatus 3) = _
  cases k.shb <;> rfl

theorem Core.eip_tret : k.tret.eip = bitB k.savedStatus 5 := Core.eip_setLevel ..

theorem Core.ie_tret (h : 1 ≤ k.pl) : k.tret.ie k.pl (k.vf && decide (k.pl = 1)) = bitB k.savedStatus 4 :=
  (Core.ie_setLevel _ _ _ _ _ _ h k.pl_lt).trans (k.ie_setIe _ _ k.pl_lt)

/-- TRET writes no system register but status and its guest copy. -/
theorem Core.srv_tret {n : Nat} (h : n ≠ 0) (hg : n ≠ 0x800) : k.tret.srv n = k.srv n := by
  refine (Core.srv_setLevel _ _ _ _ _ h).trans (k.srv_setIe _ _ _ ?_)
  cases k.vf && decide (k.pl = 1)
  · exact h
  · exact hg

theorem Core.tret_rest : { k.tret with pc := k.pc, sr := k.sr, resv := k.resv, hold := k.hold } = k := rfl

theorem Core.tret_pflush : k.pflush.tret = k.tret.pflush := rfl

theorem Core.pflush_pflush : k.pflush.pflush = k.pflush := rfl

end Tret

/-! ## The predictor flush of a level change (R280) -/

theorem State.counted_levelChange (s : State) (c pl : Nat) (v : Bool) : s.Counted (s.levelChange c pl v) c := by
  unfold State.levelChange
  split
  · exact s.counted_modCore c _
  · exact .refl s c

/-- A level change leaves the core, or flushes its predictors. -/
theorem State.core_levelChange (s : State) (c pl : Nat) (v : Bool) :
    (s.levelChange c pl v).core c = s.core c ∨ (s.levelChange c pl v).core c = (s.core c).pflush := by
  unfold State.levelChange
  split
  · exact .inr (s.core_modCore_same c _)
  · exact .inl rfl

/-- Core k with the predictors and the store-wait table of core t. -/
def Core.predictedAs (k t : Core) : Core :=
  { k with ctr := t.ctr, hist := t.hist, rstack := t.rstack, btb := t.btb, zb := t.zb, swait := t.swait }

theorem Core.predictedAs_pflush (k t : Core) : k.pflush.predictedAs t = k.predictedAs t := rfl

/-- Counting leaves the predictors. -/
theorem Core.Counted.predictedAs_eq {k t : Core} (h : k.Counted t) : k.predictedAs t = k := by
  have hk : ∀ x : Core, { t with sr := k.sr, sampQ := k.sampQ, sampDrop := k.sampDrop } = x → x.predictedAs t = x := by
    rintro _ rfl
    rfl
  exact hk k h.rest

/-- Cores k and k' that differ in the predictors alone count alike, once k takes the predictors that k' ends with. -/
theorem Core.Counted.of_pflush_eq {k k' t : Core} (e : k'.pflush = k.pflush) (h : k'.Counted t) : (k.predictedAs t).Counted t := by
  have hk : k.predictedAs t = k' := by
    rw [← k.predictedAs_pflush, ← e, k'.predictedAs_pflush, h.predictedAs_eq]
  rwa [hk]

/-! ## TRET -/

/-- The state in which TRET leaves its core, before the instruction is counted. -/
def State.tret (s : State) (c : Nat) : State :=
  ((s.commit c).levelChange c (s.core c).tret.pl (s.core c).tret.vf).modCore c Core.tret

theorem exec_tret {s : State} {c : CoreId} (h : s.Runs c) (hp : 1 ≤ (s.core c).pl) :
    exec (.tret c) s = .next ((s.tret c).count c [evInst] (s.core c).pl (s.core c).vf { pc := (s.core c).pc }) := by
  change execTret c s = _
  unfold execTret
  rw [State.run_of_runs h]
  exact congrArg _ (if_neg (by omega))

theorem State.counted_tret (s : State) (c : Nat) : s.Counted (s.tret c) c :=
  ((s.counted_commit c).trans (State.counted_levelChange _ c _ _)).trans (State.counted_modCore _ c _)

/-- The core after TRET is `Core.tret` of it, but for the predictor flush of a level change. -/
theorem State.core_tret_pflush (s : State) (c : Nat) : ((s.tret c).core c).pflush = (s.core c).tret.pflush := by
  unfold State.tret
  rw [State.core_modCore_same]
  rcases (s.commit c).core_levelChange c (s.core c).tret.pl (s.core c).tret.vf with e | e
  · rw [e, State.core_commit]
  · rw [e, State.core_commit, Core.tret_pflush, Core.pflush_pflush]

/-- Settles O21: what TRET leaves of its core is `Core.tret`, up to the predictors and counting. -/
theorem trapReturn : Obligations.TrapReturn := by
  unfold Obligations.TrapReturn
  intro s c h hp
  have hc := (s.tret c).onlyCounts_count c [evInst] (s.core c).pl (s.core c).vf { pc := (s.core c).pc }
  exact ⟨_, (s.core c).tret, exec_tret h hp, (s.counted_tret c).trans hc.1, hc.2.of_pflush_eq (s.core_tret_pflush c), rfl,
    Core.pl_tret _, Core.vf_tret _, Core.shb_tret _, Core.eip_tret _, Core.ie_tret _ hp, rfl, Core.tret_rest _,
    fun _ => Core.srv_tret _⟩

end Sys2Proof.Machine
end

section
/-! Vector instructions (R286 to R305): issue and retirement of one that accesses no memory, a heavy issue, and the lanes
of a merged register. -/

namespace Sys2Proof.Machine
open Sys2Proof

/-! ## Counting leaves the TLB entries recently used -/

section Nru
variable (s : State) (c : Nat)

theorem State.nru_ite {s t u : State} {b : Prop} [Decidable b] (h : t.nru = s.nru) (h' : u.nru = s.nru) :
    (if b then t else u).nru = s.nru := by
  split <;> assumption

theorem State.commit_nru : (s.commit c).nru = s.nru := by
  unfold State.commit
  exact State.nru_ite (State.putFld_nru ..) rfl

theorem State.preciseSample_nru (n pl : Nat) (v : Bool) (x : Samp) : (s.preciseSample c n pl v x).nru = s.nru := by
  unfold State.preciseSample
  exact State.nru_ite (State.modCore_nru ..) rfl

theorem State.ovfInt_nru (n : Nat) : (s.ovfInt c n).nru = s.nru := by
  unfold State.ovfInt
  simp only
  split
  · exact State.nru_ite (State.putFlag_nru ..) (State.modCore_nru ..)
  · exact State.modCore_nru ..

theorem State.wrapped_nru (n : Nat) : (s.wrapped c n).nru = s.nru := by
  unfold State.wrapped
  have h (t : State) (ht : t.nru = s.nru) {b : Prop} [Decidable b] : (if b then t.ovfInt c n else t).nru = s.nru :=
    State.nru_ite ((t.ovfInt_nru c n).trans ht) ht
  exact State.nru_ite ((State.modCore_nru ..).trans (h _ (State.modCore_nru ..))) (h _ (State.modCore_nru ..))

theorem State.bumpCounter_nru (n pl : Nat) (v : Bool) (x : Samp) : (s.bumpCounter c n pl v x).nru = s.nru := by
  unfold State.bumpCounter
  have h (f : Core → Core) : ((s.modCore c f).wrapped c n).nru = s.nru := (State.wrapped_nru ..).trans (State.modCore_nru ..)
  exact State.nru_ite
    (State.nru_ite ((State.preciseSample_nru ..).trans ((State.modCore_nru ..).trans (h _))) (h _)) (State.modCore_nru ..)

theorem State.growCounter_nru (n b : Nat) : (s.growCounter c n b).nru = s.nru := by
  unfold State.growCounter
  exact State.nru_ite ((State.wrapped_nru ..).trans (State.modCore_nru ..)) (State.modCore_nru ..)

theorem State.countFrom_nru (evs : List Nat) (pl : Nat) (v : Bool) (x : Samp) (l : List Nat) :
    (s.countFrom c evs pl v x l).nru = s.nru := by
  induction l generalizing s with
  | nil => rfl
  | cons n l ih => exact (ih _).trans (State.nru_ite (State.bumpCounter_nru ..) rfl)

theorem State.growFrom_nru (pl : Nat) (v : Bool) (b : Nat) (l : List Nat) : (s.growFrom c pl v b l).nru = s.nru := by
  induction l generalizing s with
  | nil => rfl
  | cons n l ih => exact (ih _).trans (State.nru_ite (State.growCounter_nru ..) rfl)

theorem State.count_nru (evs : List Nat) (pl : Nat) (v : Bool) (x : Samp) : (s.count c evs pl v x).nru = s.nru := by
  unfold State.count
  have h := s.countFrom_nru c evs pl v x (List.range 8)
  exact State.nru_ite rfl (State.nru_ite ((State.bump_nru _).trans ((State.growFrom_nru ..).trans h)) h)

theorem State.fin_nru (evs : List Nat) (plain : Bool) (f : Core → Core) : (s.fin c evs plain f).nru = s.nru := by
  unfold State.fin State.retire
  exact (State.count_nru ..).trans ((State.modCore_nru ..).trans ((State.commit_nru ..).trans (State.modCore_nru ..)))

end Nru

/-! ## A heavy issue -/

theorem State.vpwrAddr_lt (s : State) (c : Nat) : s.vpwrAddr c < dseBase := by
  have ht := s.tileOf_lt c
  have hp := s.posOf_lt c
  unfold State.vpwrAddr
  split <;> omega

/-- A heavy issue sets the core's count of them, and may set STATE of the register that governs its vector unit. -/
theorem State.heavy_cases (s : State) (c : Nat) : ∃ n, s.heavy c = s.bump.modCore c (fun k => { k with heavy := n }) ∨
    s.heavy c = (s.bump.putFld (s.vpwrAddr c) 1 0 1).modCore c (fun k => { k with heavy := n }) := by
  unfold State.heavy
  dsimp only
  generalize (if s.draw 2 = 1 then 1 else (s.core c).heavy + 1) = n
  split
  · exact ⟨0, .inr rfl⟩
  · exact ⟨_, .inl rfl⟩

theorem State.core_heavy (s : State) (c : Nat) : ∃ n, (s.heavy c).core c = { s.core c with heavy := n } := by
  obtain ⟨n, e | e⟩ := s.heavy_cases c
  · exact ⟨n, by rw [e]; exact State.core_modCore_same ..⟩
  · exact ⟨n, by rw [e]; exact State.core_modCore_same ..⟩

theorem State.core_heavy_ne (s : State) {c c' : Nat} (h : c' ≠ c) : (s.heavy c).core c' = s.core c' := by
  obtain ⟨n, e | e⟩ := s.heavy_cases c
  · rw [e, State.core_modCore, if_neg h, State.core_bump]
  · rw [e, State.core_modCore, if_neg h, State.core_putFld, State.core_bump]

theorem State.heavy_rest (s : State) (c : Nat) : { s.heavy c with cores := s.cores, csr := s.csr, free := s.free } = s := by
  obtain ⟨n, e | e⟩ := s.heavy_cases c <;> rw [e] <;> rfl

theorem State.rdCsr_heavy (s : State) (c : Nat) {a : Nat} (h : a ≠ s.vpwrAddr c) : (s.heavy c).rdCsr a = s.rdCsr a := by
  obtain ⟨n, e | e⟩ := s.heavy_cases c
  · rw [e, State.rdCsr_modCore, State.rdCsr_bump]
  · rw [e, State.rdCsr_modCore, State.rdCsr_putFld _ _ _ _ _ (Nat.ne_of_lt (s.vpwrAddr_lt c)), if_neg h, State.rdCsr_bump]

/-- TILE_VPWR lies below the register that names a core's place, so the core stays where it is. -/
theorem State.phys_heavy (s : State) (c c' : Nat) : (s.heavy c).phys c' = s.phys c' := by
  have h := s.vpwrAddr_lt c
  unfold State.phys
  rw [State.rdCsr_heavy _ _ (by omega)]

theorem Core.heavy_holdStep (k : Core) (n : Nat) (plain : Bool) :
    ({ k with heavy := n } : Core).holdStep plain = { k.holdStep plain with heavy := n } := by
  unfold Core.holdStep
  cases h : k.hold <;> simp only [h]

/-- Counting leaves the count of heavy issues. -/
theorem Core.Counted.heavy_eq {k t : Core} (h : k.Counted t) : t.heavy = k.heavy := (congrArg Core.heavy h.rest :)

/-- What retirement after a heavy issue leaves beside its core. -/
theorem State.heavy_fin_rest (s : State) (c : Nat) (evs : List Nat) (plain : Bool) (f : Core → Core) :
    { (s.heavy c).fin c evs plain f with cores := s.cores, csr := s.csr, free := s.free } = s := by
  have hr := s.heavy_rest c
  have hf := ((s.heavy c).fin_counts c evs plain f).1.rest
  have hn := (s.heavy c).fin_nru c evs plain f
  generalize (s.heavy c).fin c evs plain f = u at hf hn
  rw [← hf, ← hn] at hr
  exact hr

/-- A heavy instruction whose change f of its core neither reads nor writes the count of heavy issues. -/
theorem completesHeavy_fin {i : Instr} {s : State} {c : Nat} (evs : List Nat) (plain : Bool) (f : Core → Core)
    (hf : ∀ k n, f { k with heavy := n } = { f k with heavy := n }) (h : s.Runs c)
    (hi : exec i s = .next (s.run c ((s.heavy c).fin c evs plain f))) :
    CompletesHeavy i s c ((f (s.core c)).adv.holdStep plain) := by
  obtain ⟨hs, hk⟩ := (s.heavy c).fin_counts c evs plain f
  obtain ⟨n, hn⟩ := s.core_heavy c
  refine ⟨_, by rw [hi, State.run_of_runs h], s.heavy_fin_rest c evs plain f, fun c' hc => ?_, fun a ha hv => ?_, ?_⟩
  · rw [hs.others c' hc, s.core_heavy_ne hc]
  · rw [hs.csr a, s.rdCsr_heavy c hv]
    rwa [State.countCsr_congr (s.phys_heavy c c)]
  · rw [hn, hf] at hk
    have hk' := hk
    rw [show ({ f (s.core c) with heavy := n } : Core).adv = { (f (s.core c)).adv with heavy := n } from rfl,
      Core.heavy_holdStep] at hk'
    rwa [hk'.heavy_eq]

/-! ## A vector instruction that accesses no memory -/

/-- An instruction that writes no vector state retires with its effect. -/
theorem State.vec_plain (s : State) (c : Nat) (f : Core → Core) :
    s.vec c true false false f = .next (s.run c (s.fin c [evVec] true f)) := by
  unfold State.vec
  simp only [Bool.not_true, Bool.false_eq_true, if_false]

/-- A heavy one first counts its issue, and sets DIRTY beside its effect. -/
theorem State.vec_heavy (s : State) (c : Nat) (f : Core → Core) :
    s.vec c true true true f = .next (s.run c ((s.heavy c).fin c [evVec, evVecHeavy] true (fun k => (f k).vDirty))) := by
  unfold State.vec
  simp only [Bool.not_true, Bool.false_eq_true, if_false, if_true]

theorem State.vec_illegal {s : State} {c : Nat} (h : s.Runs c) (hv dirty : Bool) (f : Core → Core) :
    s.vec c false hv dirty f = .next (s.trap c { code := 0x01 }) := by
  unfold State.vec
  simp only [Bool.not_false, if_true, State.run_of_runs h, State.illegal]

/-! ## Lanes -/

theorem mul_pow_add_succ (x b i d : Nat) : x * b ^ (i + d + 1) = b ^ i * (b * (x * b ^ d)) := by
  rw [Nat.add_assoc, Nat.pow_add, Nat.pow_succ', Nat.mul_left_comm x, Nat.mul_left_comm x]

/-- Digits below base b: their sum is below the next power, and each is read back from it. -/
theorem sum_digits {b : Nat} (g : Nat → Nat) (hg : ∀ i, g i < b) (n : Nat) :
    ((List.range n).map (fun i => g i * b ^ i)).sum < b ^ n ∧
      ∀ i, i < n → ((List.range n).map (fun i => g i * b ^ i)).sum / b ^ i % b = g i := by
  have hb : 0 < b := Nat.zero_lt_of_lt (hg 0)
  induction n with
  | zero => exact ⟨Nat.one_pos, fun i hi => absurd hi (Nat.not_lt_zero i)⟩
  | succ n ih =>
    obtain ⟨hlt, hdig⟩ := ih
    rw [List.range_succ, List.map_append, List.sum_append, List.map_singleton, List.sum_singleton]
    generalize ((List.range n).map (fun i => g i * b ^ i)).sum = S at hlt hdig
    refine ⟨?_, fun i hi => ?_⟩
    · calc S + g n * b ^ n < b ^ n + g n * b ^ n := Nat.add_lt_add_right hlt _
        _ = (g n + 1) * b ^ n := by rw [Nat.add_one_mul, Nat.add_comm]
        _ ≤ b * b ^ n := Nat.mul_le_mul_right _ (hg n)
        _ = b ^ (n + 1) := Nat.pow_succ'.symm
    · rcases Nat.lt_succ_iff_lt_or_eq.1 hi with h | rfl
      · obtain ⟨d, rfl⟩ := Nat.exists_eq_add_of_lt h
        rw [mul_pow_add_succ, Nat.add_mul_div_left _ _ (Nat.pow_pos hb), Nat.add_mul_mod_self_left, hdig i h]
      · rw [Nat.add_mul_div_right _ _ (Nat.pow_pos hb), Nat.div_eq_of_lt hlt, Nat.zero_add, Nat.mod_eq_of_lt (hg i)]

/-- An element of a register made from a function. -/
theorem vEl_vMk {e n i : Nat} (f : Nat → Nat) (h : e * n ≤ 128) (hi : i < n) : vEl (vMk e n f) e i = f i % 2 ^ e := by
  obtain ⟨hlt, hdig⟩ := sum_digits (fun i => f i % 2 ^ e) (fun i => Nat.mod_lt _ (Nat.two_pow_pos e)) n
  simp only [← Nat.pow_mul] at hlt hdig
  unfold vEl vMk
  rw [BitVec.toNat_ofNat, Nat.mod_eq_of_lt (Nat.lt_of_lt_of_le hlt (Nat.pow_le_pow_right (by decide) h)), hdig i hi]

/-- Merging computes the active lanes, and clears or keeps the others (R289). -/
theorem lanes_vMerge (k : Core) (m : MReg) (e : Nat) (z : Bool) (old : VWord) (f : Nat → Nat) :
    Lanes k m e z old (vMerge old (k.rm m) e z f) f := by
  intro i hi
  unfold vMerge
  rw [vEl_vMk _ (Nat.mul_div_le 128 e) hi]
  unfold actv
  split
  · rfl
  · cases z
    · exact Nat.mod_mod _ _
    · exact Nat.zero_mod _

end Sys2Proof.Machine
end

section
/-! Reductions (R295): folds over the active elements against sums, bounds and bits of the list of those elements. -/

namespace Sys2Proof.Machine
open Sys2Proof

/-! ## Elements as numbers -/

theorem eW_pos (w : BitVec 2) : 0 < eW w := Nat.mul_pos (by decide) (Nat.two_pow_pos _)

theorem vEl_lt (x : VWord) (e i : Nat) : vEl x e i < 2 ^ e := Nat.mod_lt _ (Nat.two_pow_pos _)

/-- A signed element lies in the range that e bits hold. -/
theorem sgn_bounds {e x : Nat} (he : 0 < e) (hx : x < 2 ^ e) :
    -((2 : Int) ^ (e - 1)) ≤ sgn e x ∧ sgn e x ≤ (2 : Int) ^ (e - 1) - 1 := by
  have hp : 2 ^ e = 2 * 2 ^ (e - 1) := by rw [← Nat.pow_succ', Nat.succ_eq_add_one, Nat.sub_add_cancel he]
  have hc (n : Nat) : (2 : Int) ^ n = (2 ^ n : Nat) := (Int.natCast_pow 2 n).symm
  unfold sgn
  rw [hc (e - 1), hc e]
  split <;> omega

/-! ## Folds of a list -/

/-- The operation op answers the one of two numbers that comes first in an order le. -/
structure Picks (op : Int → Int → Int) (le : Int → Int → Prop) : Prop where
  choice : ∀ a b, op a b = a ∨ op a b = b
  left : ∀ a b, le (op a b) a
  right : ∀ a b, le (op a b) b
  trans : ∀ {a b c}, le a b → le b c → le a c
  antisymm : ∀ {a b}, le a b → le b a → a = b

theorem picks_min : Picks (fun a b => min a b) (fun a b => a ≤ b) where
  choice a b := by omega
  left a b := by omega
  right a b := by omega
  trans := Int.le_trans
  antisymm := Int.le_antisymm

theorem picks_max : Picks (fun a b => max a b) (fun a b => b ≤ a) where
  choice a b := by omega
  left a b := by omega
  right a b := by omega
  trans h h' := Int.le_trans h' h
  antisymm h h' := Int.le_antisymm h' h

section Folds
variable {β : Type} {op : Int → Int → Int} {le : Int → Int → Prop}

/-- Folding with op answers the first of the start and the values. -/
theorem Picks.foldl_first (hop : Picks op le) (g : β → Int) (l : List β) (a : Int) :
    let r := l.foldl (fun v x => op v (g x)) a
    (r = a ∨ ∃ x ∈ l, r = g x) ∧ le r a ∧ ∀ x ∈ l, le r (g x) := by
  induction l generalizing a with
  | nil =>
    have hrefl := hop.left a a
    rw [(hop.choice a a).elim id id] at hrefl
    exact ⟨.inl rfl, hrefl, fun x hx => absurd hx List.not_mem_nil⟩
  | cons y l ih =>
    obtain ⟨hmem, hstart, hle⟩ := ih (op a (g y))
    refine ⟨?_, hop.trans hstart (hop.left a (g y)), fun x hx => ?_⟩
    · rcases hmem with h | ⟨x, hx, h⟩
      · exact (hop.choice a (g y)).imp h.trans fun h' => ⟨y, List.mem_cons_self, h.trans h'⟩
      · exact .inr ⟨x, List.mem_cons_of_mem y hx, h⟩
    · rcases List.mem_cons.1 hx with rfl | hx
      · exact hop.trans hstart (hop.right a (g x))
      · exact hle x hx

/-- From an identity that comes after every value, op answers the identity for the empty list, and else the first value. -/
theorem Picks.foldl_of_identity (hop : Picks op le) (g : β → Int) (l : List β) (a : Int) (h : ∀ x ∈ l, le (g x) a) :
    let r := l.foldl (fun v x => op v (g x)) a
    (l = [] → r = a) ∧ (∀ x ∈ l, le r (g x)) ∧ (l ≠ [] → ∃ x ∈ l, r = g x) := by
  obtain ⟨hmem, -, hle⟩ := hop.foldl_first g l a
  refine ⟨fun hl => by rw [hl]; rfl, hle, fun hl => ?_⟩
  rcases hmem with ha | hx
  · obtain ⟨x, hx⟩ := List.exists_mem_of_ne_nil l hl
    refine ⟨x, hx, hop.antisymm (hle x hx) ?_⟩
    rw [ha]
    exact h x hx
  · exact hx

end Folds

theorem foldl_add_eq_sum {β : Type} (g : β → Int) (l : List β) : l.foldl (fun a x => a + g x) 0 = (l.map g).sum := by
  rw [List.sum_eq_foldl, List.foldl_map]

/-- A fold on integers that works on natural numbers is the fold on those. -/
theorem foldl_ofNat (f : Nat → Nat → Nat) (l : List Nat) (n : Nat) :
    l.foldl (fun (a : Int) x => ((f a.toNat x : Nat) : Int)) n = (l.foldl f n : Nat) :=
  List.foldl_hom (fun n : Nat => (n : Int)) fun _ _ => by rw [Int.toNat_natCast]

theorem testBit_foldl_and (l : List Nat) (n j : Nat) :
    (l.foldl (fun a x => a &&& x) n).testBit j = (n.testBit j && l.all (fun x => x.testBit j)) := by
  induction l generalizing n with
  | nil => exact (Bool.and_true _).symm
  | cons x l ih => rw [List.foldl_cons, ih, Nat.testBit_and, List.all_cons, Bool.and_assoc]

theorem testBit_foldl_or (l : List Nat) (n j : Nat) :
    (l.foldl (fun a x => a ||| x) n).testBit j = (n.testBit j || l.any (fun x => x.testBit j)) := by
  induction l generalizing n with
  | nil => exact (Bool.or_false _).symm
  | cons x l ih => rw [List.foldl_cons, ih, Nat.testBit_or, List.any_cons, Bool.or_assoc]

/-- One more turns odd and even around. -/
theorem decide_odd_add (n : Nat) (b : Bool) : decide ((n + if b = true then 1 else 0) % 2 = 1) = (b ^^ decide (n % 2 = 1)) := by
  cases b with
  | false => exact (Bool.false_xor _).symm
  | true =>
    rw [if_pos rfl, Bool.true_xor, ← decide_not]
    exact decide_eq_decide.2 (by omega)

/-- A bit of an exclusive or tells whether an odd number of the elements has it. -/
theorem testBit_foldl_xor (l : List Nat) (n j : Nat) :
    (l.foldl (fun a x => a ^^^ x) n).testBit j = (n.testBit j ^^ decide (l.countP (fun x => x.testBit j) % 2 = 1)) := by
  induction l generalizing n with
  | nil => exact (Bool.xor_false _).symm
  | cons x l ih => rw [List.foldl_cons, ih, Nat.testBit_xor, List.countP_cons, decide_odd_add, Bool.xor_assoc]

/-! ## Reductions -/

/-- The active elements of va, in ascending order. -/
def Core.activeEls (k : Core) (va m : Nat) (w : BitVec 2) : List Nat := (actvs (k.rm m) (eW w)).map (vEl (k.rv va) (eW w))

theorem Core.lt_of_mem_activeEls {k : Core} {va m : Nat} {w : BitVec 2} {x : Nat} (h : x ∈ k.activeEls va m w) : x < 2 ^ eW w := by
  obtain ⟨i, -, rfl⟩ := List.mem_map.1 h
  exact vEl_lt _ _ _

/-- A reduction whose fold of the active elements has a property p leaves a value with that property in rd. -/
theorem exists_completes_vred {i : Instr} {s : State} {c rd : Nat} {p : Int → Prop} (va m : Nat) (w : BitVec 2) (ident : Nat → Int)
    (f : Nat → Int → Nat → Int) (h : s.Runs c) (hi : exec i s = s.vred c rd va m w ident f)
    (hp : p (((s.core c).activeEls va m w).foldl (f (eW w)) (ident (eW w)))) :
    ∃ v, p v ∧ Completes i s c ((s.core c).put rd (BitVec.ofInt 64 v)) :=
  ⟨_, hp, completes_fin [evVec] true
    (fun k => k.wr rd (BitVec.ofInt 64 ((k.activeEls va m w).foldl (f (eW w)) (ident (eW w))))) h (hi.trans (s.vec_plain c _))⟩

/-- Settles O34: each reduction folds the active elements from its identity, which bounds every element or leaves it as it is. -/
theorem vectorReductions : Obligations.VectorReductions := by
  unfold Obligations.VectorReductions
  intro s c rd va m w h k e l g gives
  have hs (x : Nat) (hx : x ∈ l) := sgn_bounds (eW_pos w) (k.lt_of_mem_activeEls hx)
  have hu (x : Nat) (hx : x ∈ l) : (x : Int) ≤ 2 ^ e - 1 := Int.le_sub_one_of_lt (by exact_mod_cast k.lt_of_mem_activeEls hx)
  have hones : (2 : Int) ^ e - 1 = (2 ^ e - 1 : Nat) := by push_cast [Nat.one_le_two_pow]; rfl
  have ofBits (f : Nat → Nat → Nat) (n : Nat) {p : Nat → Prop} (hp : p (l.foldl f n)) :
      ∃ r : Nat, l.foldl (fun (a : Int) x => ((f a.toNat x : Nat) : Int)) n = r ∧ p r := ⟨_, foldl_ofNat f l n, hp⟩
  refine ⟨exists_completes_vred va m w (fun _ => 0) (fun e a x => a + sgn e x) h rfl ?sum,
    exists_completes_vred va m w (fun e => (2 : Int) ^ (e - 1) - 1) (fun e a x => min a (sgn e x)) h rfl ?min,
    exists_completes_vred va m w (fun e => -((2 : Int) ^ (e - 1))) (fun e a x => max a (sgn e x)) h rfl ?max,
    exists_completes_vred va m w (fun e => (2 : Int) ^ e - 1) (fun _ a x => min a (x : Int)) h rfl ?minu,
    exists_completes_vred va m w (fun _ => 0) (fun _ a x => max a (x : Int)) h rfl ?maxu,
    exists_completes_vred va m w (fun e => (2 : Int) ^ e - 1) (fun _ a x => ((a.toNat &&& x : Nat) : Int)) h rfl ?and,
    exists_completes_vred va m w (fun _ => 0) (fun _ a x => ((a.toNat ||| x : Nat) : Int)) h rfl ?or,
    exists_completes_vred va m w (fun _ => 0) (fun _ a x => ((a.toNat ^^^ x : Nat) : Int)) h rfl ?xor⟩
  case sum => exact foldl_add_eq_sum g l
  case min => exact picks_min.foldl_of_identity g l _ fun x hx => (hs x hx).2
  case max => exact picks_max.foldl_of_identity g l _ fun x hx => (hs x hx).1
  case minu => exact picks_min.foldl_of_identity _ l _ hu
  case maxu => exact picks_max.foldl_of_identity _ l _ fun x _ => Int.natCast_nonneg x
  case and =>
    change ∃ r : Nat, l.foldl _ ((2 : Int) ^ e - 1) = r ∧ _
    rw [hones]
    exact ofBits _ _ fun j => by rw [testBit_foldl_and, Nat.testBit_two_pow_sub_one]
  case or => exact ofBits _ 0 fun j => by rw [testBit_foldl_or, Nat.zero_testBit, Bool.false_or]
  case xor => exact ofBits _ 0 fun j => by rw [testBit_foldl_xor, Nat.zero_testBit, Bool.false_xor]

end Sys2Proof.Machine
end

section
/-! Service-mode forms (R296): clamping, and where the forms trap. -/

namespace Sys2Proof.Machine
open Sys2Proof

/-! ## Clamping -/

/-- Whether an active element of values f is clamped to e bits. -/
def clampsAny (m : BitVec 16) (e : Nat) (f : Nat → Int) : Bool :=
  (List.range (128 / e)).any (fun i => actv m e i && (satE e (f i)).2)

theorem satE_snd_iff (e : Nat) (x : Int) :
    (satE e x).2 = true ↔ ¬ (-((2 : Int) ^ (e - 1)) ≤ x ∧ x ≤ (2 : Int) ^ (e - 1) - 1) := by
  simp only [satE, Bool.or_eq_true, decide_eq_true_eq, Decidable.not_and_iff_not_or_not, Int.not_le]

theorem clampsAny_iff (m : BitVec 16) (e : Nat) (f : Nat → Int) : clampsAny m e f = true ↔
    ∃ i, (i < 128 / e ∧ m.getLsbD (i * (e / 8)) = true) ∧ ¬ (-((2 : Int) ^ (e - 1)) ≤ f i ∧ f i ≤ (2 : Int) ^ (e - 1) - 1) := by
  simp only [clampsAny, List.any_eq_true, List.mem_range, Bool.and_eq_true, satE_snd_iff, actv, and_assoc]

theorem putB_zero_true (x : Word) : putB x 0 true = x ||| 1 := by
  refine BitVec.eq_of_getLsbD_eq fun i hi => ?_
  unfold putB
  rw [getLsbD_putW _ _ _ _ _ hi, BitVec.getLsbD_or]
  cases i with
  | zero =>
    rw [if_pos ⟨Nat.le_refl 0, Nat.le_refl 0⟩]
    exact (Bool.or_true _).symm
  | succ i =>
    have h1 : (1 : Word).getLsbD (i + 1) = false := by
      rw [show (1 : Word) = 1#64 from rfl, BitVec.getLsbD_one, decide_eq_false (Nat.succ_ne_zero i), Bool.and_false]
    rw [if_neg (by omega), h1, Bool.or_false]

/-- Outside the guest, SAT is bit 0 of system register 0x401 (Table 10.1). -/
theorem Core.vSat_true {k : Core} (h : k.vf = false) : k.vSat true = k.setSr 0x401 (k.srv 0x401 ||| 1) := by
  unfold Core.vSat
  rw [if_pos rfl, h, putB_zero_true]
  rfl

theorem Core.heavy_vSat (k : Core) (n : Nat) (b : Bool) : ({ k with heavy := n } : Core).vSat b = { k.vSat b with heavy := n } := by
  cases b <;> rfl

/-! ## Service mode -/

/-- status.SVC reads TILE_SVC.SVC of the core's tile position (R201). -/
theorem State.bitB_srVal_svc (s : State) (c : Nat) :
    bitB (s.srVal c 0) 7 = bitB (s.rdCsr (s.tileOf c + 0x10000 + 8 * s.posOf c)) 0 := bitB_putB _ _ (by decide)

/-- The values of a service-mode form before clamping. -/
def Core.svcVals (k : Core) (va vb e : Nat) (f : Nat → Int → Int → Int) (i : Nat) : Int :=
  f e (sgn e (vEl (k.rv va) e i)) (sgn e (vEl (k.rv vb) e i))

/-- What a service-mode form does to its core, but for DIRTY and retirement. -/
def Core.svc (vd va vb m e : Nat) (z : Bool) (f : Nat → Int → Int → Int) (k : Core) : Core :=
  (k.wv vd (vMerge (k.rv vd) (k.rm m) e z (fun i => (satE e (k.svcVals va vb e f i)).1))).vSat
    (clampsAny (k.rm m) e (k.svcVals va vb e f))

theorem Core.heavy_svc (vd va vb m e : Nat) (z : Bool) (f : Nat → Int → Int → Int) (k : Core) (n : Nat) :
    Core.svc vd va vb m e z f { k with heavy := n } = { Core.svc vd va vb m e z f k with heavy := n } :=
  Core.heavy_vSat (k.wv vd _) n (clampsAny (k.rm m) e (k.svcVals va vb e f))

/-- Outside the guest: the register's lanes are the clamped values, and SAT is set when an active one was clamped. -/
theorem Core.svc_clamps {k : Core} (hv : k.vf = false) (vd va vb : VReg) (m : MReg) (e : Nat) (z : Bool) (f : Nat → Int → Int → Int) :
    ∃ r : VWord, Lanes k m e z (k.rv vd) r (fun j => (satE e (k.svcVals va vb e f j)).1) ∧
      (clampsAny (k.rm m) e (k.svcVals va vb e f) = true →
        Core.svc vd va vb m e z f k = (k.wv vd r).setSr 0x401 (k.srv 0x401 ||| 1)) ∧
      (clampsAny (k.rm m) e (k.svcVals va vb e f) = false → Core.svc vd va vb m e z f k = k.wv vd r) := by
  refine ⟨_, lanes_vMerge k m e z (k.rv vd) _, fun hb => ?_, fun hb => ?_⟩
  · unfold Core.svc
    rw [hb]
    exact Core.vSat_true hv
  · unfold Core.svc
    rw [hb]
    rfl

/-- A service-mode form is a heavy vector instruction, legal at PL3 with SVC = 1. -/
theorem State.vsvc_eq_vec (s : State) (c vd va vb m : Nat) (wide z : Bool) (f : Nat → Int → Int → Int) :
    s.vsvc c vd va vb m wide z f =
      s.vec c (decide ((s.core c).pl = 3) && bitB (s.rdCsr (s.tileOf c + 0x10000 + 8 * s.posOf c)) 0) true true
        (Core.svc vd va vb m (if wide then 32 else 16) z f) := by
  rw [← State.bitB_srVal_svc]
  rfl

section Forms
variable {i : Instr} {s : State} {c : CoreId} {vd va vb : VReg} {m : MReg} {wide z : Bool}

theorem traps_vsvc {f : Nat → Int → Int → Int} (h : s.Runs c) (hi : exec i s = s.vsvc c vd va vb m wide z f)
    (hs : (s.core c).pl ≠ 3 ∨ bitB (s.rdCsr (s.tileOf c + 0x10000 + 8 * s.posOf c)) 0 = false) :
    exec i s = .next (s.trap c { code := 0x01 }) := by
  rw [hi, State.vsvc_eq_vec, Bool.and_eq_false_iff.2 (hs.imp decide_eq_false id), State.vec_illegal h]

theorem completesHeavy_vsvc {f : Nat → Int → Int → Int} (h : s.Runs c) (hi : exec i s = s.vsvc c vd va vb m wide z f)
    (hp : (s.core c).pl = 3) (hs : bitB (s.rdCsr (s.tileOf c + 0x10000 + 8 * s.posOf c)) 0 = true) :
    CompletesHeavy i s c (Core.svc vd va vb m (if wide then 32 else 16) z f (s.core c)).vDone := by
  refine completesHeavy_fin [evVec, evVecHeavy] true (fun k => (Core.svc vd va vb m (if wide then 32 else 16) z f k).vDirty)
    (fun k n => by rw [Core.heavy_svc]; rfl) h ?_
  rw [hi, State.vsvc_eq_vec, hs, hp, decide_eq_true rfl, Bool.true_and, State.vec_heavy]

end Forms

/-- Settles O36: the four forms are one shape over the function of their elements. -/
theorem serviceModeForms : Obligations.ServiceModeForms := by
  unfold Obligations.ServiceModeForms
  intro s c vd va vb m wide z h k e g a b lo hi svc act gives traps
  have hgives {i : Instr} {f : Nat → Int → Int → Int} (hx : exec i s = s.vsvc c vd va vb m wide z f) (hp : k.pl = 3)
      (hv : k.vf = false) (hs : svc = true) : gives i (k.svcVals va vb e f) := by
    obtain ⟨r, hl, hsat, hfit⟩ := Core.svc_clamps hv vd va vb m e z f
    have hdone : CompletesHeavy i s c (Core.svc vd va vb m e z f k).vDone := completesHeavy_vsvc h hx hp hs
    have hc := clampsAny_iff (k.rm m) e (k.svcVals va vb e f)
    refine ⟨r, hl, fun hex => hsat (hc.2 hex) ▸ hdone, fun hall => hfit (Bool.eq_false_iff.2 fun hex => ?_) ▸ hdone⟩
    obtain ⟨j, hj, hout⟩ := hc.1 hex
    exact hout (hall j hj)
  have hadd : exec (.vsatadd c vd va vb m wide z) s = s.vsvc c vd va vb m wide z (fun _ a b => a + b) := rfl
  have hsub : exec (.vsatsub c vd va vb m wide z) s = s.vsvc c vd va vb m wide z (fun _ a b => a - b) := rfl
  have hmul : exec (.vfrmul c vd va vb m wide z) s = s.vsvc c vd va vb m wide z (fun e a b => a * b / (2 : Int) ^ (e - 1)) := rfl
  have hmulr : exec (.vfrmulr c vd va vb m wide z) s =
      s.vsvc c vd va vb m wide z (fun e a b => (a * b + (2 : Int) ^ (e - 2)) / (2 : Int) ^ (e - 1)) := rfl
  exact ⟨fun hp hv hs =>
      ⟨(hgives hadd hp hv hs :), (hgives hsub hp hv hs :), (hgives hmul hp hv hs :), (hgives hmulr hp hv hs :)⟩,
    fun hn => ⟨traps_vsvc h hadd hn, traps_vsvc h hsub hn, traps_vsvc h hmul hn, traps_vsvc h hmulr hn⟩⟩

end Sys2Proof.Machine
end
